-- ==== Sys2Proof/Word.lean ====
section
/-! DEFINITION. The word types of the VZ9 (R9, R14): bytes, 64-bit scalars, vector registers, predicates. -/

namespace Sys2Proof

/-- A byte of any store. -/
abbrev Byte := BitVec 8

/-- A 64-bit scalar register, system register or host register word. -/
abbrev W64 := BitVec 64

/-- One slot of a bundle (R60). -/
abbrev SlotWord := BitVec 32

/-- A bundle (R60). -/
abbrev BundleWord := BitVec 128

/-- A vector register: 512 bytes (R14). -/
abbrev VReg := BitVec 4096

/-- A predicate: a mask of 1,024 lanes (R14). -/
abbrev PReg := BitVec 1024

end Sys2Proof
end

