-- ==== Sys2Proof/Syntax.lean ====
section
/-! DEFINITION. The syntax of the VZ9: the codes shared by the slots (R66 to R70, R79), the lent fields (R66), the
messages that come from outside the package, and Instr, one constructor per row of spec/opcode_table.json. -/

namespace Sys2Proof

/-- Element types, in the order of their TY codes (R69). -/
inductive Ty where
  | f64 | f32 | bf16 | f16 | e4m3 | e5m2 | i8 | i16 | i32 | i64 | n8 | n16 | n32 | n64
  deriving DecidableEq, Repr

/-- Block formats, in the order of their BK codes (R69). -/
inductive Bk where
  | bx3 | bx5 | bx8 | mxE4m3 | mxE5m2
  deriving DecidableEq, Repr

/-- Conditions of CMP, in code order; the suffix n compares unsigned (R70). -/
inductive Cc where
  | eq | ne | lt | ge | ltn | gen | le | gt | len | gtn
  deriving DecidableEq, Repr

/-- Conditions of VCMP, in code order (R70). -/
inductive VCc where
  | eq | ne | lt | le | gt | ge | un | or
  deriving DecidableEq, Repr

/-- Tests of BRP, in code order (R70). -/
inductive BrTest where
  | b0 | any | all | none
  deriving DecidableEq, Repr

/-- The RM field: 0 takes FMT.RM (R70). -/
inductive Rm where
  | fmt | rne | rtz | rdn | rup
  deriving DecidableEq, Repr

/-- Scalar sizes .n8, .n16, .n32, .n64 (R70). -/
inductive Sz where
  | b1 | b2 | b4 | b8
  deriving DecidableEq, Repr

/-- Atomic sizes AS (R70): 0 .i32 or .f32, 1 .i64 or .f64, 2 .n32, 3 .n64. -/
inductive As where
  | i32 | i64 | n32 | n64
  deriving DecidableEq, Repr

/-- Register group sizes (R66). -/
inductive Grp where
  | one | two | four
  deriving DecidableEq, Repr

/-- The two views of the SPAD (R159). -/
inductive View where
  | lin | swz
  deriving DecidableEq, Repr

/-- Scopes, in code order (R79, R254). -/
inductive Scope where
  | strand | core | cluster | package | fabric
  deriving DecidableEq, Repr

/-- Fence kinds, in code order (R79). -/
inductive FenceKind where
  | full | acq | rel
  deriving DecidableEq, Repr

/-- Operations of RED, in code order (R209). -/
inductive RedOp where
  | add | fadd | min | max | and | or | xor
  deriving DecidableEq, Repr

/-- Operations of RATM, in code order (R79). -/
inductive AtomOp where
  | add | fadd | min | max | and | or | xor | swp | cas
  deriving DecidableEq, Repr

/-- Selectors of KQRY, in code order (R244). -/
inductive KqSel where
  | page | major | line | gen | group
  deriving DecidableEq, Repr

/-- The bits a header lends to slot B (R66). -/
structure LentB where
  pm : BitVec 3
  g  : Grp
  hc : Bool
  deriving DecidableEq, Repr

/-- The bits a header lends to slot C (R66). -/
structure LentC where
  qi : BitVec 3
  qe : Bool
  deriving DecidableEq, Repr

/-- The three local stores of a strand (R12). -/
inductive Store where
  | spad | acc | sdm
  deriving DecidableEq, Repr

/-- Launch and group statuses, in code order (R346). -/
inductive Status where
  | ok | cancelled | cancelledAfterDispatch | aborted | preemptTimeout | integrity | gangTimeout
  | reset | reclaimed | badRecord | badImage | fault | noContract | unplaceable
  deriving DecidableEq, Repr

/-- One entry of a schedule table as a beacon carries it (R372). -/
structure SchedEntry where
  peer  : Nat
  pport : Nat
  valid : Bool
  deriving DecidableEq, Repr

/-- A flit on a die link, and whether it is sent `again` after a failed tag (R367). -/
structure LinkFlit where
  link  : Nat
  again : Bool
  deriving DecidableEq, Repr

/-- A command of another package: the package, and the command's number there (R391). -/
structure PeerCmd where
  peer : Nat
  cmd  : Nat
  deriving DecidableEq, Repr

/-- Where an SPDM request comes in: the function, and the session if it is on one (R398, R399). -/
structure SpdmAsker where
  fn      : Nat
  session : Option Nat
  deriving DecidableEq, Repr

/-- A received beacon (R372); `digestOk` says whether its digest TAG verified (R390). -/
structure BeaconMsg where
  package  : Nat
  port     : Nat
  round    : Nat
  index    : Nat
  sched    : List SchedEntry
  phaseNs  : Nat
  digestOk : Bool
  deriving DecidableEq, Repr

/-- A received flit (R370): its SEQ, its ACK, and whether its TAG verified. -/
structure FlitMsg where
  seq   : Nat
  ack   : Nat
  tagOk : Bool
  deriving DecidableEq, Repr

/-- A management message between packages: of a gang (R393), of a lease (R391, R392), or of a key agreement (R389): its step, the sending
partition and the one it is for (for a port pair the ports), the trust domain, the contents, the signature, and the STATUS with which the sender
has ended the agreement, if it has. -/
inductive PeerMsg where
  | gready (gang member : Nat)
  | gabort (gang member : Nat)
  | leaseRequest (cmd : Nat) (tdid : W64) (bytes : Nat)
  | leaseAnswer (cmd status leaseId fia : Nat)
  | levict (leaseId : Nat)
  | lack (leaseId : Nat)
  | agreement (step source part : Nat) (tdid : W64) (body signature : List Byte) (verdict : Option Nat)
  deriving DecidableEq, Repr

/-- The operation a remote request asks for (R378), the answer to one, or a management message. -/
inductive RemoteOp where
  | read (len : Nat)
  | write (bytes : List (Option Byte))
  | atomic (op : AtomOp) (sz : As) (x expected : W64)
  | xred (e5m2 : Bool) (tail : Option Nat) (blocks : List Byte)
  | flagWord (count : Nat)
  | groupFlag (fd0 : W64) (count : Nat)
  | answer (count : Nat) (access dropped poison failed : Bool) (data : List Byte)
  | mgmt (m : PeerMsg)
  deriving DecidableEq, Repr

/-- The flag post that the last message of a command carries for the target to make once it has performed all `total` of them (R218, R382): to a flag
word at a fabric intermediate address, or to a group flag by FD0. -/
inductive PeerPost where
  | word (total fia count : Nat)
  | group (total : Nat) (fd0 : W64) (count : Nat)
  deriving DecidableEq, Repr

/-- A remote request as the target receives it (R378, R380): the sending package and endpoint, its message count (R382), whether its tag
verified, its service class (R316), the trust domain under whose key it is sealed (R379), the fabric intermediate address and the operation; of a
message of a command that posts a flag here, the command's number, the message's place in it, and the post if it carries it (R382). -/
structure RemoteReq where
  src      : Nat
  endpoint : Nat
  count    : Nat
  tagOk    : Bool
  cls      : Nat
  tdid     : W64
  fia      : Nat
  op       : RemoteOp
  cmd      : Option Nat
  seq      : Nat
  post     : Option PeerPost
  deriving DecidableEq, Repr

/-- The target's completion of a message (R381, R382): the command or request concerned, whether its tag verifies, whether it was answered
ACCESS, whether the flag post was dropped (R218), whether the target met poison (R322) or found that the request's own tag fails (R316), and the data
returned. -/
structure RemoteAnswer where
  isCmd   : Bool
  target  : Nat
  tagOk   : Bool
  access  : Bool
  dropped : Bool
  poison  : Bool
  failed  : Bool
  data    : List Byte
  deriving DecidableEq, Repr

/-- The state record of a retraining attempt (R386): rate code, the two usable masks, the lane map. -/
structure TrainRec where
  rate  : Bool
  txUse : BitVec 16
  rxUse : BitVec 16
  lanes : BitVec 64
  deriving DecidableEq, Repr

/-- A key-agreement message (R389): the partition that sends it, the partition it addresses (for the agreement of a port pair, with TDID
0, the ports), the trust domain, its contents, its signature, the outcome of the check of the sender's signature, and
the STATUS with which the sender ends the agreement, if it does. -/
structure TdxMsg where
  source  : Nat
  part    : Nat
  tdid    : W64
  body    : List Byte
  sign    : List Byte
  checked : Bool
  verdict : Option Nat
  deriving DecidableEq, Repr

/-- The BARs (R394): a TDI's register window and its aperture, PF0's management window and its recovery staging buffer. -/
inductive Bar where
  | tdi | aperture | pf0 | staging
  deriving DecidableEq, Repr

/-- A host access to a BAR (R394): the bytes read or written, with the IDE stream and T bit it arrives on (R396). -/
structure HostAccess where
  bar    : Bar
  addr   : Nat
  len    : Nat
  write  : Option (List Byte)
  stream : Option Nat
  tbit   : Bool
  deriving DecidableEq, Repr

/-- A host request through Lantern that concerns a partition's frozen items or its stage 2 (R397): an entry of the table that a level of the
walk of a guest physical address reads, a word of the descriptor, a KeyID given to the partition or taken from it. -/
inductive Stage2Change where
  | add (level gpa : Nat) (entry : W64)
  | change (level gpa : Nat) (entry : W64)
  | descriptor (word : Nat) (v : W64)
  | keyid (keyid : Nat) (give : Bool)
  deriving DecidableEq, Repr

/-- The algorithms an SPDM requester offers (R398). -/
structure SpdmOffer where
  ecdsaP384 : Bool
  sha384    : Bool
  secp384r1 : Bool
  aesGcm    : Bool
  deriving DecidableEq, Repr

/-- The host windows (R394, R395, R400, R405): PF0's registers, its recovery staging buffer, a TDI's registers. -/
inductive HostWindow where
  | pf0
  | staging
  | tdi (part : Nat)
  deriving DecidableEq, Repr


/-- What the checks of a home slice find on a request: all is sound, the message's tag fails or its count is stale (R316), the memory's MAC,
counter block or tree node fails its check twice (R322), or the access is performed and the tag of its response fails (R316). -/
inductive SliceCheck where
  | sound | message | memory | response
  deriving DecidableEq, Repr

/-- The ONE syntax of the machine: one constructor per row of spec/opcode_table.json. The slot instructions and header actions of a
bundle come first, then the events, whose arguments name the unit concerned and carry what comes from outside the package. Instructions
without an argument and events that no unit of the package raises of itself stand last, since Lean's runtime builds no constructor with
arguments beyond the 244th. -/
inductive Instr where
  /-- ADD (R95). Writes sa + sb to sd, wrapping modulo 2^64, visible one bundle later. -/
  | add (sd sa sb : BitVec 6)
  /-- SUB (R95). Writes sa − sb to sd, wrapping modulo 2^64. -/
  | sub (sd sa sb : BitVec 6)
  /-- MUL (R95). Writes the low 64 bits of sa × sb to sd with a latency of 3. -/
  | mul (sd sa sb : BitVec 6)
  /-- MULHI (R95). Writes the high 64 bits of the signed 128-bit product to sd. -/
  | mulhi (sd sa sb : BitVec 6)
  /-- MULHN (R95). Writes the high 64 bits of the unsigned 128-bit product to sd. -/
  | mulhn (sd sa sb : BitVec 6)
  /-- DIV (R96). Writes the signed quotient, with the defined division-by-zero and overflow results, and occupies the shared divider. -/
  | div (sd sa sb : BitVec 6)
  /-- DIVN (R96). Writes the unsigned quotient, all ones for a zero divisor, and occupies the shared divider. -/
  | divn (sd sa sb : BitVec 6)
  /-- REM (R96). Writes the signed remainder by the division pseudocode and occupies the shared divider. -/
  | rem (sd sa sb : BitVec 6)
  /-- REMN (R96). Writes the unsigned remainder by the division pseudocode and occupies the shared divider. -/
  | remn (sd sa sb : BitVec 6)
  /-- AND (R95). Writes the bitwise AND of sa and sb to sd. -/
  | and (sd sa sb : BitVec 6)
  /-- OR (R95). Writes the bitwise OR of sa and sb to sd. -/
  | or (sd sa sb : BitVec 6)
  /-- XOR (R95). Writes the bitwise XOR of sa and sb to sd. -/
  | xor (sd sa sb : BitVec 6)
  /-- ANDN (R95). Writes sa AND NOT sb to sd. -/
  | andn (sd sa sb : BitVec 6)
  /-- SHL (R95). Shifts sa left by sb[5:0] with zeros in. -/
  | shl (sd sa sb : BitVec 6)
  /-- SHR (R95). Shifts sa right by sb[5:0] with zeros in. -/
  | shr (sd sa sb : BitVec 6)
  /-- SAR (R95). Shifts sa right by sb[5:0] with copies of bit 63 in. -/
  | sar (sd sa sb : BitVec 6)
  /-- ROTL (R95). Rotates sa left by sb[5:0]. -/
  | rotl (sd sa sb : BitVec 6)
  /-- MIN (R95). Writes the signed minimum of sa and sb. -/
  | min (sd sa sb : BitVec 6)
  /-- MINN (R95). Writes the unsigned minimum of sa and sb. -/
  | minn (sd sa sb : BitVec 6)
  /-- MAX (R95). Writes the signed maximum of sa and sb. -/
  | max (sd sa sb : BitVec 6)
  /-- MAXN (R95). Writes the unsigned maximum of sa and sb. -/
  | maxn (sd sa sb : BitVec 6)
  /-- CLZ (R95). Writes the count of leading zero bits of sa, 64 for zero. -/
  | clz (sd sa : BitVec 6)
  /-- CTZ (R95). Writes the count of trailing zero bits of sa, 64 for zero. -/
  | ctz (sd sa : BitVec 6)
  /-- POPC (R95). Writes the count of one bits of sa. -/
  | popc (sd sa : BitVec 6)
  /-- SEL (R100). Writes sa or sb to sd according to bit 0 of the named predicate. -/
  | sel (sd : BitVec 6) (pn : BitVec 4) (sa sb : BitVec 6)
  /-- CMP (R99). Compares two scalars under the condition code and writes all ones or all zeros to a predicate. -/
  | cmp (cc : Cc) (pd : BitVec 4) (sa sb : BitVec 6)
  /-- ADDI (R97). Adds a sign-extended 13-bit immediate to sa. -/
  | addi (sd sa : BitVec 6) (imm : BitVec 13)
  /-- ANDI (R97). ANDs sa with a sign-extended immediate. -/
  | andi (sd sa : BitVec 6) (imm : BitVec 13)
  /-- ORI (R97). ORs sa with a sign-extended immediate. -/
  | ori (sd sa : BitVec 6) (imm : BitVec 13)
  /-- XORI (R97). XORs sa with a sign-extended immediate. -/
  | xori (sd sa : BitVec 6) (imm : BitVec 13)
  /-- SHLI (R97). Shifts sa left by an immediate count. -/
  | shli (sd sa : BitVec 6) (n : BitVec 6)
  /-- SHRI (R97). Shifts sa right logically by an immediate count. -/
  | shri (sd sa : BitVec 6) (n : BitVec 6)
  /-- SARI (R97). Shifts sa right arithmetically by an immediate count. -/
  | sari (sd sa : BitVec 6) (n : BitVec 6)
  /-- SEXT (R97). Sign-extends the low w bits of sa to 64 bits. -/
  | sext (sd sa : BitVec 6) (w1 : BitVec 6)
  /-- ZEXT (R97). Zero-extends the low w bits of sa to 64 bits. -/
  | zext (sd sa : BitVec 6) (w1 : BitVec 6)
  /-- MOVI (R98). Writes a sign-extended 19-bit immediate to sd. -/
  | movi (sd : BitVec 6) (imm : BitVec 19)
  /-- MOVHI (R98). Replaces one 16-bit field of sd with an immediate. -/
  | movhi (sd : BitVec 6) (hw : BitVec 2) (imm : BitVec 16)
  /-- LDS (R102). Loads 1 to 8 bytes from the SDM window into sd, zero-extended, or takes BOUNDS. -/
  | lds (sz : Sz) (sd sa : BitVec 6) (off : BitVec 11)
  /-- STS (R102). Stores the low 1 to 8 bytes of sd to the SDM window, or takes BOUNDS. -/
  | sts (sz : Sz) (sd sa : BitVec 6) (off : BitVec 11)
  /-- PAND (R101). Writes the AND of two predicates. -/
  | pand (pd pa pb : BitVec 4)
  /-- POR (R101). Writes the OR of two predicates. -/
  | por (pd pa pb : BitVec 4)
  /-- PXOR (R101). Writes the XOR of two predicates. -/
  | pxor (pd pa pb : BitVec 4)
  /-- PNOT (R101). Writes the complement of a predicate. -/
  | pnot (pd pa : BitVec 4)
  /-- PMOV (R101). Copies a predicate. -/
  | pmov (pd pa : BitVec 4)
  /-- BR (R103). Makes the relative target the strand's next bundle. -/
  | br (off : BitVec 19)
  /-- BRP (R103). Branches to the relative target when the predicate test holds. -/
  | brp (test : BrTest) (pn : BitVec 4) (off : BitVec 19)
  /-- CALL (R103). Writes the return index to the link register and branches to the target. -/
  | call (sd : BitVec 6) (off : BitVec 19)
  /-- RET (R104). Jumps to the bundle index in sa, or takes BOUNDS when it lies beyond the image. -/
  | ret (sa : BitVec 6)
  /-- JR (R104). Jumps to the bundle index in sa, or takes BOUNDS when it lies beyond the image. -/
  | jr (sa : BitVec 6)
  /-- LOOP (R106). Pushes a hardware loop entry, skips a zero-count body, or takes a LOOP trap. -/
  | loop (cnt6 sa : BitVec 6) (len : BitVec 13)
  /-- LOOPS (R106). Pushes a rotating loop entry and initialises the stage predicates. -/
  | loops (cnt6 sa : BitVec 6) (len : BitVec 13)
  /-- LBRK (R110). Pops the innermost loop entry and continues after its end, conditionally or always. -/
  | lbrk (sa : BitVec 6) (u : Bool)
  /-- SETFMT (R113). Writes FMT from an immediate, visible four bundles later, or takes a FORMAT trap. -/
  | setfmt (v : BitVec 13)
  /-- GETFMT (R113). Reads FMT as seen at its bundle into sd. -/
  | getfmt (sd : BitVec 6)
  /-- RDCYC (R114). Reads the core's CYC at the issue cycle into sd. -/
  | rdcyc (sd : BitVec 6)
  /-- WAITC (R115). Holds its bundle until the core's CYC reaches s(sa). -/
  | waitc (sa : BitVec 6)
  /-- WAITC_TARGET_REACHED (R115). The core's CYC reaches a held WAITC target and the bundle issues. -/
  | waitcTargetReached (strand : Nat)
  /-- RDWID (R116). Reads a field of the group's work identifier into sd. -/
  | rdwid (sd : BitVec 6) (i : BitVec 3)
  /-- RDSR (R117). Reads a system register into sd. -/
  | rdsr (sd : BitVec 6) (num : BitVec 12)
  /-- WRSR (R117). Writes a system register, with ring configuration checks for HCFG. -/
  | wrsr (num : BitVec 12) (sa : BitVec 6)
  /-- TRAP (R122). Raises the TRAP cause with the given code after the bundle's other slots perform. -/
  | trap (code : BitVec 13)
  /-- RADVC (R118). Advances a ring's consumer pointer by an immediate count, or takes a RING trap. -/
  | radvcImm (h : BitVec 4) (n : BitVec 12)
  /-- RADVC (R118). Advances a ring's consumer pointer by a register count, or takes a RING trap. -/
  | radvcReg (h : BitVec 4) (sa : BitVec 6)
  /-- RADVP (R118). Advances a ring's producer pointer by an immediate count, or takes a RING trap. -/
  | radvpImm (h : BitVec 4) (n : BitVec 12)
  /-- RADVP (R118). Advances a ring's producer pointer by a register count, or takes a RING trap. -/
  | radvpReg (h : BitVec 4) (sa : BitVec 6)
  /-- RSTAT (R119). Reads a ring's status word into sd. -/
  | rstat (sd : BitVec 6) (h : BitVec 4)
  /-- FLADD (R120). Posts a register count to a flag of the group. -/
  | fladd (f : BitVec 5) (sa : BitVec 6)
  /-- FLRD (R121). Reads a flag's count into sd without subtracting. -/
  | flrd (sd : BitVec 6) (f : BitVec 5)
  /-- sync.wait (R64). Header wait: holds the bundle until the flag reaches the count and subtracts it at issue. -/
  | syncWait (f : BitVec 5) (cnt : BitVec 3)
  /-- sync.post (R64). Header or short-header post: adds a count to a flag of the group. -/
  | syncPost (f : BitVec 5) (cnt : BitVec 3)
  /-- VADD (R136). Adds floating-point elements, rounded once. -/
  | vadd (l : LentB) (ty : Ty) (vd va vb : BitVec 7)
  /-- VSUB (R136). Subtracts floating-point elements, rounded once. -/
  | vsub (l : LentB) (ty : Ty) (vd va vb : BitVec 7)
  /-- VMUL (R136). Multiplies floating-point elements, rounded once. -/
  | vmul (l : LentB) (ty : Ty) (vd va vb : BitVec 7)
  /-- VFMA (R136). Fused multiply-add into vd, rounded once. -/
  | vfma (l : LentB) (ty : Ty) (vd va vb : BitVec 7)
  /-- VFMS (R136). Fused multiply minus vd, rounded once. -/
  | vfms (l : LentB) (ty : Ty) (vd va vb : BitVec 7)
  /-- VFNMA (R136). Fused negated multiply plus vd, rounded once. -/
  | vfnma (l : LentB) (ty : Ty) (vd va vb : BitVec 7)
  /-- VDIV (R136). Divides floating-point elements, correctly rounded. -/
  | vdiv (l : LentB) (ty : Ty) (vd va vb : BitVec 7)
  /-- VMIN (R137). Writes the floating-point minimum of each element pair. -/
  | vmin (l : LentB) (ty : Ty) (vd va vb : BitVec 7)
  /-- VMAX (R137). Writes the floating-point maximum of each element pair. -/
  | vmax (l : LentB) (ty : Ty) (vd va vb : BitVec 7)
  /-- VCPS (R137). Writes the magnitude of va with the sign of vb. -/
  | vcps (l : LentB) (ty : Ty) (vd va vb : BitVec 7)
  /-- VABS (R137). Clears the sign bit of each element. -/
  | vabs (l : LentB) (ty : Ty) (vd va : BitVec 7)
  /-- VNEG (R137). Inverts the sign bit of each element. -/
  | vneg (l : LentB) (ty : Ty) (vd va : BitVec 7)
  /-- VRND (R137). Rounds each element to an integral value in the selected mode. -/
  | vrnd (l : LentB) (rm : Rm) (ty : Ty) (vd va : BitVec 7)
  /-- VCLASS (R137). Writes a one-hot classification of each element. -/
  | vclass (l : LentB) (ty : Ty) (vd va : BitVec 7)
  /-- VRCP (R138). Writes the reciprocal of each element, rounded once to nearest even. -/
  | vrcp (l : LentB) (ty : Ty) (vd va : BitVec 7)
  /-- VRSQ (R138). Writes the reciprocal square root of each element. -/
  | vrsq (l : LentB) (ty : Ty) (vd va : BitVec 7)
  /-- VSQRT (R138). Writes the square root of each element, correctly rounded in the RM mode. -/
  | vsqrt (l : LentB) (rm : Rm) (ty : Ty) (vd va : BitVec 7)
  /-- VEXP2 (R138). Writes 2^x of each element. -/
  | vexp2 (l : LentB) (ty : Ty) (vd va : BitVec 7)
  /-- VLOG2 (R138). Writes log2 of each element. -/
  | vlog2 (l : LentB) (ty : Ty) (vd va : BitVec 7)
  /-- VSIN (R138). Writes the sine of each element. -/
  | vsin (l : LentB) (ty : Ty) (vd va : BitVec 7)
  /-- VCOS (R138). Writes the cosine of each element. -/
  | vcos (l : LentB) (ty : Ty) (vd va : BitVec 7)
  /-- VTANH (R138). Writes the hyperbolic tangent of each element. -/
  | vtanh (l : LentB) (ty : Ty) (vd va : BitVec 7)
  /-- VSIGM (R138). Writes the logistic sigmoid of each element. -/
  | vsigm (l : LentB) (ty : Ty) (vd va : BitVec 7)
  /-- VIADD (R140). Adds integer elements, wrapping. -/
  | viadd (l : LentB) (ty : Ty) (vd va vb : BitVec 7)
  /-- VISUB (R140). Subtracts integer elements, wrapping. -/
  | visub (l : LentB) (ty : Ty) (vd va vb : BitVec 7)
  /-- VIMUL (R140). Writes the low bits of integer element products. -/
  | vimul (l : LentB) (ty : Ty) (vd va vb : BitVec 7)
  /-- VIMULH (R140). Writes the high bits of integer element products. -/
  | vimulh (l : LentB) (ty : Ty) (vd va vb : BitVec 7)
  /-- VIMAD (R140). Integer multiply-add into vd, wrapping. -/
  | vimad (l : LentB) (ty : Ty) (vd va vb : BitVec 7)
  /-- VIMIN (R140). Writes the integer minimum of each element pair. -/
  | vimin (l : LentB) (ty : Ty) (vd va vb : BitVec 7)
  /-- VIMAX (R140). Writes the integer maximum of each element pair. -/
  | vimax (l : LentB) (ty : Ty) (vd va vb : BitVec 7)
  /-- VAND (R140). Bitwise AND of elements. -/
  | vand (l : LentB) (ty : Ty) (vd va vb : BitVec 7)
  /-- VOR (R140). Bitwise OR of elements. -/
  | vor (l : LentB) (ty : Ty) (vd va vb : BitVec 7)
  /-- VXOR (R140). Bitwise XOR of elements. -/
  | vxor (l : LentB) (ty : Ty) (vd va vb : BitVec 7)
  /-- VNOT (R140). Bitwise complement of elements. -/
  | vnot (l : LentB) (ty : Ty) (vd va : BitVec 7)
  /-- VSHL (R140). Shifts elements left by per-element counts. -/
  | vshl (l : LentB) (ty : Ty) (vd va vb : BitVec 7)
  /-- VSHR (R140). Shifts elements right logically by per-element counts. -/
  | vshr (l : LentB) (ty : Ty) (vd va vb : BitVec 7)
  /-- VSAR (R140). Shifts elements right arithmetically by per-element counts. -/
  | vsar (l : LentB) (ty : Ty) (vd va vb : BitVec 7)
  /-- VPOPC (R140). Counts the one bits of each element. -/
  | vpopc (l : LentB) (ty : Ty) (vd va : BitVec 7)
  /-- VCLZ (R140). Counts the leading zero bits of each element. -/
  | vclz (l : LentB) (ty : Ty) (vd va : BitVec 7)
  /-- VMULW (R141). Writes exact double-width products of integer elements. -/
  | vmulw (l : LentB) (ty : Ty) (vd va vb : BitVec 7)
  /-- VADC (R142). Adds 64-bit lanes with carry in and out through a predicate. -/
  | vadc (l : LentB) (vd va vb : BitVec 7) (p : BitVec 4)
  /-- VSBC (R142). Subtracts 64-bit lanes with borrow in and out through a predicate. -/
  | vsbc (l : LentB) (vd va vb : BitVec 7) (p : BitVec 4)
  /-- VMADC (R143). Forms a 128-bit product-sum per lane into low and high words. -/
  | vmadc (l : LentB) (vd va vb : BitVec 7) (p : BitVec 4)
  /-- VCMP (R144). Compares elements and writes one predicate bit per element. -/
  | vcmp (l : LentB) (cc : VCc) (ty : Ty) (pd : BitVec 4) (va vb : BitVec 7)
  /-- VSELP (R145). Selects 32-bit lanes of va or vb by a predicate. -/
  | vselp (l : LentB) (vd va vb : BitVec 7) (p : BitVec 4)
  /-- VCVT (R146). Converts elements between types in the selected rounding mode. -/
  | vcvt (l : LentB) (rm : Rm) (dst src : Ty) (vd va : BitVec 7)
  /-- VQNT (R149). Quantises a register group into BX or MXFP8 blocks. -/
  | vqnt (l : LentB) (bk : Bk) (src : Ty) (vd va : BitVec 7)
  /-- VDQNT (R150). Decodes BX or MXFP8 blocks into floating-point elements. -/
  | vdqnt (l : LentB) (dst : Ty) (bk : Bk) (vd va : BitVec 7)
  /-- VPACK (R147). Narrows two groups by truncation into one. -/
  | vpack (l : LentB) (ty : Ty) (vd va vb : BitVec 7)
  /-- VUNPK (R147). Widens integer elements by two with sign or zero extension. -/
  | vunpk (l : LentB) (ty : Ty) (vd va : BitVec 7)
  /-- VRADD (R151). Reduces enabled elements by the fixed halving tree into element 0. -/
  | vradd (l : LentB) (ty : Ty) (vd va : BitVec 7)
  /-- VRMAX (R151). Reduces enabled elements to their maximum in element 0. -/
  | vrmax (l : LentB) (ty : Ty) (vd va : BitVec 7)
  /-- VRMIN (R151). Reduces enabled elements to their minimum in element 0. -/
  | vrmin (l : LentB) (ty : Ty) (vd va : BitVec 7)
  /-- VSCAN (R152). Writes inclusive prefix sums in the fixed doubling order. -/
  | vscan (l : LentB) (ty : Ty) (vd va : BitVec 7)
  /-- VSCANA (R153). Evaluates the affine scan with the carry-in from element n − 1 of vd. -/
  | vscana (l : LentB) (ty : Ty) (vd va vb : BitVec 7)
  /-- VMOV (R154). Copies enabled elements. -/
  | vmov (l : LentB) (ty : Ty) (vd va : BitVec 7)
  /-- VBCST (R154). Broadcasts a scalar into every enabled element. -/
  | vbcst (l : LentB) (ty : Ty) (vd : BitVec 7) (s1 : BitVec 6)
  /-- VEXT (R155). Extracts one element into a scalar register. -/
  | vext (l : LentB) (ty : Ty) (sd : BitVec 6) (va : BitVec 7) (s2 : BitVec 6)
  /-- VINS (R155). Inserts a scalar into one element. -/
  | vins (l : LentB) (ty : Ty) (vd : BitVec 7) (s1 s2 : BitVec 6)
  /-- VSHFL (R156). Permutes elements by per-element indices. -/
  | vshfl (l : LentB) (ty : Ty) (vd va vb : BitVec 7)
  /-- VSLIDE (R157). Moves elements up or down by a scalar count, filling with zeros. -/
  | vslide (l : LentB) (ty : Ty) (dn : Bool) (vd va : BitVec 7) (sb : BitVec 6)
  /-- VZIP (R158). Interleaves two groups. -/
  | vzip (l : LentB) (ty : Ty) (vd va vb : BitVec 7)
  /-- VUNZIP (R158). De-interleaves two groups. -/
  | vunzip (l : LentB) (ty : Ty) (vd va vb : BitVec 7)
  /-- VLD (R160). Loads a register group from the SPAD window in the chosen view. -/
  | vld (l : LentB) (view : View) (v : BitVec 7) (sa : BitVec 6) (off : BitVec 11)
  /-- VST (R160). Stores a register group to the SPAD window in the chosen view. -/
  | vst (l : LentB) (view : View) (v : BitVec 7) (sa : BitVec 6) (off : BitVec 11)
  /-- VLDX (R161). Gathers elements from the SPAD by per-lane offsets, held for bank conflicts. -/
  | vldx (l : LentB) (view : View) (ty : Ty) (v : BitVec 7) (sa : BitVec 6) (vi : BitVec 7)
  /-- VSTX (R161). Scatters elements to the SPAD by per-lane offsets. -/
  | vstx (l : LentB) (view : View) (ty : Ty) (v : BitVec 7) (sa : BitVec 6) (vi : BitVec 7)
  /-- VLDR (R162). Loads a group from a ring at an offset past HEAD once FILL suffices. -/
  | vldr (l : LentB) (view : View) (v : BitVec 7) (h : BitVec 4) (off : BitVec 8) (need : BitVec 5)
  /-- VSTR (R162). Stores a group to a ring at an offset past TAIL once FREE suffices. -/
  | vstr (l : LentB) (view : View) (v : BitVec 7) (h : BitVec 4) (off : BitVec 8) (need : BitVec 5)
  /-- VMODADD (R170). Modular addition per lane. -/
  | vmodadd (l : LentB) (vd va vb : BitVec 7) (mi : BitVec 2)
  /-- VMODSUB (R170). Modular subtraction per lane. -/
  | vmodsub (l : LentB) (vd va vb : BitVec 7) (mi : BitVec 2)
  /-- VMODMUL (R170). Modular multiplication with Barrett reduction per lane. -/
  | vmodmul (l : LentB) (vd va vb : BitVec 7) (mi : BitVec 2)
  /-- VMODMAC (R170). Modular multiply-accumulate into vd per lane. -/
  | vmodmac (l : LentB) (vd va vb : BitVec 7) (mi : BitVec 2)
  /-- VMODRED (R170). Reduces any 64-bit value modulo the lane's modulus. -/
  | vmodred (l : LentB) (vd va : BitVec 7) (mi : BitVec 2)
  /-- VMODNEG (R170). Modular negation per lane. -/
  | vmodneg (l : LentB) (vd va : BitVec 7) (mi : BitVec 2)
  /-- VMSETM (R166). Writes modulus lanes after checking each for legality. -/
  | vmsetm (l : LentB) (mi : BitVec 2) (va : BitVec 7)
  /-- VMSETK (R166). Writes reduction-constant lanes without a check. -/
  | vmsetk (l : LentB) (mi : BitVec 2) (va : BitVec 7)
  /-- VBFLY (R172). Performs one forward Cooley–Tukey butterfly stage. -/
  | vbfly (l : LentB) (vd vb : BitVec 7) (mi : BitVec 2) (stage : BitVec 5)
  /-- VBFLYI (R172). Performs one inverse Gentleman–Sande butterfly stage. -/
  | vbflyi (l : LentB) (vd vb : BitVec 7) (mi : BitVec 2) (stage : BitVec 5)
  /-- VPERMB (R174). Applies the butterfly network as an exchange or bit-reversal permutation. -/
  | vpermb (l : LentB) (vd va : BitVec 7) (c : BitVec 5)
  /-- MCFG (R184). Sets the active PE rows and columns of the matrix array. -/
  | mcfg (l : LentC) (kr : BitVec 7) (nc : BitVec 8)
  /-- MSHIFT (R185). Copies a B latch row image into a row of the shadow latches. -/
  | mshift (l : LentC) (v n : BitVec 7)
  /-- MSWAP (R186). Exchanges the active and shadow latch sets. -/
  | mswap (l : LentC)
  /-- MSTG (R188). Appends an A row image to the operand latch queue. -/
  | mstg (l : LentC) (v : BitVec 7)
  /-- MROT (R189). Rotates the head entry of the operand latch by n PE rows. -/
  | mrot (l : LentC) (n : BitVec 7)
  /-- MGATH (R190). Gathers up to 8 A rows from the SPAD by index into the operand latch queue. -/
  | mgath (l : LentC) (view : View) (vi : BitVec 7) (sa : BitVec 6)
  /-- GATHER_COMPLETE (R191). The gather unit finishes reading an MGATH's segments, ending any freeze at its bundle n + 8. -/
  | gatherComplete (strand : Nat)
  /-- MPUSH (R193). Performs one beat of the matrix array into an ACC accumulator unit. -/
  | mpush (l : LentC) (v : BitVec 7) (row : BitVec 9) (sw k : Bool)
  /-- MACC (R194). Adds a register into an accumulator unit. -/
  | macc (l : LentC) (v : BitVec 7) (row : BitVec 9)
  /-- MLDACC (R194). Loads an accumulator unit bit for bit from a register. -/
  | mldacc (l : LentC) (v : BitVec 7) (row : BitVec 9)
  /-- MZERO (R194). Sets an accumulator unit to +0. -/
  | mzero (l : LentC) (row : BitVec 9)
  /-- MDRAIN (R195). Reads and converts an accumulator unit into a register, optionally zeroing it. -/
  | mdrain (l : LentC) (ty : Ty) (z : Bool) (vd : BitVec 7) (row : BitVec 9)
  /-- MDRAINQ (R196). Reads an FP32 accumulator row and quantises it into BX blocks. -/
  | mdrainq (l : LentC) (bk : Bk) (z : Bool) (vd : BitVec 7) (row : BitVec 9)
  /-- TLD (R205). Loads contiguous lines of global memory into a group, landing at bundle n + ARR. -/
  | tld (gd : BitVec 4) (g : Grp) (v : BitVec 7) (sa : BitVec 6) (arr : BitVec 10)
  /-- TLDS (R205). Loads strided lines of global memory into a group. -/
  | tlds (gd : BitVec 4) (g : Grp) (v : BitVec 7) (sa : BitVec 6) (arr : BitVec 10)
  /-- TLDM (R205). Loads a length-limited run of global memory, landing zeros beyond it. -/
  | tldm (gd : BitVec 4) (g : Grp) (v : BitVec 7) (sa : BitVec 6) (arr : BitVec 10)
  /-- SLDG (R205). Loads 1 to 8 bytes of global memory into a scalar register. -/
  | sldg (gd : BitVec 4) (sz : Sz) (sd sa : BitVec 6) (arr : BitVec 10)
  /-- TST (R205). Stores a group to contiguous global memory. -/
  | tst (gd : BitVec 4) (g : Grp) (v : BitVec 7) (sa : BitVec 6)
  /-- TSTS (R205). Stores a group's lines to strided global memory. -/
  | tsts (gd : BitVec 4) (g : Grp) (v : BitVec 7) (sa : BitVec 6)
  /-- SSTG (R205). Stores 1 to 8 bytes of a scalar to global memory. -/
  | sstg (gd : BitVec 4) (sz : Sz) (sd sa : BitVec 6)
  /-- PREF (R226). Asks the translation unit and cluster to prepare a range, with no architected effect. -/
  | pref (gd : BitVec 4) (sa : BitVec 6)
  /-- ATADD (R209). Atomic add to a local word, returning the old value when sd is non-zero. -/
  | atadd (gd : BitVec 4) (sz : As) (sd sa sb : BitVec 6) (aq : BitVec 5)
  /-- ATFADD (R209). Atomic floating-point add rounded to nearest even. -/
  | atfadd (gd : BitVec 4) (sz : As) (sd sa sb : BitVec 6) (aq : BitVec 5)
  /-- ATMIN (R209). Atomic integer minimum. -/
  | atmin (gd : BitVec 4) (sz : As) (sd sa sb : BitVec 6) (aq : BitVec 5)
  /-- ATMAX (R209). Atomic integer maximum. -/
  | atmax (gd : BitVec 4) (sz : As) (sd sa sb : BitVec 6) (aq : BitVec 5)
  /-- ATAND (R209). Atomic bitwise AND. -/
  | atand (gd : BitVec 4) (sz : As) (sd sa sb : BitVec 6) (aq : BitVec 5)
  /-- ATOR (R209). Atomic bitwise OR. -/
  | ator (gd : BitVec 4) (sz : As) (sd sa sb : BitVec 6) (aq : BitVec 5)
  /-- ATXOR (R209). Atomic bitwise XOR. -/
  | atxor (gd : BitVec 4) (sz : As) (sd sa sb : BitVec 6) (aq : BitVec 5)
  /-- ATSWP (R209). Atomic swap. -/
  | atswp (gd : BitVec 4) (sz : As) (sd sa sb : BitVec 6) (aq : BitVec 5)
  /-- ATCAS (R209). Atomic compare-and-swap against an expected value. -/
  | atcas (gd : BitVec 4) (sz : As) (sd sa sb : BitVec 6) (aq : BitVec 5)
  /-- RED (R209). Reduction to a local word that returns nothing. -/
  | red (gd : BitVec 4) (op : RedOp) (sz : As) (sa sb : BitVec 6)
  /-- FENCE (R212). Delays later covered requests in the memory queue until its kind's condition holds at its scope. -/
  | fence (gd : BitVec 4) (scope : Scope) (kind : FenceKind)
  /-- VJOIN (R213). Holds until every earlier SPAD access of the strand has completed in storage. -/
  | vjoin (gd : BitVec 4)
  /-- STRM (R214). Binds a fill or drain stream to a ring. -/
  | strm (gd : BitVec 4) (sd sa sb : BitVec 6) (h : BitVec 4) (drain : Bool)
  /-- STRMX (R216). Stops a ring's stream, holding until its in-flight slots complete. -/
  | strmx (gd : BitVec 4) (sd : BitVec 6) (h : BitVec 4)
  /-- CPY (R219). Sends a copy command to the strand's copy engine and returns its promise. -/
  | cpy (gd : BitVec 4) (sd sa sb : BitVec 6)
  /-- RST (R223). Stores a group to fabric memory through the engine and posts its flag. -/
  | rst (gd : BitVec 4) (g : Grp) (v : BitVec 7) (sa : BitVec 6)
  /-- RLD (R223). Loads a group from fabric memory at bundle n + ARR. -/
  | rld (gd : BitVec 4) (g : Grp) (v : BitVec 7) (sa : BitVec 6) (arr : BitVec 10)
  /-- RATM (R223). Performs a remote atomic through the engine and returns its promise. -/
  | ratm (gd : BitVec 4) (op : AtomOp) (sz : As) (sd sa sb : BitVec 6)
  /-- XRED (R224). Applies one MXFP8 reduction hop to destination blocks. -/
  | xred (gd : BitVec 4) (e5m2 : Bool) (sd sa sb : BitVec 6)
  /-- LEASE (R230). Asks a peer to lend memory to the partition. -/
  | lease (gd : BitVec 4) (sd sa sb : BitVec 6)
  /-- LRECL (R231). Reclaims a lease through the eviction handshake. -/
  | lrecl (gd : BitVec 4) (sd sa sb : BitVec 6)
  /-- MAPR (R227). Maps or releases a SPAD range onto global memory. -/
  | mapr (gd : BitVec 4) (sd sa : BitVec 6)
  /-- WBR (R229). Writes a mapped range's dirty pages back as an engine command. -/
  | wbr (gd : BitVec 4) (sd sa : BitVec 6)
  /-- INVR (R229). Marks a mapped range unfilled without write-back. -/
  | invr (gd : BitVec 4) (sa : BitVec 6)
  /-- KROT (R242). Steps a KeyID's generation and rewrites a page range under it. -/
  | krot (gd : BitVec 4) (sd sa sb : BitVec 6)
  /-- KQRY (R244). Returns a key, counter, generation or group report in sd. -/
  | kqry (gd : BitVec 4) (sel : KqSel) (sd sa : BitVec 6)
  /-- SEAL (R247). Seals memory into an authenticated checkpoint. -/
  | seal (gd : BitVec 4) (sd sa sb : BitVec 6)
  /-- UNSEAL (R248). Checks and decrypts a checkpoint into a destination. -/
  | unseal (gd : BitVec 4) (sd sa sb : BitVec 6)
  /-- SCRUB (R250). Writes zeros over a local or global range and releases it. -/
  | scrub (gd : BitVec 4) (sd sa : BitVec 6)
  /-- MEAS (R251). Extends the group measurement with the digest of a data range. -/
  | meas (gd : BitVec 4) (sd sa : BitVec 6)
  /-- LOAD_DATA_ARRIVAL (R206). A load's data arrive in its landing entry, ending any freeze at its arrival bundle. -/
  | loadDataArrival (req : Nat)
  /-- FLAG_POST_ARRIVAL (R218). A post reaches a flag file, or a saved group's record, and is applied before waits are tested. -/
  | flagPostArrival (post : Nat)
  /-- MEMORY_QUEUE_DEPART (R263). A request delayed in the strand's memory queue departs once its fence or SO condition holds. -/
  | memoryQueueDepart (req : Nat)
  /-- GATEWAY_REQUEST (R315). The cluster gateway accepts a global request, binds cached loads, merges atomics and forwards it sealed. -/
  | gatewayRequest (reqs : List Nat)
  /-- PAGE_REQUEST_ENQUEUE (R293). A fault takes a reserved or shared page-request queue entry once one is free. -/
  | pageRequestEnqueue (fault : Nat)
  /-- PAGE_REQUEST_RECORD_WRITE (R294). A stage-1 entry's record is written to the page-request ring once it has room. -/
  | pageRequestRecordWrite (tag : Nat)
  /-- LANTERN_STAGE2_ANSWER (R440). Lantern walks stage 2 again and answers a stage-2 request resolved or INVALID. -/
  | lanternStage2Answer (tag : Nat)
  /-- SIDE_LOG_REPLAY (R292). A side-log entry replays as a request once every page it touches is mapped. -/
  | sideLogReplay (req : Nat)
  /-- HOME_SLICE_REQUEST (R319). A home slice authenticates, verifies counters and performs a request on plaintext. -/
  | homeSliceRequest (reqs : List Nat) (piece : Nat) (check : SliceCheck)
  /-- PAGE_REENCRYPTION (R324). A page is rewritten line by line under a new major counter and generation. -/
  | pageReencryption (page : Nat)
  /-- ENGINE_COMMAND_ACCEPT (R220). A copy engine or Snuffer port accepts a command and fixes its promise. -/
  | engineCommandAccept (cmd : Nat)
  /-- ENGINE_COMMAND_COMPLETE (R220). An engine command's bytes become visible, its record is written and its flag is posted. -/
  | engineCommandComplete (cmd : Nat)
  /-- STREAM_SLOT_START (R215). The transfer unit starts a stream slot, moving it into INFL and advancing its pointer. -/
  | streamSlotStart (strand ring : Nat)
  /-- STREAM_SLOT_COMPLETE (R215). A stream slot completes and moves to FILL or FREE, unbinding after the last. -/
  | streamSlotComplete (strand ring : Nat)
  /-- MAPR_FILL_COMPLETE (R228). A MAPR page fill completes and releases the held bundle. -/
  | maprFillComplete (strand page : Nat)
  /-- CHUNK_FILL_COMPLETE (R312). An unfilled saved chunk is decrypted, authenticated and placed, releasing the held access. -/
  | chunkFillComplete (strand : Nat) (store : Store) (chunk : Nat) (intact : Bool)
  /-- STRAND_RESTORE (R305). Lamplighter writes a saved record back and the strand re-enters RUN. -/
  | strandRestore (gtag cluster : Nat)
  /-- STRAND_RELEASE (R38). A DONEWAIT strand is released once its outstanding work ends, and Snuffer zeroes its state. -/
  | strandRelease (strand : Nat)
  /-- LAUNCH_COMPLETE (R346). When all groups have ended and their writes are visible, the completion record and DONEFLAG are written. -/
  | launchComplete (part lq seq : Nat)
  /-- LAUNCH_RECORD_READ (R339). Lamplighter reads the next launch record and image descriptor and advances HEAD. -/
  | launchRecordRead (part lq : Nat)
  /-- LAUNCH_WAIT_POLL (R345). Lamplighter re-reads a launch's WAITADDR word at least every 1,250 cycles. -/
  | launchWaitPoll (part lq seq : Nat)
  /-- GROUP_DISPATCH (R348). A die Lamplighter commits a group to strand slots, claiming chunks and initialising state. -/
  | groupDispatch (part lq seq : Nat)
  /-- LAUNCH_STARVATION_TIMEOUT (R348). A launch passed over for 125,000 cycles reserves its cluster against equal or lower classes. -/
  | launchStarvationTimeout (part lq seq : Nat)
  /-- CLUSTER_LEND (R336). An idle margin cluster is saved, scrubbed and lent to another partition. -/
  | clusterLend (cluster borrower : Nat)
  /-- BORROW_IDLE_TIMEOUT (R336). A borrowed cluster unused for 100 µs returns to its owner by reclaim. -/
  | borrowIdleTimeout (cluster : Nat)
  /-- CLUSTER_RECLAIM (R337). Lamplighter reclaims a lent cluster in four bounded phases. -/
  | clusterReclaim (cluster : Nat)
  /-- RECLAIM_PHASE1_TIMEOUT (R337). At cycle 12,000 of a reclaim, strands still on-core end with RECLAIMED. -/
  | reclaimPhase1Timeout (cluster : Nat)
  /-- CONTRACT_ADMIT (R355). GO runs the admission test and sets the contract admitted or refused. -/
  | contractAdmit (part ctr : Nat)
  /-- JOB_RELEASE (R356). At a contract release, reads the next record and schedules the job by earliest deadline. -/
  | jobRelease (part ctr : Nat)
  /-- CONTRACT_OVERRUN (R358). A job that uses its budget is pre-empted and a record is written. -/
  | contractOverrun (part ctr : Nat)
  /-- DEADLINE_MISS (R358). A job not released by its deadline adds a DEADLINE_MISS record. -/
  | deadlineMiss (part ctr : Nat)
  /-- GANG_READY (R359). When a member has dispatched all its gang groups, it starts its timer and sends GREADY. -/
  | gangReady (gang : Nat)
  /-- GANG_TIMEOUT (R360). A gang timer expires before completion, ending the groups and sending GABORT. -/
  | gangTimeout (gang : Nat)
  /-- EVENT_RING_OVERFLOW (R361). When room returns, an OVERFLOW record with the count of lost records is written. -/
  | eventRingOverflow (part : Nat)
  /-- S1_INVALIDATION_COMPLETE (R332). An invalidation finishes and BUSY returns to 0. -/
  | s1InvalidationComplete (part : Nat)
  /-- DIE_ISOLATION_TIMEOUT (R368). A die with no link up for 1 ms causes a device reset. -/
  | dieIsolationTimeout (die : Nat)
  /-- MATCHING_BOUNDARY (R372). The rotor steps to the next 4 µs matching, returning unacknowledged flits and rerouting held messages. -/
  | matchingBoundary (port : Nat)
  /-- BEACON_LOSS_TIMEOUT (R373). A port without beacons for 32 matchings unlocks and raises BEACON_LOST. -/
  | beaconLossTimeout (port : Nat)
  /-- MESSAGE_ROUTE (R375). An engine takes up a message, chooses a direct or relay route and reserves slots. -/
  | messageRoute (msg : Nat)
  /-- TDX_ACCEPT_EXPIRY (R388). An armed acceptance lapses after 1 ms. -/
  | tdxAcceptExpiry (part : Nat)
  /-- TDX_AGREEMENT_TIMEOUT (R388). An agreement not ended within 1 ms ends with TIMEOUT. -/
  | tdxAgreementTimeout (part : Nat)
  /-- LEASE_ANSWER_TIMEOUT (R391). No answer within 256 µs gives STATUS 3. -/
  | leaseAnswerTimeout (cmd : Nat)
  /-- LACK_TIMEOUT (R392). No LACK within 250,000 cycles revokes the mapping with STATUS 4. -/
  | lackTimeout (leaseId : Nat)
  /-- REGION (R112). Opens a region, closing any open one, and takes the region snapshot. -/
  | region
  /-- ENDREG (R112). Releases the region buffer's lines to memory in first-write order and closes the region. -/
  | endreg
  /-- ERET (R123). Waits for handler landings, leaves handler mode and reissues the unperformed slots at EPC. -/
  | eret
  /-- DONE (R124). Ends the strand's issue and enters DONEWAIT. -/
  | done
  /-- YIELD (R125). Marks a drain point and asks Lamplighter whether an equal or higher priority group is ready, saving the strand if so. -/
  | yield
  /-- dp (R302). Header or short-header DP bit: marks the bundle a drain point when the drain-point conditions hold. -/
  | drainPoint
  /-- mh.yield (R65). Header merge hint: the bundle yields to the other strand on a collision. -/
  | mergeYield
  /-- DIVIDER_BUSY_EXPIRY (R87). The divider's 20 busy cycles end, releasing a held division. -/
  | dividerBusyExpiry (core : Nat)
  /-- PRESP_WRITE (R297). The guest answers a stage-1 page request as resolved or invalid. -/
  | prespWrite (part : Nat) (v : W64)
  /-- PROMISE_EXPIRY (R221). A command not complete when CYC passes P + 256 makes PROMISE pending. -/
  | promiseExpiry (cmd : Nat)
  /-- TRAP_ENTRY (R284). After any slot D acceptance, sets EPC, TCAUSE and TVAL and enters the handler at TVEC. -/
  | trapEntry (strand : Nat)
  /-- PENDING_TRAP_TAKE (R290). A pending PROMISE or ADDRESS trap is taken before the next kernel bundle issues. -/
  | pendingTrapTake (strand : Nat)
  /-- CTXCMD_RESUME (R362). Resumes a strand waiting after a trap not taken. -/
  | ctxcmdResume (part : Nat) (v : W64)
  /-- CTXCMD_ABORT (R362). Aborts the group of a strand waiting after a trap not taken. -/
  | ctxcmdAbort (part : Nat) (v : W64)
  /-- PREEMPT_REQUEST (R303). Lamplighter puts a strand into DRAINING and starts its drain bound. -/
  | preemptRequest (strand : Nat)
  /-- STRAND_SAVE (R303). A strand in DRAINING reaching a drain point has its record written and goes off-core. -/
  | strandSave (strand : Nat)
  /-- DRAIN_BOUND_EXPIRY (R304). The drain bound expires, causing a region restart or a context reset with PREEMPT_TIMEOUT. -/
  | drainBoundExpiry (strand : Nat)
  /-- LQCFG_WRITE (R338). Enables, disables or refuses configuration of a launch queue. -/
  | lqcfgWrite (part lq : Nat) (v : W64)
  /-- LQNOTIFY_WRITE (R338). Advances a launch queue's TAIL or raises LAUNCH_ERROR. -/
  | lqnotifyWrite (part lq : Nat) (v : W64)
  /-- LCANCEL_WRITE (R350). Cancels a launch, discarding undispatched groups and optionally aborting dispatched ones. -/
  | lcancelWrite (part : Nat) (v : W64)
  /-- CONTRACT_REMOVE (R353). Removes a contract after its current job ends. -/
  | contractRemove (part ctr : Nat)
  /-- GREADY (R393). A member receives GREADY and becomes complete when it holds all of them. -/
  | gready (gang member : Nat)
  /-- GABORT (R360). A member receiving GABORT ends its gang groups with GANG_TIMEOUT. -/
  | gabort (gang member : Nat)
  /-- PRQCONS_WRITE (R295). Updates the page-request consumer index, ignoring out-of-range values. -/
  | prqconsWrite (part : Nat) (v : W64)
  /-- EVCONS_WRITE (R295). Updates the event ring consumer index, ignoring out-of-range values. -/
  | evconsWrite (part : Nat) (v : W64)
  /-- FEVCONS_WRITE (R387). Updates the fabric event ring consumer index under the ring index rules. -/
  | fevconsWrite (v : W64)
  /-- S1ROOT_WRITE (R332). Sets the stage-1 root and invalidates every stage-1 result of the partition. -/
  | s1rootWrite (part : Nat) (v : W64)
  /-- S1INV_ALL (R332). Starts invalidation of every stage-1 result of the partition. -/
  | s1invAll (part : Nat)
  /-- S1INV_PAGE (R332). Starts invalidation of the stage-1 results for one page. -/
  | s1invPage (part : Nat) (v : W64)
  /-- CONTEXT_RESET (R363). Ends a group: discards work, stops engines, zeroes its state and records the status. -/
  | contextReset (gtag : Nat) (status : Status)
  /-- QUEUE_RESET (R364). Rung 1: stops a launch queue, ends its launches and drops unread records. -/
  | queueReset (part lq : Nat)
  /-- ENGINE_RESET (R364). Rung 3: abandons a cluster's engine commands, ends their groups and resets the engines. -/
  | engineReset (cluster : Nat)
  /-- PARTITION_RESET (R365). Ends every group of a partition, scrubs its clusters and resets its TDI registers. -/
  | partitionReset (part : Nat)
  /-- DEVICE_RESET (R364). Rung 5: resets every partition and reboots Lantern from ROM. -/
  | deviceReset
  /-- VF_FUNCTION_LEVEL_RESET (R395). A function-level reset of a VF applies rung 4 to its partition. -/
  | vfFunctionLevelReset (vf : Nat)
  /-- PF0_FUNCTION_LEVEL_RESET (R395). A function-level reset of PF0 applies rung 5. -/
  | pf0FunctionLevelReset
  /-- RESET_RUNG_TIMEOUT (R364). A reset rung that has not completed in time escalates to the next rung. -/
  | resetRungTimeout (rung scope : Nat)
  /-- MEMCLS_WRITE (R326). Sets class budgets, raising a BRT below the fused floor to 200 ns. -/
  | memclsWrite (part : Nat) (v : W64)
  /-- MISSCNT_READ (R328). Reading a miss counter through the management window returns and clears it. -/
  | misscntRead (slice part cls : Nat)
  /-- DIELINK_TAG_FAIL (R367). A die-link flit with a failed tag is retried once; where the retried flit fails too, the link goes down and retrains. -/
  | dielinkTagFail (flit : LinkFlit)
  /-- DIELINK_RETRAIN (R367). A downed die link retrains and raises a DIELINK record. -/
  | dielinkRetrain (link : Nat)
  /-- BEACON (R373). A beacon flit updates lock, phase, round and schedule tables. -/
  | beacon (port : Nat) (b : BeaconMsg)
  /-- DATA_FLIT (R383). A received data flit is acknowledged cumulatively, or a gap or tag failure sends a nack. -/
  | dataFlit (port : Nat) (f : FlitMsg)
  /-- RELAY_DATA_FLIT (R376). An intermediate buffers a relay flit for its meeting with the target, or nacks it. -/
  | relayDataFlit (port : Nat) (f : FlitMsg) (target : Nat)
  /-- NACK (R383). A nack flit makes the transmitter replay from the named SEQ; `lost` holds the wavelengths it reports lost (R384). -/
  | nack (port seq : Nat) (lost : BitVec 16)
  /-- RESTRIPE (R384). A restripe flit sets the peer's wavelength mask from the given SEQ. -/
  | restripe (port : Nat) (mask : BitVec 16) (seq : Nat)
  /-- LASER_MODULE_FAIL (R384). The transmit monitor detects a failed laser module and the port restripes. -/
  | laserModuleFail (port module : Nat)
  /-- LOSS_OF_LIGHT_DECLARE (R384). A receiver declares loss of light after 64 ns below threshold and reports it. -/
  | lossOfLightDeclare (port : Nat) (mask : BitVec 16)
  /-- FABRIC_REQUEST_RECEIVE (R381). The target matches a remote request against FWIN, checks it and performs or answers ACCESS. -/
  | fabricRequestReceive (r : RemoteReq)
  /-- FABRIC_COMPLETION (R382). A target's completion reaches the sender, duplicates ignored. -/
  | fabricCompletion (a : RemoteAnswer)
  /-- FWIN_WRITE (R380). Writes a word of a fabric window entry, refused if the resulting enabled entry breaks the rules. -/
  | fwinWrite (entry word : Nat) (v : W64)
  /-- PORT_RETRAIN (R386). A RETRAIN write retrains the port and clears DIS. -/
  | portRetrain (port : Nat)
  /-- RETRAIN_ATTEMPT (R386). A retraining attempt exchanges state records, adopts a configuration and confirms it. -/
  | retrainAttempt (port entry : Nat) (mine peer : TrainRec) (confirmed : Bool)
  /-- TDX_INITIATE (R388). Starts a key agreement as initiator toward a peer partition. -/
  | tdxInitiate (part : Nat) (v : W64)
  /-- TDX_ACCEPT_ARM (R388). Arms an acceptance of a key agreement for 1 ms. -/
  | tdxAcceptArm (part : Nat) (v : W64)
  /-- KEY_AGREEMENT_STEP1 (R389). The accepter receives the initiator's TDID, nonce and XMSS key. -/
  | keyAgreementStep1 (peer : Nat) (m : TdxMsg)
  /-- KEY_AGREEMENT_STEP2 (R389). The initiator receives the encapsulation key and signature and checks them. -/
  | keyAgreementStep2 (peer : Nat) (m : TdxMsg)
  /-- KEY_AGREEMENT_STEP3 (R389). The accepter receives the ciphertext and wrapped root key and checks them. -/
  | keyAgreementStep3 (peer : Nat) (m : TdxMsg)
  /-- KEY_AGREEMENT_STEP4 (R389). The initiator receives the confirmation and the agreement ends. -/
  | keyAgreementStep4 (peer : Nat) (m : TdxMsg)
  /-- LEASE_REQUEST (R391). A lender's Lantern grants or refuses a lease request and installs an FWIN. -/
  | leaseRequest (asker : PeerCmd) (tdid : W64) (bytes : Nat)
  /-- LEASE_ANSWER (R230). The borrower receives the lease answer, maps the window, writes the status and posts the flag. -/
  | leaseAnswer (cmd : Nat) (status leaseId : Nat) (fia : Nat)
  /-- LEVICT (R392). The borrower receives LEVICT, demotes, invalidates its mapping and drains requests. -/
  | levict (peer leaseId : Nat)
  /-- LACK (R392). The lender receives LACK, disables the FWIN and completes the reclaim. -/
  | lack (leaseId : Nat)
  /-- HOST_APERTURE_ACCESS (R394). A host access to a VF BAR2 acts as a load or store of guest physical memory. -/
  | hostApertureAccess (part : Nat) (a : HostAccess)
  /-- GET_TDISP_VERSION (R397). Returns the TDISP version. -/
  | getTdispVersion (part : Nat)
  /-- GET_TDISP_CAPABILITIES (R397). Returns the TDISP capabilities. -/
  | getTdispCapabilities (part : Nat)
  /-- LOCK_INTERFACE_REQUEST (R397). Moves a TDI to CONFIG_LOCKED, freezing its descriptor and KeyIDs. -/
  | lockInterfaceRequest (part : Nat)
  /-- GET_DEVICE_INTERFACE_REPORT (R397). Returns the interface report with BARs, descriptor, features and KeyIDs. -/
  | getDeviceInterfaceReport (part : Nat)
  /-- GET_DEVICE_INTERFACE_STATE (R397). Returns the TDI's TDISP state. -/
  | getDeviceInterfaceState (part : Nat)
  /-- START_INTERFACE_REQUEST (R397). Moves a locked TDI to RUN. -/
  | startInterfaceRequest (part : Nat)
  /-- STOP_INTERFACE_REQUEST (R397). Returns a TDI to CONFIG_UNLOCKED, applying rung 4 where required. -/
  | stopInterfaceRequest (part : Nat)
  /-- STAGE2_CHANGE_REQUEST (R397). A host change through Lantern to a locked partition is applied or moves the TDI to ERROR. -/
  | stage2ChangeRequest (part : Nat) (c : Stage2Change)
  /-- GET_VERSION (R398). SPDM version negotiation. -/
  | getVersion (fn : Nat)
  /-- GET_CAPABILITIES (R398). SPDM capabilities exchange. -/
  | getCapabilities (fn : Nat)
  /-- NEGOTIATE_ALGORITHMS (R398). SPDM algorithm negotiation limited to P-384, secp384r1 and AES-256-GCM. -/
  | negotiateAlgorithms (fn : Nat) (offer : SpdmOffer)
  /-- GET_DIGESTS (R398). Returns certificate chain digests. -/
  | getDigests (fn : Nat)
  /-- GET_CERTIFICATE (R398). Returns the device identity certificate chain. -/
  | getCertificate (fn slot : Nat)
  /-- CHALLENGE (R398). Signs an SPDM challenge. -/
  | challenge (fn : Nat) (nonce : List Byte)
  /-- GET_MEASUREMENTS (R399). Returns measurement blocks taken at one Lamplighter instant. -/
  | getMeasurements (asker : SpdmAsker) (index : Nat)
  /-- KEY_EXCHANGE (R398). Starts an SPDM secure session. -/
  | keyExchange (fn : Nat) (share : List Byte)
  /-- FINISH (R398). Completes an SPDM secure session handshake. -/
  | finish (fn session : Nat) (valid : Bool)
  /-- KEY_UPDATE (R398). Updates SPDM session keys. -/
  | keyUpdate (fn session : Nat)
  /-- HEARTBEAT (R398). Keeps an SPDM session alive. -/
  | heartbeat (fn session : Nat)
  /-- END_SESSION (R398). Ends an SPDM session. -/
  | endSession (fn session : Nat)
  /-- IDE_KM (R396). Programs the keys of a selective IDE stream over a secure session. -/
  | ideKm (session stream part : Nat) (key : BitVec 256)
  /-- POWER_UP (R400). Lantern's ROM reads, verifies and starts the firmware image, or enters recovery. -/
  | powerUp
  /-- RECOVCTL_GO (R400). Verifies the staged image and writes and boots it, or returns to recovery. -/
  | recovctlGo (v : W64)
  /-- FEATCTL_GO (R403). Latches FEATACT from the device and driver vectors and reports the result. -/
  | featctlGo
  /-- PARTITION_CREATE (R404). Creates a partition from PDESC and enables its VF in CONFIG_UNLOCKED. -/
  | partitionCreate (part : Nat)
  /-- PARTITION_DESTROY (R404). Resets a partition, zeroes its KeyIDs' pages and disables its VF. -/
  | partitionDestroy (part : Nat)
  /-- RBREQ_GO (R405). Starts a readback of an item, in clear, ciphertext or denied. -/
  | rbreqGo (v : W64)
  /-- READBACK_COMPLETE (R405). A readback finishes in free port cycles and fills RBDATA, RBTAG and RBMAC. -/
  | readbackComplete
  /-- POWER_CLAMP (R406). Power or junction temperature over limit makes the clamp freeze cores in rotation. -/
  | powerClamp (cores : List Nat)
  /-- THERMAL_SHUTDOWN (R406). At 115 °C the module removes power from the dies. -/
  | thermalShutdown
  /-- REGISTER_WRITE (R10). A write to a register with no behaviour of its own stores its writable fields. -/
  | registerWrite (win : HostWindow) (off : Nat) (v : W64)
  /-- NOP (R61). A bundle whose slots are all NOP, with no header, issues, advances SBN by one and completes, which can make a loop end evaluation. -/
  | nop
  /-- POWER_REMOVAL (R401). Removing power from the module loses the key vault, the KeyID ownership table and the XMSS counter, and leaves HBM4E contents undecryptable. -/
  | powerRemoval
  /-- DIE_LINK_DOWN (R368). A die link goes down, so senders reroute y-first or through the hub, and the die-isolation timer starts when a die has no link up. -/
  | dieLinkDown (link : Nat)
  /-- TENANT_ROOT_KEY_PROVISION (R418). A tenant installs its root key under a trust domain in the package's key vault over its SPDM session to the TDI. -/
  | tenantRootKeyProvision (part : Nat) (tdid : W64) (key : BitVec 256)
  deriving DecidableEq, Repr

end Sys2Proof
end

