-- ==== Sys2Proof/Config.lean ====
section
/-! DEFINITION. What one VZ9 fixes and the manual does not (fuses, identity, keys), and the free values: opaque constants,
so that no proof can see what they are. -/

namespace Sys2Proof.Config

/-- The free choices of R1: every outcome the manual calls unspecified is picked by `choice` at the counter `State.free`.
Log entry 3. -/
opaque choice : Nat → Nat

/-- The result of an elementary function on an input whose rounding the model's widest enclosure does not decide, by the
function's number and the input bits (log entry 4). -/
opaque elementary : Nat → BitVec 32 → BitVec 32

/-- The package's own number on the fabric (R372). -/
opaque packageNumber : BitVec 12

/-- The lending pool that the host sets (R391), by means the manual does not give: the number of its first 4 KiB page and its size in
pages. Log entry 3. -/
opaque lendingPool : Nat × Nat

/-- The fixed transit allowance, in ns, of the path from a cluster to a home slice by the number of its die crossings (R326, R368), which the
manual does not give; unit 32 stands for Lamplighter, Snuffer and Lantern. Log entry 87. -/
opaque transit : Nat → Nat → Nat → Nat

/-- The 32-bit package serial (R246). -/
opaque packageSerial : BitVec 32

/-- The raw fuse behind FWINMAX (R380). -/
opaque fwinFuse : Nat

/-- FWINMAX: the fused count of FWIN entries, at most 256 (R380). -/
def fwinMax : Nat := min fwinFuse 256

/-- The rate-cap fuse (R380): true when ports may use 64 Gb/s. -/
opaque rateFull : Bool

/-- The power-limit fuse as measurement block 4 reports it (R399). -/
opaque powerFuse : BitVec 32

/-- What the sensors of PWRSTAT show in a cycle (R406): the power in W, and above it the hottest junction. Log entry 66. -/
opaque powerSense : Nat → BitVec 24

/-- The fused minimum security version before any image raises it (R400). -/
opaque fusedMinSvn : BitVec 32

/-- The image in the module flash at power-up (R400): none when there is no image. -/
opaque flashImage : Option (List Byte)

/-- Whether a boot's reading of the module flash succeeds (R400, ERR 4), by the counter of free choices. Log entry 65. -/
opaque flashReads : Nat → Bool

/-- Whether an image's XMSS signature verifies against the fused firmware key (R400). -/
opaque imageSigned : List Byte → Bool

/-- The security version an image carries (R400). -/
opaque imageSvn : List Byte → BitVec 32

/-- Whether the image, once it runs, raises the fused minimum to its own version (R400 lets it). -/
opaque imageRaises : List Byte → Bool

/-- The bytes of the mask ROM, whose digest is measurement block 1 (R399). -/
opaque romBytes : List Byte

/-- The data key of a KeyID at a generation (R320), derived from the tenant root key. -/
opaque dataKey : BitVec 12 → BitVec 16 → BitVec 256

/-- The MAC key of a KeyID at a generation (R320). -/
opaque macKey : BitVec 12 → BitVec 16 → BitVec 256

/-- The seal key derived from a tenant root key and its trust domain (R246, R389). -/
opaque sealKey : BitVec 256 → BitVec 64 → BitVec 256

/-- What a peer's completion takes to its arrival beyond the flit that carries it, by the peer and its port, in units of rotor time: the estimate of
R377 names no such time, and the example of R433 prints 9 ns more than the flit alone takes. Log entry 60. -/
opaque turnaround : Nat → Nat → Nat

/-- The key of a group, by its tag and the cycle of its dispatch (R32, R311). -/
opaque groupKey : Nat → Nat → BitVec 256

/-- The package that holds a member of a gang, by GANGID and GIDX: the launch record names no package (R359). Log entry 90. -/
opaque gangMember : Nat → Nat → Nat

/-- The partition of the lending pool, to which a lender assigns its lease KeyIDs (R391). Log entry 91. -/
opaque poolPartition : Nat

/-- The policy that refuses a borrower's lease with STATUS 2, by its package and trust domain: the manual gives it no register (R391). Log
entry 91. -/
opaque leaseForbidden : Nat → BitVec 64 → Bool

/-- The readback key that the vault derives for a partition from a tenant root key (R405); none where no partition owns the unit, or none of its
trust domains has been provisioned. Log entry 71. -/
opaque readbackKey : Option Nat → Option (BitVec 256) → BitVec 256

/-- The 64 bytes of a readback item (R405), by class, RBREQ and the counter of free choices: the manual gives no byte layout for them. Log
entry 3. -/
opaque readbackItem : Nat → Nat → Nat → BitVec 512

/-- The page that Lantern takes for a new stage-2 table, by draw number: the manual does not say where its tables lie. Log entry 3. -/
opaque tablePage : Nat → Nat

/-- The bytes of the XMSS identity public key of a package, by its number. -/
opaque identityByte : Nat → Nat → Byte

/-- The XMSS identity public key that the certificate of a package carries (R389, R398), of 68 bytes. -/
def certifiedKey (package : Nat) : List Byte := (List.range 68).map (identityByte package)

/-- This package's XMSS identity public key. -/
def identityKey : List Byte := certifiedKey packageNumber.toNat

/-- The bytes of the XMSS signature of a message under an index of the vault's counter. -/
opaque xmssByte : Nat → List Byte → Nat → Byte

/-- The XMSS signature of a message under the index of the vault's counter (R390), of 2,820 bytes (R389). -/
def xmssSign (i : Nat) (m : List Byte) : List Byte := (List.range 2820).map (xmssByte i m)

/-- What the certificate chain of slot 0 holds around the three things that its leaf carries (R398): part 0 is the chain up to a Bilham root and
the head of the leaf, parts 1 and 2 stand between them, part 3 closes the leaf. Log entry 68. -/
opaque certPart : Nat → List Byte

/-- The certificate chain of slot 0 (R398): its leaf carries the package serial, the package number and the package's XMSS identity public key. -/
def certChain : List Byte :=
  certPart 0 ++ ((List.range 4).map fun i => packageSerial.extractLsb' (24 - 8 * i) 8) ++ certPart 1 ++
    [(packageNumber.extractLsb' 8 4).setWidth 8, packageNumber.extractLsb' 0 8] ++ certPart 2 ++ identityKey ++ certPart 3

/-- The nonce the package's Lantern draws, by draw number (R389, R398). -/
opaque nonce : Nat → BitVec 256

/-- The bytes of an agreement's ML-KEM-1024 encapsulation key. -/
opaque kemPublicByte : Nat → Nat → Byte

/-- The ML-KEM-1024 encapsulation key of an agreement, by draw number, of 1,568 bytes (R389). -/
def kemPublic (n : Nat) : List Byte := (List.range 1568).map (kemPublicByte n)

/-- The bytes of the ciphertext of an encapsulation to a key. -/
opaque kemCipherByte : Nat → List Byte → Nat → Byte

/-- The bytes of the shared secret of an encapsulation to a key. -/
opaque kemSecretByte : Nat → List Byte → Nat → Byte

/-- The ML-KEM-1024 ciphertext, of 1,568 bytes, and shared secret, of 32, of an encapsulation to a key (R389). -/
def kemEncap (n : Nat) (key : List Byte) : List Byte × List Byte :=
  ((List.range 1568).map (kemCipherByte n key), (List.range 32).map (kemSecretByte n key))

/-- The bytes of the shared secret that the key of an agreement gives for a ciphertext. -/
opaque kemDecapByte : Nat → List Byte → Nat → Byte

/-- The ML-KEM-1024 decapsulation by the key of an agreement (R389): a shared secret of 32 bytes. -/
def kemDecap (n : Nat) (c : List Byte) : List Byte := (List.range 32).map (kemDecapByte n c)

/-- The signature of an SPDM response by the device identity key (R398), and its session key share. -/
opaque spdmSign : List Byte → List Byte

/-- The responder's key share of an SPDM KEY_EXCHANGE, by session number (R398). -/
opaque spdmShare : Nat → List Byte

end Sys2Proof.Config
end

