-- ==== Sys2Proof/WellFormed.lean ====
section
/-! DEFINITION. Which instructions are well formed: every range, type, group and alignment that R66 to R81 demand of one
instruction by itself. What depends on the strand (its windows, its image, its mode, the array it owns) is checked where the
bundle is presented. -/

namespace Sys2Proof

/-- Element width in bits (R127). -/
def Ty.width : Ty → Nat
  | .f64 | .i64 | .n64 => 64
  | .f32 | .i32 | .n32 => 32
  | .bf16 | .f16 | .i16 | .n16 => 16
  | .e4m3 | .e5m2 | .i8 | .n8 => 8

/-- The integer types INT (R135). -/
def Ty.isInt : Ty → Bool
  | .i8 | .i16 | .i32 | .i64 | .n8 | .n16 | .n32 | .n64 => true
  | .f64 | .f32 | .bf16 | .f16 | .e4m3 | .e5m2 => false

/-- The signed types, those written .i (R140). -/
def Ty.isSigned : Ty → Bool
  | .i8 | .i16 | .i32 | .i64 => true
  | .n8 | .n16 | .n32 | .n64 | .f64 | .f32 | .bf16 | .f16 | .e4m3 | .e5m2 => false

/-- The type set FP (R135). -/
def Ty.isFp : Ty → Bool
  | .f64 | .f32 | .bf16 | .f16 => true
  | .e4m3 | .e5m2 | .i8 | .i16 | .i32 | .i64 | .n8 | .n16 | .n32 | .n64 => false

/-- The type set FP3 (R135). -/
def Ty.isFp3 (t : Ty) : Bool := t.isFp && t != .f64

/-- The number of registers of a group (R66). -/
def Grp.size : Grp → Nat
  | .one => 1
  | .two => 2
  | .four => 4

/-- Bytes of a scalar size (R70). -/
def Sz.bytes : Sz → Nat
  | .b1 => 1
  | .b2 => 2
  | .b4 => 4
  | .b8 => 8

/-- Elements and bytes of one block of a format (R48, R51). -/
def Bk.shape : Bk → Nat × Nat
  | .bx3 => (16, 8)
  | .bx5 => (16, 12)
  | .bx8 => (16, 18)
  | .mxE4m3 | .mxE5m2 => (32, 33)

/-- Elements of a group of `g` registers of a type (R127). -/
def elems (t : Ty) (g : Nat) : Nat := g * (4096 / t.width)

/-- The block image of `n` elements in bytes (R148). -/
def blockBytes (k : Bk) (n : Nat) : Nat := n / k.shape.1 * k.shape.2

/-- D: the registers of a block group of `n` elements (R148). -/
def blockRegs (k : Bk) (n : Nat) : Nat :=
  if blockBytes k n ≤ 512 then 1 else if blockBytes k n ≤ 1024 then 2 else 4

/-- A vector register field that names a group of `g` registers (R68, R74). -/
def vreg (r : BitVec 7) (g : Nat) : Bool := r.toNat % g == 0 && r.toNat + g ≤ 96

/-- A vector source field, where 0x7F takes the operand latch (R73). -/
def vsrc (r : BitVec 7) (g : Nat) : Bool := r == 0x7F || vreg r g

/-- A run of `n` scalar registers stays below s63 (R78, R200). -/
def run (r : BitVec 6) (n : Nat) : Bool := r.toNat + n ≤ 64

/-- No hold of latch C: HC is for instructions with a third operand (R66). -/
def noHc (l : LentB) : Bool := !l.hc

/-- Format VR with groups of one size (R73, R74). -/
def wfVR (l : LentB) (d a b : BitVec 7) : Bool := vreg d l.g.size && vsrc a l.g.size && vsrc b l.g.size

/-- Format VU with groups of one size (R73, R74). -/
def wfVU (l : LentB) (d a : BitVec 7) : Bool := noHc l && vreg d l.g.size && vsrc a l.g.size

/-- Groups of one or two, which the modular instructions accept (R74, R170). -/
def wfMod (l : LentB) : Bool := l.g != .four

/-- The ratio of two element widths and the sizes of destination and source group (R128): none where the ratio is 8 or the
wider group would exceed four registers. -/
def wide (g : Nat) (dst src : Ty) : Option (Nat × Nat) :=
  let k := if src.width ≤ dst.width then dst.width / src.width else src.width / dst.width
  if k = 8 ∨ 4 < k * g then none
  else if src.width ≤ dst.width then some (k * g, g) else some (g, k * g)

/-- The codes of VPERMB that are legal for a group (R174). -/
def permOk (g : Nat) (c : Nat) : Bool :=
  (decide (c ≤ 6) && decide (2 ^ c < 64 * g)) || (decide (17 ≤ c) && decide (c ≤ 23) && decide (2 ^ (c - 16) ≤ 64 * g))

/-- The destination types of MDRAIN (R195). -/
def Ty.drains : Ty → Bool
  | .f64 | .f32 | .bf16 | .f16 | .e4m3 | .e5m2 | .i32 | .i16 | .i8 | .n8 => true
  | .i64 | .n16 | .n32 | .n64 => false

/-- The arrival of a load (R78). -/
def arrOk (arr : BitVec 10) : Bool := 16 ≤ arr.toNat

/-- The fields of an atomic (R78, R209): AQ is zero where nothing returns. -/
def wfDA (sd : BitVec 6) (aq : BitVec 5) : Bool := sd != 0 || aq == 0

/-- AS names a floating-point type for fadd (R209). -/
def fpAs : As → Bool
  | .i32 | .i64 => true
  | .n32 | .n64 => false

/-- Access of a system register (R31). -/
inductive SrAccess where
  | ro | rw | h | sf
  deriving DecidableEq, Repr

/-- The system registers and their access codes (R31); none where the number is unassigned. -/
def srAccess (n : Nat) : Option SrAccess :=
  if n = 0x001 then some .sf
  else if n = 0x008 ∨ n = 0x009 ∨ n = 0x00A then some .h
  else if n = 0x000 ∨ n = 0x002 ∨ n = 0x003 ∨ n = 0x004 ∨ (0x00B ≤ n ∧ n ≤ 0x00E) ∨ n = 0x010 then some .ro
  else if 0x030 ≤ n ∧ n ≤ 0x035 then some .ro
  else if 0x040 ≤ n ∧ n ≤ 0x04F then some .rw
  else if 0x050 ≤ n ∧ n ≤ 0x05F then some .ro
  else none

/-- A number WRSR accepts in some mode (R31, R117). -/
def srWritable (n : Nat) : Bool :=
  match srAccess n with
  | some .rw | some .h => true
  | _ => false

/-- The instruction accepts the group size G that its bundle lends it (R66, R74, R128, R130, R155, R161, R166, R170). -/
def Instr.takesGroup : Instr → Bool
  | .vmulw l _ _ _ _ => l.g != .four
  | .vmadc l _ _ _ _ => l.g != .four
  | .vunpk l _ _ _ => l.g != .four
  | .vcvt l _ t u _ _ => (wide l.g.size t u).isSome || (wide 1 t u).isNone
  | .vcmp l _ t _ _ _ => elems t l.g.size ≤ 1024
  | .vmodadd l _ _ _ _ => wfMod l
  | .vmodsub l _ _ _ _ => wfMod l
  | .vmodmul l _ _ _ _ => wfMod l
  | .vmodmac l _ _ _ _ => wfMod l
  | .vmodred l _ _ _ => wfMod l
  | .vmodneg l _ _ _ => wfMod l
  | .vbfly l _ _ _ _ => wfMod l
  | .vbflyi l _ _ _ _ => wfMod l
  | .vpermb l _ _ _ => wfMod l
  | .vmsetm l _ _ => l.g == .one
  | .vmsetk l _ _ => l.g == .one
  | .vbcst l _ _ _ => l.g == .one
  | .vext l _ _ _ _ => l.g == .one
  | .vins l _ _ _ _ => l.g == .one
  | .vldx l _ t _ _ _ => l.g == (if t.width = 64 then .two else .one)
  | .vstx l _ t _ _ _ => l.g == (if t.width = 64 then .two else .one)
  | _ => true

/-- Well-formedness of one instruction (R68 to R81). Header actions and events carry no constraint of their own. -/
def Instr.wf : Instr → Bool
  | .add _ _ _ => true
  | .sub _ _ _ => true
  | .mul _ _ _ => true
  | .mulhi _ _ _ => true
  | .mulhn _ _ _ => true
  | .div _ _ _ => true
  | .divn _ _ _ => true
  | .rem _ _ _ => true
  | .remn _ _ _ => true
  | .and _ _ _ => true
  | .or _ _ _ => true
  | .xor _ _ _ => true
  | .andn _ _ _ => true
  | .shl _ _ _ => true
  | .shr _ _ _ => true
  | .sar _ _ _ => true
  | .rotl _ _ _ => true
  | .min _ _ _ => true
  | .minn _ _ _ => true
  | .max _ _ _ => true
  | .maxn _ _ _ => true
  | .clz _ _ => true
  | .ctz _ _ => true
  | .popc _ _ => true
  | .sel _ _ _ _ => true
  | .cmp _ _ _ _ => true
  | .addi _ _ _ => true
  | .andi _ _ _ => true
  | .ori _ _ _ => true
  | .xori _ _ _ => true
  | .shli _ _ _ => true
  | .shri _ _ _ => true
  | .sari _ _ _ => true
  | .sext _ _ _ => true
  | .zext _ _ _ => true
  | .movi _ _ => true
  | .movhi _ _ _ => true
  | .lds _ _ _ _ => true
  | .sts _ _ _ _ => true
  | .pand _ _ _ => true
  | .por _ _ _ => true
  | .pxor _ _ _ => true
  | .pnot _ _ => true
  | .pmov _ _ => true
  | .br _ => true
  | .brp _ _ _ => true
  | .call _ _ => true
  | .ret _ => true
  | .jr _ => true
  | .loop c a n => n != 0 && (a == 0 || c == 0)
  | .loops c a n => n != 0 && (a == 0 || c == 0)
  | .lbrk a u => !u || a == 0
  | .region => true
  | .endreg => true
  | .setfmt _ => true
  | .getfmt _ => true
  | .rdcyc _ => true
  | .waitc _ => true
  | .rdwid _ n => n != 6
  | .rdsr _ n => (srAccess n.toNat).isSome
  | .wrsr n _ => srWritable n.toNat
  | .trap _ => true
  | .eret => true
  | .done => true
  | .yield => true
  | .radvcImm _ n => n != 0
  | .radvcReg _ a => a != 0
  | .radvpImm _ n => n != 0
  | .radvpReg _ a => a != 0
  | .rstat _ _ => true
  | .fladd _ _ => true
  | .flrd _ _ => true
  | .vadd l t d a b => t.isFp && noHc l && wfVR l d a b
  | .vsub l t d a b => t.isFp && noHc l && wfVR l d a b
  | .vmul l t d a b => t.isFp && noHc l && wfVR l d a b
  | .vfma l t d a b => t.isFp && wfVR l d a b
  | .vfms l t d a b => t.isFp && wfVR l d a b
  | .vfnma l t d a b => t.isFp && wfVR l d a b
  | .vmin l t d a b => t.isFp && noHc l && wfVR l d a b
  | .vmax l t d a b => t.isFp && noHc l && wfVR l d a b
  | .vcps l t d a b => t.isFp && noHc l && wfVR l d a b
  | .vdiv l t d a b => t.isFp && noHc l && wfVR l d a b
  | .viadd l t d a b => t.isInt && noHc l && wfVR l d a b
  | .visub l t d a b => t.isInt && noHc l && wfVR l d a b
  | .vimul l t d a b => t.isInt && noHc l && wfVR l d a b
  | .vimulh l t d a b => t.isInt && noHc l && wfVR l d a b
  | .vimad l t d a b => t.isInt && wfVR l d a b
  | .vimin l t d a b => t.isInt && noHc l && wfVR l d a b
  | .vimax l t d a b => t.isInt && noHc l && wfVR l d a b
  | .vand l t d a b => t.isInt && noHc l && wfVR l d a b
  | .vor l t d a b => t.isInt && noHc l && wfVR l d a b
  | .vxor l t d a b => t.isInt && noHc l && wfVR l d a b
  | .vshl l t d a b => t.isInt && noHc l && wfVR l d a b
  | .vshr l t d a b => t.isInt && noHc l && wfVR l d a b
  | .vsar l t d a b => t.isInt && noHc l && wfVR l d a b
  | .vmulw l t d a b => t.isInt && t.width ≤ 32 && noHc l && l.g != .four && vreg d (2 * l.g.size) && vsrc a l.g.size && vsrc b l.g.size
  | .vpack l t d a b => t.isInt && 16 ≤ t.width && noHc l && wfVR l d a b
  | .vscana l t d a b => t.isFp && wfVR l d a b
  | .vshfl l _ d a b => noHc l && wfVR l d a b
  | .vzip l _ d a b => noHc l && wfVR l d a b
  | .vunzip l _ d a b => noHc l && wfVR l d a b
  | .vabs l t d a => t.isFp && wfVU l d a
  | .vneg l t d a => t.isFp && wfVU l d a
  | .vclass l t d a => t.isFp && wfVU l d a
  | .vrcp l t d a => t.isFp3 && wfVU l d a
  | .vrsq l t d a => t.isFp3 && wfVU l d a
  | .vexp2 l t d a => t.isFp3 && wfVU l d a
  | .vlog2 l t d a => t.isFp3 && wfVU l d a
  | .vsin l t d a => t.isFp3 && wfVU l d a
  | .vcos l t d a => t.isFp3 && wfVU l d a
  | .vtanh l t d a => t.isFp3 && wfVU l d a
  | .vsigm l t d a => t.isFp3 && wfVU l d a
  | .vnot l t d a => t.isInt && wfVU l d a
  | .vpopc l t d a => t.isInt && wfVU l d a
  | .vclz l t d a => t.isInt && wfVU l d a
  | .vunpk l t d a => t.isInt && t.width ≤ 32 && noHc l && l.g != .four && vreg d (2 * l.g.size) && vsrc a l.g.size
  | .vradd l t d a => (t.isFp || t.isInt) && wfVU l d a
  | .vrmax l t d a => (t.isFp || t.isInt) && wfVU l d a
  | .vrmin l t d a => (t.isFp || t.isInt) && wfVU l d a
  | .vscan l t d a => (t.isFp || t.isInt) && wfVU l d a
  | .vmov l _ d a => wfVU l d a
  | .vrnd l _ t d a => t.isFp && wfVU l d a
  | .vsqrt l _ t d a => t.isFp && wfVU l d a
  | .vcvt l _ t u d a => t != u && noHc l && (match wide l.g.size t u with
      | some (x, y) => vreg d x && vsrc a y
      | none => false)
  | .vqnt l k t d a => t.isFp3 && noHc l && vreg d (blockRegs k (elems t l.g.size)) && vsrc a l.g.size
  | .vdqnt l t k d a => t.isFp3 && noHc l && vreg d l.g.size && vsrc a (blockRegs k (elems t l.g.size))
  | .vadc l d a b _ => noHc l && wfVR l d a b
  | .vsbc l d a b _ => noHc l && wfVR l d a b
  | .vmadc l d a b _ => l.g != .four && vreg d (2 * l.g.size) && vsrc a l.g.size && vsrc b l.g.size
  | .vselp l d a b _ => noHc l && wfVR l d a b
  | .vcmp l c t _ a b => (t.isFp || (t.isInt && c != .un && c != .or)) && elems t l.g.size ≤ 1024 && noHc l &&
      vsrc a l.g.size && vsrc b l.g.size
  | .vmodadd l d a b _ => wfMod l && noHc l && wfVR l d a b
  | .vmodsub l d a b _ => wfMod l && noHc l && wfVR l d a b
  | .vmodmul l d a b _ => wfMod l && noHc l && wfVR l d a b
  | .vmodmac l d a b _ => wfMod l && wfVR l d a b
  | .vmodred l d a _ => wfMod l && wfVU l d a
  | .vmodneg l d a _ => wfMod l && wfVU l d a
  | .vmsetm l _ a => l.g == .one && noHc l && vsrc a 1
  | .vmsetk l _ a => l.g == .one && noHc l && vsrc a 1
  | .vbfly l d b _ c => wfMod l && noHc l && vreg d l.g.size && vsrc b 1 && c.toNat ≤ 4 + l.g.size
  | .vbflyi l d b _ c => wfMod l && noHc l && vreg d l.g.size && vsrc b 1 && c.toNat ≤ 4 + l.g.size
  | .vpermb l d a c => wfMod l && wfVU l d a && permOk l.g.size c.toNat
  | .vbcst l _ d _ => l.g == .one && noHc l && vreg d 1
  | .vext l _ _ a _ => l.g == .one && noHc l && vreg a 1
  | .vins l _ d _ _ => l.g == .one && noHc l && vreg d 1
  | .vslide l _ _ d a _ => wfVU l d a
  | .vld l _ d _ _ => noHc l && vreg d l.g.size
  | .vst l _ d _ _ => noHc l && vreg d l.g.size
  | .vldx l _ t d _ b => noHc l && l.g == (if t.width = 64 then .two else .one) && vreg d l.g.size && vreg b 1
  | .vstx l _ t d _ b => noHc l && l.g == (if t.width = 64 then .two else .one) && vreg d l.g.size && vreg b 1
  | .vldr l _ d _ _ n => noHc l && vreg d l.g.size && n != 0
  | .vstr l _ d _ _ n => noHc l && vreg d l.g.size && n != 0
  | .mcfg _ a b => 1 ≤ a.toNat && a.toNat ≤ 96 && b.toNat ≤ 127
  | .mshift _ a b => vreg a 1 && b.toNat ≤ 95
  | .mpush _ a _ _ k => (a == 0x7F) || (vreg a 1 && !k)
  | .macc _ a _ => vreg a 1
  | .mdrain _ t _ d _ => t.drains && vreg d (if t = .f64 then 2 else 1)
  | .mdrainq _ k _ d _ => (k == .bx3 || k == .bx5 || k == .bx8) && vreg d 1
  | .mzero _ _ => true
  | .mswap _ => true
  | .mgath _ _ a _ => vreg a 1
  | .mldacc _ a _ => vreg a 1
  | .mstg _ a => vreg a 1
  | .mrot _ n => n.toNat ≤ 95
  | .tld _ g v _ n => vreg v g.size && arrOk n
  | .tlds _ g v a n => vreg v g.size && arrOk n && run a 2
  | .tldm _ g v a n => vreg v g.size && arrOk n && run a 2
  | .rld _ g v _ n => vreg v g.size && arrOk n
  | .tst _ g v _ => vreg v g.size
  | .tsts _ g v a => vreg v g.size && run a 2
  | .rst _ g v a => vreg v g.size && run a 3
  | .sldg _ _ _ _ n => arrOk n
  | .sstg _ _ _ _ => true
  | .pref _ a => run a 2
  | .atadd _ _ d _ _ n => wfDA d n
  | .atfadd _ z d _ _ n => wfDA d n && fpAs z
  | .atmin _ _ d _ _ n => wfDA d n
  | .atmax _ _ d _ _ n => wfDA d n
  | .atand _ _ d _ _ n => wfDA d n
  | .ator _ _ d _ _ n => wfDA d n
  | .atxor _ _ d _ _ n => wfDA d n
  | .atswp _ _ d _ _ n => wfDA d n
  | .atcas _ _ d _ b n => wfDA d n && run b 2
  | .red _ o z _ _ => o != .fadd || fpAs z
  | .fence _ _ _ => true
  | .vjoin _ => true
  | .strm _ _ a b _ _ => run a 5 && run b 4
  | .strmx _ _ _ => true
  | .cpy _ _ a b => run a 3 && run b 2
  | .lease _ _ a b => run a 4 && run b 2
  | .lrecl _ _ a b => run a 2 && run b 2
  | .krot _ _ a b => run a 4 && run b 2
  | .seal _ _ a b => run a 6 && run b 2
  | .unseal _ _ a b => run a 5 && run b 2
  | .ratm _ o z _ a b => run a 4 && run b 2 && (o != .fadd || fpAs z)
  | .xred _ _ _ a b => run a 3 && run b 2
  | .mapr _ _ a => run a 3
  | .wbr _ _ a => run a 2
  | .scrub _ _ a => run a 3
  | .meas _ _ a => run a 3
  | .invr _ a => run a 2
  | .kqry _ _ _ _ => true
  | .syncWait _ _ => true
  | .syncPost _ _ => true
  | .drainPoint => true
  | .mergeYield => true
  | .waitcTargetReached _ => true
  | .gatherComplete _ => true
  | .dividerBusyExpiry _ => true
  | .loadDataArrival _ => true
  | .flagPostArrival _ => true
  | .memoryQueueDepart _ => true
  | .gatewayRequest _ => true
  | .pageRequestEnqueue _ => true
  | .pageRequestRecordWrite _ => true
  | .prespWrite _ _ => true
  | .lanternStage2Answer _ => true
  | .sideLogReplay _ => true
  | .homeSliceRequest _ _ _ => true
  | .pageReencryption _ => true
  | .engineCommandAccept _ => true
  | .engineCommandComplete _ => true
  | .promiseExpiry _ => true
  | .streamSlotStart _ _ => true
  | .streamSlotComplete _ _ => true
  | .maprFillComplete _ _ => true
  | .chunkFillComplete _ _ _ _ => true
  | .trapEntry _ => true
  | .pendingTrapTake _ => true
  | .ctxcmdResume _ _ => true
  | .ctxcmdAbort _ _ => true
  | .preemptRequest _ => true
  | .strandSave _ => true
  | .drainBoundExpiry _ => true
  | .strandRestore _ _ => true
  | .strandRelease _ => true
  | .launchComplete _ _ _ => true
  | .lqcfgWrite _ _ _ => true
  | .lqnotifyWrite _ _ _ => true
  | .launchRecordRead _ _ => true
  | .launchWaitPoll _ _ _ => true
  | .groupDispatch _ _ _ => true
  | .launchStarvationTimeout _ _ _ => true
  | .lcancelWrite _ _ => true
  | .clusterLend _ _ => true
  | .borrowIdleTimeout _ => true
  | .clusterReclaim _ => true
  | .reclaimPhase1Timeout _ => true
  | .contractAdmit _ _ => true
  | .contractRemove _ _ => true
  | .jobRelease _ _ => true
  | .contractOverrun _ _ => true
  | .deadlineMiss _ _ => true
  | .gangReady _ => true
  | .gready _ _ => true
  | .gabort _ _ => true
  | .gangTimeout _ => true
  | .eventRingOverflow _ => true
  | .prqconsWrite _ _ => true
  | .evconsWrite _ _ => true
  | .fevconsWrite _ => true
  | .s1rootWrite _ _ => true
  | .s1invAll _ => true
  | .s1invPage _ _ => true
  | .s1InvalidationComplete _ => true
  | .contextReset _ _ => true
  | .queueReset _ _ => true
  | .engineReset _ => true
  | .partitionReset _ => true
  | .deviceReset => true
  | .resetRungTimeout _ _ => true
  | .vfFunctionLevelReset _ => true
  | .pf0FunctionLevelReset => true
  | .memclsWrite _ _ => true
  | .misscntRead _ _ _ => true
  | .dielinkTagFail _ => true
  | .dielinkRetrain _ => true
  | .dieIsolationTimeout _ => true
  | .matchingBoundary _ => true
  | .beacon _ _ => true
  | .beaconLossTimeout _ => true
  | .messageRoute _ => true
  | .dataFlit _ _ => true
  | .relayDataFlit _ _ _ => true
  | .nack _ _ _ => true
  | .restripe _ _ _ => true
  | .laserModuleFail _ _ => true
  | .lossOfLightDeclare _ _ => true
  | .fabricRequestReceive _ => true
  | .fabricCompletion _ => true
  | .fwinWrite _ _ _ => true
  | .portRetrain _ => true
  | .retrainAttempt _ _ _ _ _ => true
  | .tdxInitiate _ _ => true
  | .tdxAcceptArm _ _ => true
  | .tdxAcceptExpiry _ => true
  | .tdxAgreementTimeout _ => true
  | .keyAgreementStep1 _ _ => true
  | .keyAgreementStep2 _ _ => true
  | .keyAgreementStep3 _ _ => true
  | .keyAgreementStep4 _ _ => true
  | .leaseRequest _ _ _ => true
  | .leaseAnswer _ _ _ _ => true
  | .leaseAnswerTimeout _ => true
  | .levict _ _ => true
  | .lack _ => true
  | .lackTimeout _ => true
  | .hostApertureAccess _ _ => true
  | .getTdispVersion _ => true
  | .getTdispCapabilities _ => true
  | .lockInterfaceRequest _ => true
  | .getDeviceInterfaceReport _ => true
  | .getDeviceInterfaceState _ => true
  | .startInterfaceRequest _ => true
  | .stopInterfaceRequest _ => true
  | .stage2ChangeRequest _ _ => true
  | .getVersion _ => true
  | .getCapabilities _ => true
  | .negotiateAlgorithms _ _ => true
  | .getDigests _ => true
  | .getCertificate _ _ => true
  | .challenge _ _ => true
  | .getMeasurements _ _ => true
  | .keyExchange _ _ => true
  | .finish _ _ _ => true
  | .keyUpdate _ _ => true
  | .heartbeat _ _ => true
  | .endSession _ _ => true
  | .ideKm _ _ _ _ => true
  | .powerUp => true
  | .recovctlGo _ => true
  | .featctlGo => true
  | .partitionCreate _ => true
  | .partitionDestroy _ => true
  | .rbreqGo _ => true
  | .readbackComplete => true
  | .powerClamp _ => true
  | .thermalShutdown => true
  | .registerWrite _ _ _ => true
  | .nop => true
  | .powerRemoval => true
  | .dieLinkDown _ => true
  | .tenantRootKeyProvision _ _ _ => true

end Sys2Proof
end

