-- ==== Sys2Proof/Decode.lean ====
section
/-! DEFINITION. The decoder of bundles and slots (R60 to R82) and, after it, the encoder of single instructions: the opcode maps,
formats and field codes of chapter 03. Decoding a slot reads its fields by the opcode map and accepts the instruction only when
its own encoding is the word that was read, so every bit the format requires to be zero is zero and no reserved code passes, and
only when it is well formed. -/

namespace Sys2Proof

/-! ## Field codes (R69, R70, R79) -/

/-- Field of `n` bits from bit `lo` of a slot word. -/
def fld (w : SlotWord) (lo n : Nat) : BitVec n := w.extractLsb' lo n

/-- A flag as one bit. -/
def bit (b : Bool) : BitVec 1 := if b then 1 else 0

/-- TY (R69). -/
def Ty.code : Ty → BitVec 4
  | .f64 => 0 | .f32 => 1 | .bf16 => 2 | .f16 => 3 | .e4m3 => 4 | .e5m2 => 5 | .i8 => 6 | .i16 => 7
  | .i32 => 8 | .i64 => 9 | .n8 => 10 | .n16 => 11 | .n32 => 12 | .n64 => 13

/-- The type of a code; a reserved code reads as any type, and the encoding check refuses it. -/
def Ty.ofCode (c : BitVec 4) : Ty :=
  match c.toNat with
  | 1 => .f32 | 2 => .bf16 | 3 => .f16 | 4 => .e4m3 | 5 => .e5m2 | 6 => .i8 | 7 => .i16 | 8 => .i32 | 9 => .i64
  | 10 => .n8 | 11 => .n16 | 12 => .n32 | 13 => .n64 | _ => .f64

/-- BK (R69). -/
def Bk.code : Bk → BitVec 4
  | .bx3 => 0 | .bx5 => 1 | .bx8 => 2 | .mxE4m3 => 3 | .mxE5m2 => 4

/-- The block format of a code. -/
def Bk.ofCode (c : BitVec 4) : Bk :=
  match c.toNat with
  | 1 => .bx5 | 2 => .bx8 | 3 => .mxE4m3 | 4 => .mxE5m2 | _ => .bx3

/-- cc of CMP (R70). -/
def Cc.code : Cc → BitVec 4
  | .eq => 0 | .ne => 1 | .lt => 2 | .ge => 3 | .ltn => 4 | .gen => 5 | .le => 6 | .gt => 7 | .len => 8 | .gtn => 9

/-- The condition of a code. -/
def Cc.ofCode (c : BitVec 4) : Cc :=
  match c.toNat with
  | 1 => .ne | 2 => .lt | 3 => .ge | 4 => .ltn | 5 => .gen | 6 => .le | 7 => .gt | 8 => .len | 9 => .gtn | _ => .eq

/-- cc of VCMP (R70). -/
def VCc.code : VCc → BitVec 3
  | .eq => 0 | .ne => 1 | .lt => 2 | .le => 3 | .gt => 4 | .ge => 5 | .un => 6 | .or => 7

/-- The condition of a code. -/
def VCc.ofCode (c : BitVec 3) : VCc :=
  match c.toNat with
  | 1 => .ne | 2 => .lt | 3 => .le | 4 => .gt | 5 => .ge | 6 => .un | 7 => .or | _ => .eq

/-- T of BRP (R70). -/
def BrTest.code : BrTest → BitVec 2
  | .b0 => 0 | .any => 1 | .all => 2 | .none => 3

/-- The test of a code. -/
def BrTest.ofCode (c : BitVec 2) : BrTest :=
  match c.toNat with
  | 1 => .any | 2 => .all | 3 => .none | _ => .b0

/-- RM (R70). -/
def Rm.code : Rm → BitVec 3
  | .fmt => 0 | .rne => 1 | .rtz => 2 | .rdn => 3 | .rup => 4

/-- The rounding field of a code. -/
def Rm.ofCode (c : BitVec 3) : Rm :=
  match c.toNat with
  | 1 => .rne | 2 => .rtz | 3 => .rdn | 4 => .rup | _ => .fmt

/-- SZ (R70). -/
def Sz.code : Sz → BitVec 2
  | .b1 => 0 | .b2 => 1 | .b4 => 2 | .b8 => 3

/-- The size of a code. -/
def Sz.ofCode (c : BitVec 2) : Sz :=
  match c.toNat with
  | 1 => .b2 | 2 => .b4 | 3 => .b8 | _ => .b1

/-- AS (R70). -/
def As.code : As → BitVec 2
  | .i32 => 0 | .i64 => 1 | .n32 => 2 | .n64 => 3

/-- The atomic size of a code. -/
def As.ofCode (c : BitVec 2) : As :=
  match c.toNat with
  | 1 => .i64 | 2 => .n32 | 3 => .n64 | _ => .i32

/-- G (R66). -/
def Grp.code : Grp → BitVec 2
  | .one => 0 | .two => 1 | .four => 2

/-- The group size of a code. -/
def Grp.ofCode (c : BitVec 2) : Grp :=
  match c.toNat with
  | 1 => .two | 2 => .four | _ => .one

/-- The view bit (R73). -/
def View.code : View → BitVec 1
  | .lin => 0 | .swz => 1

/-- The view of a bit. -/
def View.ofCode (c : BitVec 1) : View := if c = 1 then .swz else .lin

/-- Scopes (R79). -/
def Scope.code : Scope → BitVec 3
  | .strand => 0 | .core => 1 | .cluster => 2 | .package => 3 | .fabric => 4

/-- The scope of a code. -/
def Scope.ofCode (c : BitVec 3) : Scope :=
  match c.toNat with
  | 1 => .core | 2 => .cluster | 3 => .package | 4 => .fabric | _ => .strand

/-- Fence kinds (R79). -/
def FenceKind.code : FenceKind → BitVec 2
  | .full => 0 | .acq => 1 | .rel => 2

/-- The fence kind of a code. -/
def FenceKind.ofCode (c : BitVec 2) : FenceKind :=
  match c.toNat with
  | 1 => .acq | 2 => .rel | _ => .full

/-- Operations of RED (R209). -/
def RedOp.code : RedOp → BitVec 3
  | .add => 0 | .fadd => 1 | .min => 2 | .max => 3 | .and => 4 | .or => 5 | .xor => 6

/-- The operation of a code. -/
def RedOp.ofCode (c : BitVec 3) : RedOp :=
  match c.toNat with
  | 1 => .fadd | 2 => .min | 3 => .max | 4 => .and | 5 => .or | 6 => .xor | _ => .add

/-- Operations of RATM (R79). -/
def AtomOp.code : AtomOp → BitVec 4
  | .add => 0 | .fadd => 1 | .min => 2 | .max => 3 | .and => 4 | .or => 5 | .xor => 6 | .swp => 7 | .cas => 8

/-- The operation of a code. -/
def AtomOp.ofCode (c : BitVec 4) : AtomOp :=
  match c.toNat with
  | 1 => .fadd | 2 => .min | 3 => .max | 4 => .and | 5 => .or | 6 => .xor | 7 => .swp | 8 => .cas | _ => .add

/-- Selectors of KQRY (R79, R244). -/
def KqSel.code : KqSel → BitVec 3
  | .page => 0 | .major => 1 | .line => 2 | .gen => 3 | .group => 4

/-- The selector of a code. -/
def KqSel.ofCode (c : BitVec 3) : KqSel :=
  match c.toNat with
  | 1 => .major | 2 => .line | 3 => .gen | 4 => .group | _ => .page

/-- LB: HC, G, PM (R66). -/
def LentB.bits (l : LentB) : BitVec 6 := bit l.hc ++ l.g.code ++ l.pm

/-- The lent fields of LB. -/
def LentB.ofBits (b : BitVec 6) : LentB :=
  ⟨b.extractLsb' 0 3, Grp.ofCode (b.extractLsb' 3 2), b.extractLsb' 5 1 == 1⟩

/-- LC: reserved, QE, QI (R66). -/
def LentC.bits (l : LentC) : BitVec 6 := 0#2 ++ bit l.qe ++ l.qi

/-- The lent fields of LC. -/
def LentC.ofBits (b : BitVec 6) : LentC := ⟨b.extractLsb' 0 3, b.extractLsb' 3 1 == 1⟩

/-! ## Formats (R71, R73, R76, R78) -/

/-- Format AR with an empty short header. -/
def encAR (op : BitVec 7) (d a b : BitVec 6) : SlotWord := op ++ d ++ a ++ b ++ 0#7
/-- Format AS. -/
def encAS (op : BitVec 7) (d a b : BitVec 6) (x : BitVec 4) : SlotWord := op ++ d ++ a ++ b ++ x ++ 0#3
/-- Formats AI and AL. -/
def encAI (op : BitVec 7) (d a : BitVec 6) (imm : BitVec 13) : SlotWord := op ++ d ++ a ++ imm
/-- Formats AB and AK. -/
def encAB (op : BitVec 7) (d : BitVec 6) (imm : BitVec 19) : SlotWord := op ++ d ++ imm
/-- Format AP. -/
def encAP (op : BitVec 7) (d a b : BitVec 4) : SlotWord := op ++ d ++ a ++ b ++ 0#13
/-- Formats VR and VC. -/
def encVR (op d a b : BitVec 7) (t : BitVec 4) : SlotWord := op ++ d ++ a ++ b ++ t
/-- Format VU. -/
def encVU (op d a : BitVec 7) (r : BitVec 3) (t2 t : BitVec 4) : SlotWord := op ++ d ++ a ++ r ++ t2 ++ t
/-- Format VP. -/
def encVP (op : BitVec 7) (p : BitVec 4) (c : BitVec 3) (a b : BitVec 7) (t : BitVec 4) : SlotWord := op ++ p ++ c ++ a ++ b ++ t
/-- Format VMD. -/
def encVMD (op d a b : BitVec 7) (n : BitVec 2) : SlotWord := op ++ d ++ a ++ b ++ n ++ 0#2
/-- Format VB. -/
def encVB (op d b : BitVec 7) (n : BitVec 2) (c : BitVec 5) : SlotWord := op ++ d ++ b ++ n ++ c ++ 0#4
/-- Format VS. -/
def encVS (op v : BitVec 7) (a b : BitVec 6) (t : BitVec 4) : SlotWord := op ++ v ++ a ++ b ++ 0#2 ++ t
/-- Format VT. -/
def encVT (op d a : BitVec 7) (b : BitVec 6) (n : BitVec 1) (t : BitVec 4) : SlotWord := op ++ d ++ a ++ b ++ n ++ t
/-- Format VM. -/
def encVM (op v : BitVec 7) (a : BitVec 6) (u : BitVec 1) (o : BitVec 11) : SlotWord := op ++ v ++ a ++ u ++ o
/-- Format VXM. -/
def encVXM (op v : BitVec 7) (a : BitVec 6) (u : BitVec 1) (i : BitVec 7) (t : BitVec 4) : SlotWord := op ++ v ++ a ++ u ++ i ++ t
/-- Format VRG. -/
def encVRG (op v : BitVec 7) (h : BitVec 4) (u : BitVec 1) (o : BitVec 8) (n : BitVec 5) : SlotWord := op ++ v ++ h ++ u ++ o ++ n
/-- Format CA. -/
def encCA (op v : BitVec 7) (r : BitVec 9) (x : BitVec 4) (z : BitVec 1) : SlotWord := op ++ v ++ r ++ x ++ z ++ 0#4
/-- Format CB. -/
def encCB (op v n : BitVec 7) : SlotWord := op ++ v ++ n ++ 0#11
/-- Format CG. -/
def encCG (op v : BitVec 7) (a : BitVec 6) (u : BitVec 1) : SlotWord := op ++ v ++ a ++ u ++ 0#11
/-- Format CF. -/
def encCF (op a : BitVec 7) (b : BitVec 8) : SlotWord := op ++ a ++ b ++ 0#10
/-- Formats DL and DS. -/
def encDL (op v : BitVec 7) (a : BitVec 6) (n : BitVec 10) (g : BitVec 2) : SlotWord := op ++ v ++ a ++ n ++ g
/-- Format DA. -/
def encDA (op : BitVec 7) (d a b : BitVec 6) (z : BitVec 2) (n : BitVec 5) : SlotWord := op ++ d ++ a ++ b ++ z ++ n
/-- Format DC. -/
def encDC (op : BitVec 7) (d a b : BitVec 6) (m : BitVec 7) : SlotWord := op ++ d ++ a ++ b ++ m

/-- A header with SOP = 0 (R63): DP, MH and the lent bits. -/
def encHdr (dp : Bool) (mh : BitVec 2) (lb lc ld : BitVec 6) : SlotWord :=
  0x7F#7 ++ bit dp ++ 0#2 ++ 0#2 ++ ld ++ mh ++ lc ++ lb

/-- A header with SOP ≠ 0 (R63): the flag and the count. -/
def encSync (sop : BitVec 2) (f : BitVec 5) (c : BitVec 3) : SlotWord :=
  0x7F#7 ++ 0#1 ++ sop ++ f ++ c ++ 0#2 ++ 0#6 ++ 0#6

/-- The slot word of a slot instruction (R71, R73, R76, R78); a header action or an event has none. -/
def Instr.word : Instr → SlotWord
  | .add d a b => encAR 0x01 d a b
  | .sub d a b => encAR 0x02 d a b
  | .mul d a b => encAR 0x03 d a b
  | .mulhi d a b => encAR 0x04 d a b
  | .mulhn d a b => encAR 0x05 d a b
  | .div d a b => encAR 0x06 d a b
  | .divn d a b => encAR 0x07 d a b
  | .rem d a b => encAR 0x08 d a b
  | .remn d a b => encAR 0x09 d a b
  | .and d a b => encAR 0x0a d a b
  | .or d a b => encAR 0x0b d a b
  | .xor d a b => encAR 0x0c d a b
  | .andn d a b => encAR 0x0d d a b
  | .shl d a b => encAR 0x0e d a b
  | .shr d a b => encAR 0x0f d a b
  | .sar d a b => encAR 0x10 d a b
  | .rotl d a b => encAR 0x11 d a b
  | .min d a b => encAR 0x12 d a b
  | .minn d a b => encAR 0x13 d a b
  | .max d a b => encAR 0x14 d a b
  | .maxn d a b => encAR 0x15 d a b
  | .clz d a => encAR 0x16 d a 0
  | .ctz d a => encAR 0x17 d a 0
  | .popc d a => encAR 0x18 d a 0
  | .sel d p a b => encAS 0x19 d a b p
  | .cmp c p a b => encAS 0x1a (0#2 ++ p) a b c.code
  | .addi d a n => encAI 0x20 d a n
  | .andi d a n => encAI 0x21 d a n
  | .ori d a n => encAI 0x22 d a n
  | .xori d a n => encAI 0x23 d a n
  | .shli d a n => encAI 0x24 d a (0#7 ++ n)
  | .shri d a n => encAI 0x25 d a (0#7 ++ n)
  | .sari d a n => encAI 0x26 d a (0#7 ++ n)
  | .sext d a n => encAI 0x27 d a (0#7 ++ n)
  | .zext d a n => encAI 0x28 d a (0#7 ++ n)
  | .movi d n => encAB 0x29 d n
  | .movhi d h n => encAB 0x2a d (h ++ 0#1 ++ n)
  | .lds z d a o => encAI 0x2b d a (z.code ++ o)
  | .sts z d a o => encAI 0x2c d a (z.code ++ o)
  | .pand d a b => encAP 0x30 d a b
  | .por d a b => encAP 0x31 d a b
  | .pxor d a b => encAP 0x32 d a b
  | .pnot d a => encAP 0x33 d a 0
  | .pmov d a => encAP 0x34 d a 0
  | .br o => encAB 0x40 0 o
  | .brp t p o => encAB 0x41 (p ++ t.code) o
  | .call d o => encAB 0x42 d o
  | .ret a => encAI 0x43 0 a 0
  | .jr a => encAI 0x44 0 a 0
  | .loop c a n => encAI 0x45 c a n
  | .loops c a n => encAI 0x46 c a n
  | .lbrk a u => encAI 0x47 0 a (0#12 ++ bit u)
  | .region => encAI 0x48 0 0 0
  | .endreg => encAI 0x49 0 0 0
  | .setfmt n => encAI 0x50 0 0 n
  | .getfmt d => encAI 0x51 d 0 0
  | .rdcyc d => encAI 0x52 d 0 0
  | .waitc a => encAI 0x53 0 a 0
  | .rdwid d n => encAI 0x54 d 0 (0#10 ++ n)
  | .rdsr d n => encAI 0x55 d 0 (0#1 ++ n)
  | .wrsr n a => encAI 0x56 0 a (0#1 ++ n)
  | .trap n => encAI 0x60 0 0 n
  | .eret => encAI 0x61 0 0 0
  | .done => encAI 0x62 0 0 0
  | .yield => encAI 0x63 0 0 0
  | .radvcImm h n => encAI 0x64 (0#2 ++ h) 0 (0#1 ++ n)
  | .radvcReg h a => encAI 0x64 (0#2 ++ h) a 0
  | .radvpImm h n => encAI 0x65 (0#2 ++ h) 0 (0#1 ++ n)
  | .radvpReg h a => encAI 0x65 (0#2 ++ h) a 0
  | .rstat d h => encAI 0x66 d 0 (0#9 ++ h)
  | .fladd f a => encAI 0x67 0 a (0#8 ++ f)
  | .flrd d f => encAI 0x68 d 0 (0#8 ++ f)
  | .vadd _ t d a b => encVR 0x01 d a b t.code
  | .vsub _ t d a b => encVR 0x02 d a b t.code
  | .vmul _ t d a b => encVR 0x03 d a b t.code
  | .vfma _ t d a b => encVR 0x04 d a b t.code
  | .vfms _ t d a b => encVR 0x05 d a b t.code
  | .vfnma _ t d a b => encVR 0x06 d a b t.code
  | .vmin _ t d a b => encVR 0x07 d a b t.code
  | .vmax _ t d a b => encVR 0x08 d a b t.code
  | .vcps _ t d a b => encVR 0x09 d a b t.code
  | .vdiv _ t d a b => encVR 0x0a d a b t.code
  | .viadd _ t d a b => encVR 0x20 d a b t.code
  | .visub _ t d a b => encVR 0x21 d a b t.code
  | .vimul _ t d a b => encVR 0x22 d a b t.code
  | .vimulh _ t d a b => encVR 0x23 d a b t.code
  | .vimad _ t d a b => encVR 0x24 d a b t.code
  | .vimin _ t d a b => encVR 0x25 d a b t.code
  | .vimax _ t d a b => encVR 0x26 d a b t.code
  | .vand _ t d a b => encVR 0x27 d a b t.code
  | .vor _ t d a b => encVR 0x28 d a b t.code
  | .vxor _ t d a b => encVR 0x29 d a b t.code
  | .vshl _ t d a b => encVR 0x2b d a b t.code
  | .vshr _ t d a b => encVR 0x2c d a b t.code
  | .vsar _ t d a b => encVR 0x2d d a b t.code
  | .vmulw _ t d a b => encVR 0x33 d a b t.code
  | .vpack _ t d a b => encVR 0x43 d a b t.code
  | .vscana _ t d a b => encVR 0x49 d a b t.code
  | .vshfl _ t d a b => encVR 0x54 d a b t.code
  | .vzip _ t d a b => encVR 0x56 d a b t.code
  | .vunzip _ t d a b => encVR 0x57 d a b t.code
  | .vabs _ t d a => encVU 0x10 d a 0 0 t.code
  | .vneg _ t d a => encVU 0x11 d a 0 0 t.code
  | .vclass _ t d a => encVU 0x13 d a 0 0 t.code
  | .vrcp _ t d a => encVU 0x14 d a 0 0 t.code
  | .vrsq _ t d a => encVU 0x15 d a 0 0 t.code
  | .vexp2 _ t d a => encVU 0x17 d a 0 0 t.code
  | .vlog2 _ t d a => encVU 0x18 d a 0 0 t.code
  | .vsin _ t d a => encVU 0x19 d a 0 0 t.code
  | .vcos _ t d a => encVU 0x1a d a 0 0 t.code
  | .vtanh _ t d a => encVU 0x1b d a 0 0 t.code
  | .vsigm _ t d a => encVU 0x1c d a 0 0 t.code
  | .vnot _ t d a => encVU 0x2a d a 0 0 t.code
  | .vpopc _ t d a => encVU 0x2e d a 0 0 t.code
  | .vclz _ t d a => encVU 0x2f d a 0 0 t.code
  | .vunpk _ t d a => encVU 0x44 d a 0 0 t.code
  | .vradd _ t d a => encVU 0x45 d a 0 0 t.code
  | .vrmax _ t d a => encVU 0x46 d a 0 0 t.code
  | .vrmin _ t d a => encVU 0x47 d a 0 0 t.code
  | .vscan _ t d a => encVU 0x48 d a 0 0 t.code
  | .vmov _ t d a => encVU 0x50 d a 0 0 t.code
  | .vrnd _ r t d a => encVU 0x12 d a r.code 0 t.code
  | .vsqrt _ r t d a => encVU 0x16 d a r.code 0 t.code
  | .vcvt _ r t u d a => encVU 0x40 d a r.code u.code t.code
  | .vqnt _ k t d a => encVU 0x41 d a 0 k.code t.code
  | .vdqnt _ t k d a => encVU 0x42 d a 0 k.code t.code
  | .vadc _ d a b p => encVR 0x30 d a b p
  | .vsbc _ d a b p => encVR 0x31 d a b p
  | .vmadc _ d a b p => encVR 0x32 d a b p
  | .vselp _ d a b p => encVR 0x58 d a b p
  | .vcmp _ c t p a b => encVP 0x0b p c.code a b t.code
  | .vmodadd _ d a b n => encVMD 0x34 d a b n
  | .vmodsub _ d a b n => encVMD 0x35 d a b n
  | .vmodmul _ d a b n => encVMD 0x36 d a b n
  | .vmodmac _ d a b n => encVMD 0x37 d a b n
  | .vmodred _ d a n => encVMD 0x38 d a 0 n
  | .vmodneg _ d a n => encVMD 0x39 d a 0 n
  | .vmsetm _ n a => encVMD 0x3a 0 a 0 n
  | .vmsetk _ n a => encVMD 0x3b 0 a 0 n
  | .vbfly _ d b n c => encVB 0x3c d b n c
  | .vbflyi _ d b n c => encVB 0x3d d b n c
  | .vpermb _ d a c => encVB 0x3e d a 0 c
  | .vbcst _ t d a => encVS 0x51 d a 0 t.code
  | .vext _ t d a b => encVS 0x52 a d b t.code
  | .vins _ t d a b => encVS 0x53 d a b t.code
  | .vslide _ t n d a b => encVT 0x55 d a b (bit n) t.code
  | .vld _ u d a o => encVM 0x60 d a u.code o
  | .vst _ u d a o => encVM 0x61 d a u.code o
  | .vldx _ u t d a b => encVXM 0x62 d a u.code b t.code
  | .vstx _ u t d a b => encVXM 0x63 d a u.code b t.code
  | .vldr _ u d h o n => encVRG 0x64 d h u.code o n
  | .vstr _ u d h o n => encVRG 0x65 d h u.code o n
  | .mcfg _ a b => encCF 0x01 a b
  | .mshift _ a b => encCB 0x02 a b
  | .mpush _ a r x k => encCA 0x03 a r (0#2 ++ bit k ++ bit x) 0
  | .macc _ a r => encCA 0x04 a r 0 0
  | .mdrain _ t z d r => encCA 0x05 d r t.code (bit z)
  | .mdrainq _ k z d r => encCA 0x06 d r k.code (bit z)
  | .mzero _ r => encCA 0x07 0 r 0 0
  | .mswap _ => encCB 0x08 0 0
  | .mgath _ u a b => encCG 0x09 a b u.code
  | .mldacc _ a r => encCA 0x0a a r 0 0
  | .mstg _ a => encCB 0x0b a 0
  | .mrot _ n => encCB 0x0c 0 n
  | .tld _ g v a n => encDL 0x01 v a n g.code
  | .tlds _ g v a n => encDL 0x02 v a n g.code
  | .tldm _ g v a n => encDL 0x03 v a n g.code
  | .rld _ g v a n => encDL 0x31 v a n g.code
  | .tst _ g v a => encDL 0x04 v a 0 g.code
  | .tsts _ g v a => encDL 0x05 v a 0 g.code
  | .rst _ g v a => encDL 0x30 v a 0 g.code
  | .sldg _ z d a n => encDL 0x06 (0#1 ++ d) a n z.code
  | .sstg _ z d a => encDL 0x07 (0#1 ++ d) a 0 z.code
  | .pref _ a => encDC 0x08 0 a 0 0
  | .atadd _ z d a b n => encDA 0x10 d a b z.code n
  | .atfadd _ z d a b n => encDA 0x11 d a b z.code n
  | .atmin _ z d a b n => encDA 0x12 d a b z.code n
  | .atmax _ z d a b n => encDA 0x13 d a b z.code n
  | .atand _ z d a b n => encDA 0x14 d a b z.code n
  | .ator _ z d a b n => encDA 0x15 d a b z.code n
  | .atxor _ z d a b n => encDA 0x16 d a b z.code n
  | .atswp _ z d a b n => encDA 0x17 d a b z.code n
  | .atcas _ z d a b n => encDA 0x18 d a b z.code n
  | .red _ o z a b => encDA 0x19 (0#3 ++ o.code) a b z.code 0
  | .fence _ c k => encDC 0x20 0 0 0 (0#2 ++ k.code ++ c.code)
  | .vjoin _ => encDC 0x21 0 0 0 0
  | .strm _ d a b h n => encDC 0x22 d a b (0#2 ++ bit n ++ h)
  | .strmx _ d h => encDC 0x23 d 0 0 (0#3 ++ h)
  | .cpy _ d a b => encDC 0x24 d a b 0
  | .lease _ d a b => encDC 0x34 d a b 0
  | .lrecl _ d a b => encDC 0x35 d a b 0
  | .krot _ d a b => encDC 0x50 d a b 0
  | .seal _ d a b => encDC 0x52 d a b 0
  | .unseal _ d a b => encDC 0x53 d a b 0
  | .ratm _ o z d a b => encDC 0x32 d a b (0#1 ++ z.code ++ o.code)
  | .xred _ e d a b => encDC 0x33 d a b (0#6 ++ bit e)
  | .mapr _ d a => encDC 0x40 d a 0 0
  | .wbr _ d a => encDC 0x41 d a 0 0
  | .scrub _ d a => encDC 0x54 d a 0 0
  | .meas _ d a => encDC 0x55 d a 0 0
  | .invr _ a => encDC 0x42 0 a 0 0
  | .kqry _ k d a => encDC 0x51 d a 0 (0#4 ++ k.code)
  | .syncWait _ _ => 0
  | .syncPost _ _ => 0
  | .drainPoint => 0
  | .mergeYield => 0
  | .waitcTargetReached _ => 0
  | .gatherComplete _ => 0
  | .dividerBusyExpiry _ => 0
  | .loadDataArrival _ => 0
  | .flagPostArrival _ => 0
  | .memoryQueueDepart _ => 0
  | .gatewayRequest _ => 0
  | .pageRequestEnqueue _ => 0
  | .pageRequestRecordWrite _ => 0
  | .prespWrite _ _ => 0
  | .lanternStage2Answer _ => 0
  | .sideLogReplay _ => 0
  | .homeSliceRequest _ _ _ => 0
  | .pageReencryption _ => 0
  | .engineCommandAccept _ => 0
  | .engineCommandComplete _ => 0
  | .promiseExpiry _ => 0
  | .streamSlotStart _ _ => 0
  | .streamSlotComplete _ _ => 0
  | .maprFillComplete _ _ => 0
  | .chunkFillComplete _ _ _ _ => 0
  | .trapEntry _ => 0
  | .pendingTrapTake _ => 0
  | .ctxcmdResume _ _ => 0
  | .ctxcmdAbort _ _ => 0
  | .preemptRequest _ => 0
  | .strandSave _ => 0
  | .drainBoundExpiry _ => 0
  | .strandRestore _ _ => 0
  | .strandRelease _ => 0
  | .launchComplete _ _ _ => 0
  | .lqcfgWrite _ _ _ => 0
  | .lqnotifyWrite _ _ _ => 0
  | .launchRecordRead _ _ => 0
  | .launchWaitPoll _ _ _ => 0
  | .groupDispatch _ _ _ => 0
  | .launchStarvationTimeout _ _ _ => 0
  | .lcancelWrite _ _ => 0
  | .clusterLend _ _ => 0
  | .borrowIdleTimeout _ => 0
  | .clusterReclaim _ => 0
  | .reclaimPhase1Timeout _ => 0
  | .contractAdmit _ _ => 0
  | .contractRemove _ _ => 0
  | .jobRelease _ _ => 0
  | .contractOverrun _ _ => 0
  | .deadlineMiss _ _ => 0
  | .gangReady _ => 0
  | .gready _ _ => 0
  | .gabort _ _ => 0
  | .gangTimeout _ => 0
  | .eventRingOverflow _ => 0
  | .prqconsWrite _ _ => 0
  | .evconsWrite _ _ => 0
  | .fevconsWrite _ => 0
  | .s1rootWrite _ _ => 0
  | .s1invAll _ => 0
  | .s1invPage _ _ => 0
  | .s1InvalidationComplete _ => 0
  | .contextReset _ _ => 0
  | .queueReset _ _ => 0
  | .engineReset _ => 0
  | .partitionReset _ => 0
  | .deviceReset => 0
  | .resetRungTimeout _ _ => 0
  | .vfFunctionLevelReset _ => 0
  | .pf0FunctionLevelReset => 0
  | .memclsWrite _ _ => 0
  | .misscntRead _ _ _ => 0
  | .dielinkTagFail _ => 0
  | .dielinkRetrain _ => 0
  | .dieIsolationTimeout _ => 0
  | .matchingBoundary _ => 0
  | .beacon _ _ => 0
  | .beaconLossTimeout _ => 0
  | .messageRoute _ => 0
  | .dataFlit _ _ => 0
  | .relayDataFlit _ _ _ => 0
  | .nack _ _ _ => 0
  | .restripe _ _ _ => 0
  | .laserModuleFail _ _ => 0
  | .lossOfLightDeclare _ _ => 0
  | .fabricRequestReceive _ => 0
  | .fabricCompletion _ => 0
  | .fwinWrite _ _ _ => 0
  | .portRetrain _ => 0
  | .retrainAttempt _ _ _ _ _ => 0
  | .tdxInitiate _ _ => 0
  | .tdxAcceptArm _ _ => 0
  | .tdxAcceptExpiry _ => 0
  | .tdxAgreementTimeout _ => 0
  | .keyAgreementStep1 _ _ => 0
  | .keyAgreementStep2 _ _ => 0
  | .keyAgreementStep3 _ _ => 0
  | .keyAgreementStep4 _ _ => 0
  | .leaseRequest _ _ _ => 0
  | .leaseAnswer _ _ _ _ => 0
  | .leaseAnswerTimeout _ => 0
  | .levict _ _ => 0
  | .lack _ => 0
  | .lackTimeout _ => 0
  | .hostApertureAccess _ _ => 0
  | .getTdispVersion _ => 0
  | .getTdispCapabilities _ => 0
  | .lockInterfaceRequest _ => 0
  | .getDeviceInterfaceReport _ => 0
  | .getDeviceInterfaceState _ => 0
  | .startInterfaceRequest _ => 0
  | .stopInterfaceRequest _ => 0
  | .stage2ChangeRequest _ _ => 0
  | .getVersion _ => 0
  | .getCapabilities _ => 0
  | .negotiateAlgorithms _ _ => 0
  | .getDigests _ => 0
  | .getCertificate _ _ => 0
  | .challenge _ _ => 0
  | .getMeasurements _ _ => 0
  | .keyExchange _ _ => 0
  | .finish _ _ _ => 0
  | .keyUpdate _ _ => 0
  | .heartbeat _ _ => 0
  | .endSession _ _ => 0
  | .ideKm _ _ _ _ => 0
  | .powerUp => 0
  | .recovctlGo _ => 0
  | .featctlGo => 0
  | .partitionCreate _ => 0
  | .partitionDestroy _ => 0
  | .rbreqGo _ => 0
  | .readbackComplete => 0
  | .powerClamp _ => 0
  | .thermalShutdown => 0
  | .registerWrite _ _ _ => 0
  | .nop => 0
  | .powerRemoval => 0
  | .dieLinkDown _ => 0
  | .tenantRootKeyProvision _ _ _ => 0

/-- The slot an instruction belongs to: 0 A, 1 B, 2 C, 3 D; none for a header action or an event (R60). -/
def Instr.slot : Instr → Option Nat
  | .add _ _ _ => some 0
  | .sub _ _ _ => some 0
  | .mul _ _ _ => some 0
  | .mulhi _ _ _ => some 0
  | .mulhn _ _ _ => some 0
  | .div _ _ _ => some 0
  | .divn _ _ _ => some 0
  | .rem _ _ _ => some 0
  | .remn _ _ _ => some 0
  | .and _ _ _ => some 0
  | .or _ _ _ => some 0
  | .xor _ _ _ => some 0
  | .andn _ _ _ => some 0
  | .shl _ _ _ => some 0
  | .shr _ _ _ => some 0
  | .sar _ _ _ => some 0
  | .rotl _ _ _ => some 0
  | .min _ _ _ => some 0
  | .minn _ _ _ => some 0
  | .max _ _ _ => some 0
  | .maxn _ _ _ => some 0
  | .clz _ _ => some 0
  | .ctz _ _ => some 0
  | .popc _ _ => some 0
  | .sel _ _ _ _ => some 0
  | .cmp _ _ _ _ => some 0
  | .addi _ _ _ => some 0
  | .andi _ _ _ => some 0
  | .ori _ _ _ => some 0
  | .xori _ _ _ => some 0
  | .shli _ _ _ => some 0
  | .shri _ _ _ => some 0
  | .sari _ _ _ => some 0
  | .sext _ _ _ => some 0
  | .zext _ _ _ => some 0
  | .movi _ _ => some 0
  | .movhi _ _ _ => some 0
  | .lds _ _ _ _ => some 0
  | .sts _ _ _ _ => some 0
  | .pand _ _ _ => some 0
  | .por _ _ _ => some 0
  | .pxor _ _ _ => some 0
  | .pnot _ _ => some 0
  | .pmov _ _ => some 0
  | .br _ => some 0
  | .brp _ _ _ => some 0
  | .call _ _ => some 0
  | .ret _ => some 0
  | .jr _ => some 0
  | .loop _ _ _ => some 0
  | .loops _ _ _ => some 0
  | .lbrk _ _ => some 0
  | .region => some 0
  | .endreg => some 0
  | .setfmt _ => some 0
  | .getfmt _ => some 0
  | .rdcyc _ => some 0
  | .waitc _ => some 0
  | .rdwid _ _ => some 0
  | .rdsr _ _ => some 0
  | .wrsr _ _ => some 0
  | .trap _ => some 0
  | .eret => some 0
  | .done => some 0
  | .yield => some 0
  | .radvcImm _ _ => some 0
  | .radvcReg _ _ => some 0
  | .radvpImm _ _ => some 0
  | .radvpReg _ _ => some 0
  | .rstat _ _ => some 0
  | .fladd _ _ => some 0
  | .flrd _ _ => some 0
  | .vadd _ _ _ _ _ => some 1
  | .vsub _ _ _ _ _ => some 1
  | .vmul _ _ _ _ _ => some 1
  | .vfma _ _ _ _ _ => some 1
  | .vfms _ _ _ _ _ => some 1
  | .vfnma _ _ _ _ _ => some 1
  | .vmin _ _ _ _ _ => some 1
  | .vmax _ _ _ _ _ => some 1
  | .vcps _ _ _ _ _ => some 1
  | .vdiv _ _ _ _ _ => some 1
  | .viadd _ _ _ _ _ => some 1
  | .visub _ _ _ _ _ => some 1
  | .vimul _ _ _ _ _ => some 1
  | .vimulh _ _ _ _ _ => some 1
  | .vimad _ _ _ _ _ => some 1
  | .vimin _ _ _ _ _ => some 1
  | .vimax _ _ _ _ _ => some 1
  | .vand _ _ _ _ _ => some 1
  | .vor _ _ _ _ _ => some 1
  | .vxor _ _ _ _ _ => some 1
  | .vshl _ _ _ _ _ => some 1
  | .vshr _ _ _ _ _ => some 1
  | .vsar _ _ _ _ _ => some 1
  | .vmulw _ _ _ _ _ => some 1
  | .vpack _ _ _ _ _ => some 1
  | .vscana _ _ _ _ _ => some 1
  | .vshfl _ _ _ _ _ => some 1
  | .vzip _ _ _ _ _ => some 1
  | .vunzip _ _ _ _ _ => some 1
  | .vabs _ _ _ _ => some 1
  | .vneg _ _ _ _ => some 1
  | .vclass _ _ _ _ => some 1
  | .vrcp _ _ _ _ => some 1
  | .vrsq _ _ _ _ => some 1
  | .vexp2 _ _ _ _ => some 1
  | .vlog2 _ _ _ _ => some 1
  | .vsin _ _ _ _ => some 1
  | .vcos _ _ _ _ => some 1
  | .vtanh _ _ _ _ => some 1
  | .vsigm _ _ _ _ => some 1
  | .vnot _ _ _ _ => some 1
  | .vpopc _ _ _ _ => some 1
  | .vclz _ _ _ _ => some 1
  | .vunpk _ _ _ _ => some 1
  | .vradd _ _ _ _ => some 1
  | .vrmax _ _ _ _ => some 1
  | .vrmin _ _ _ _ => some 1
  | .vscan _ _ _ _ => some 1
  | .vmov _ _ _ _ => some 1
  | .vrnd _ _ _ _ _ => some 1
  | .vsqrt _ _ _ _ _ => some 1
  | .vcvt _ _ _ _ _ _ => some 1
  | .vqnt _ _ _ _ _ => some 1
  | .vdqnt _ _ _ _ _ => some 1
  | .vadc _ _ _ _ _ => some 1
  | .vsbc _ _ _ _ _ => some 1
  | .vmadc _ _ _ _ _ => some 1
  | .vselp _ _ _ _ _ => some 1
  | .vcmp _ _ _ _ _ _ => some 1
  | .vmodadd _ _ _ _ _ => some 1
  | .vmodsub _ _ _ _ _ => some 1
  | .vmodmul _ _ _ _ _ => some 1
  | .vmodmac _ _ _ _ _ => some 1
  | .vmodred _ _ _ _ => some 1
  | .vmodneg _ _ _ _ => some 1
  | .vmsetm _ _ _ => some 1
  | .vmsetk _ _ _ => some 1
  | .vbfly _ _ _ _ _ => some 1
  | .vbflyi _ _ _ _ _ => some 1
  | .vpermb _ _ _ _ => some 1
  | .vbcst _ _ _ _ => some 1
  | .vext _ _ _ _ _ => some 1
  | .vins _ _ _ _ _ => some 1
  | .vslide _ _ _ _ _ _ => some 1
  | .vld _ _ _ _ _ => some 1
  | .vst _ _ _ _ _ => some 1
  | .vldx _ _ _ _ _ _ => some 1
  | .vstx _ _ _ _ _ _ => some 1
  | .vldr _ _ _ _ _ _ => some 1
  | .vstr _ _ _ _ _ _ => some 1
  | .mcfg _ _ _ => some 2
  | .mshift _ _ _ => some 2
  | .mpush _ _ _ _ _ => some 2
  | .macc _ _ _ => some 2
  | .mdrain _ _ _ _ _ => some 2
  | .mdrainq _ _ _ _ _ => some 2
  | .mzero _ _ => some 2
  | .mswap _ => some 2
  | .mgath _ _ _ _ => some 2
  | .mldacc _ _ _ => some 2
  | .mstg _ _ => some 2
  | .mrot _ _ => some 2
  | .tld _ _ _ _ _ => some 3
  | .tlds _ _ _ _ _ => some 3
  | .tldm _ _ _ _ _ => some 3
  | .rld _ _ _ _ _ => some 3
  | .tst _ _ _ _ => some 3
  | .tsts _ _ _ _ => some 3
  | .rst _ _ _ _ => some 3
  | .sldg _ _ _ _ _ => some 3
  | .sstg _ _ _ _ => some 3
  | .pref _ _ => some 3
  | .atadd _ _ _ _ _ _ => some 3
  | .atfadd _ _ _ _ _ _ => some 3
  | .atmin _ _ _ _ _ _ => some 3
  | .atmax _ _ _ _ _ _ => some 3
  | .atand _ _ _ _ _ _ => some 3
  | .ator _ _ _ _ _ _ => some 3
  | .atxor _ _ _ _ _ _ => some 3
  | .atswp _ _ _ _ _ _ => some 3
  | .atcas _ _ _ _ _ _ => some 3
  | .red _ _ _ _ _ => some 3
  | .fence _ _ _ => some 3
  | .vjoin _ => some 3
  | .strm _ _ _ _ _ _ => some 3
  | .strmx _ _ _ => some 3
  | .cpy _ _ _ _ => some 3
  | .lease _ _ _ _ => some 3
  | .lrecl _ _ _ _ => some 3
  | .krot _ _ _ _ => some 3
  | .seal _ _ _ _ => some 3
  | .unseal _ _ _ _ => some 3
  | .ratm _ _ _ _ _ _ => some 3
  | .xred _ _ _ _ _ => some 3
  | .mapr _ _ _ => some 3
  | .wbr _ _ _ => some 3
  | .scrub _ _ _ => some 3
  | .meas _ _ _ => some 3
  | .invr _ _ => some 3
  | .kqry _ _ _ _ => some 3
  | .syncWait _ _ => none
  | .syncPost _ _ => none
  | .drainPoint => none
  | .mergeYield => none
  | .waitcTargetReached _ => none
  | .gatherComplete _ => none
  | .dividerBusyExpiry _ => none
  | .loadDataArrival _ => none
  | .flagPostArrival _ => none
  | .memoryQueueDepart _ => none
  | .gatewayRequest _ => none
  | .pageRequestEnqueue _ => none
  | .pageRequestRecordWrite _ => none
  | .prespWrite _ _ => none
  | .lanternStage2Answer _ => none
  | .sideLogReplay _ => none
  | .homeSliceRequest _ _ _ => none
  | .pageReencryption _ => none
  | .engineCommandAccept _ => none
  | .engineCommandComplete _ => none
  | .promiseExpiry _ => none
  | .streamSlotStart _ _ => none
  | .streamSlotComplete _ _ => none
  | .maprFillComplete _ _ => none
  | .chunkFillComplete _ _ _ _ => none
  | .trapEntry _ => none
  | .pendingTrapTake _ => none
  | .ctxcmdResume _ _ => none
  | .ctxcmdAbort _ _ => none
  | .preemptRequest _ => none
  | .strandSave _ => none
  | .drainBoundExpiry _ => none
  | .strandRestore _ _ => none
  | .strandRelease _ => none
  | .launchComplete _ _ _ => none
  | .lqcfgWrite _ _ _ => none
  | .lqnotifyWrite _ _ _ => none
  | .launchRecordRead _ _ => none
  | .launchWaitPoll _ _ _ => none
  | .groupDispatch _ _ _ => none
  | .launchStarvationTimeout _ _ _ => none
  | .lcancelWrite _ _ => none
  | .clusterLend _ _ => none
  | .borrowIdleTimeout _ => none
  | .clusterReclaim _ => none
  | .reclaimPhase1Timeout _ => none
  | .contractAdmit _ _ => none
  | .contractRemove _ _ => none
  | .jobRelease _ _ => none
  | .contractOverrun _ _ => none
  | .deadlineMiss _ _ => none
  | .gangReady _ => none
  | .gready _ _ => none
  | .gabort _ _ => none
  | .gangTimeout _ => none
  | .eventRingOverflow _ => none
  | .prqconsWrite _ _ => none
  | .evconsWrite _ _ => none
  | .fevconsWrite _ => none
  | .s1rootWrite _ _ => none
  | .s1invAll _ => none
  | .s1invPage _ _ => none
  | .s1InvalidationComplete _ => none
  | .contextReset _ _ => none
  | .queueReset _ _ => none
  | .engineReset _ => none
  | .partitionReset _ => none
  | .deviceReset => none
  | .resetRungTimeout _ _ => none
  | .vfFunctionLevelReset _ => none
  | .pf0FunctionLevelReset => none
  | .memclsWrite _ _ => none
  | .misscntRead _ _ _ => none
  | .dielinkTagFail _ => none
  | .dielinkRetrain _ => none
  | .dieIsolationTimeout _ => none
  | .matchingBoundary _ => none
  | .beacon _ _ => none
  | .beaconLossTimeout _ => none
  | .messageRoute _ => none
  | .dataFlit _ _ => none
  | .relayDataFlit _ _ _ => none
  | .nack _ _ _ => none
  | .restripe _ _ _ => none
  | .laserModuleFail _ _ => none
  | .lossOfLightDeclare _ _ => none
  | .fabricRequestReceive _ => none
  | .fabricCompletion _ => none
  | .fwinWrite _ _ _ => none
  | .portRetrain _ => none
  | .retrainAttempt _ _ _ _ _ => none
  | .tdxInitiate _ _ => none
  | .tdxAcceptArm _ _ => none
  | .tdxAcceptExpiry _ => none
  | .tdxAgreementTimeout _ => none
  | .keyAgreementStep1 _ _ => none
  | .keyAgreementStep2 _ _ => none
  | .keyAgreementStep3 _ _ => none
  | .keyAgreementStep4 _ _ => none
  | .leaseRequest _ _ _ => none
  | .leaseAnswer _ _ _ _ => none
  | .leaseAnswerTimeout _ => none
  | .levict _ _ => none
  | .lack _ => none
  | .lackTimeout _ => none
  | .hostApertureAccess _ _ => none
  | .getTdispVersion _ => none
  | .getTdispCapabilities _ => none
  | .lockInterfaceRequest _ => none
  | .getDeviceInterfaceReport _ => none
  | .getDeviceInterfaceState _ => none
  | .startInterfaceRequest _ => none
  | .stopInterfaceRequest _ => none
  | .stage2ChangeRequest _ _ => none
  | .getVersion _ => none
  | .getCapabilities _ => none
  | .negotiateAlgorithms _ _ => none
  | .getDigests _ => none
  | .getCertificate _ _ => none
  | .challenge _ _ => none
  | .getMeasurements _ _ => none
  | .keyExchange _ _ => none
  | .finish _ _ _ => none
  | .keyUpdate _ _ => none
  | .heartbeat _ _ => none
  | .endSession _ _ => none
  | .ideKm _ _ _ _ => none
  | .powerUp => none
  | .recovctlGo _ => none
  | .featctlGo => none
  | .partitionCreate _ => none
  | .partitionDestroy _ => none
  | .rbreqGo _ => none
  | .readbackComplete => none
  | .powerClamp _ => none
  | .thermalShutdown => none
  | .registerWrite _ _ _ => none
  | .nop => none
  | .powerRemoval => none
  | .dieLinkDown _ => none
  | .tenantRootKeyProvision _ _ _ => none

/-- The lent bits an instruction carries, as the header lends them: LB, LC, LD (R66). -/
def Instr.lent : Instr → BitVec 6 × BitVec 6 × BitVec 6
  | .add _ _ _ => (0, 0, 0)
  | .sub _ _ _ => (0, 0, 0)
  | .mul _ _ _ => (0, 0, 0)
  | .mulhi _ _ _ => (0, 0, 0)
  | .mulhn _ _ _ => (0, 0, 0)
  | .div _ _ _ => (0, 0, 0)
  | .divn _ _ _ => (0, 0, 0)
  | .rem _ _ _ => (0, 0, 0)
  | .remn _ _ _ => (0, 0, 0)
  | .and _ _ _ => (0, 0, 0)
  | .or _ _ _ => (0, 0, 0)
  | .xor _ _ _ => (0, 0, 0)
  | .andn _ _ _ => (0, 0, 0)
  | .shl _ _ _ => (0, 0, 0)
  | .shr _ _ _ => (0, 0, 0)
  | .sar _ _ _ => (0, 0, 0)
  | .rotl _ _ _ => (0, 0, 0)
  | .min _ _ _ => (0, 0, 0)
  | .minn _ _ _ => (0, 0, 0)
  | .max _ _ _ => (0, 0, 0)
  | .maxn _ _ _ => (0, 0, 0)
  | .clz _ _ => (0, 0, 0)
  | .ctz _ _ => (0, 0, 0)
  | .popc _ _ => (0, 0, 0)
  | .sel _ _ _ _ => (0, 0, 0)
  | .cmp _ _ _ _ => (0, 0, 0)
  | .addi _ _ _ => (0, 0, 0)
  | .andi _ _ _ => (0, 0, 0)
  | .ori _ _ _ => (0, 0, 0)
  | .xori _ _ _ => (0, 0, 0)
  | .shli _ _ _ => (0, 0, 0)
  | .shri _ _ _ => (0, 0, 0)
  | .sari _ _ _ => (0, 0, 0)
  | .sext _ _ _ => (0, 0, 0)
  | .zext _ _ _ => (0, 0, 0)
  | .movi _ _ => (0, 0, 0)
  | .movhi _ _ _ => (0, 0, 0)
  | .lds _ _ _ _ => (0, 0, 0)
  | .sts _ _ _ _ => (0, 0, 0)
  | .pand _ _ _ => (0, 0, 0)
  | .por _ _ _ => (0, 0, 0)
  | .pxor _ _ _ => (0, 0, 0)
  | .pnot _ _ => (0, 0, 0)
  | .pmov _ _ => (0, 0, 0)
  | .br _ => (0, 0, 0)
  | .brp _ _ _ => (0, 0, 0)
  | .call _ _ => (0, 0, 0)
  | .ret _ => (0, 0, 0)
  | .jr _ => (0, 0, 0)
  | .loop _ _ _ => (0, 0, 0)
  | .loops _ _ _ => (0, 0, 0)
  | .lbrk _ _ => (0, 0, 0)
  | .region => (0, 0, 0)
  | .endreg => (0, 0, 0)
  | .setfmt _ => (0, 0, 0)
  | .getfmt _ => (0, 0, 0)
  | .rdcyc _ => (0, 0, 0)
  | .waitc _ => (0, 0, 0)
  | .rdwid _ _ => (0, 0, 0)
  | .rdsr _ _ => (0, 0, 0)
  | .wrsr _ _ => (0, 0, 0)
  | .trap _ => (0, 0, 0)
  | .eret => (0, 0, 0)
  | .done => (0, 0, 0)
  | .yield => (0, 0, 0)
  | .radvcImm _ _ => (0, 0, 0)
  | .radvcReg _ _ => (0, 0, 0)
  | .radvpImm _ _ => (0, 0, 0)
  | .radvpReg _ _ => (0, 0, 0)
  | .rstat _ _ => (0, 0, 0)
  | .fladd _ _ => (0, 0, 0)
  | .flrd _ _ => (0, 0, 0)
  | .vadd l _ _ _ _ => (l.bits, 0, 0)
  | .vsub l _ _ _ _ => (l.bits, 0, 0)
  | .vmul l _ _ _ _ => (l.bits, 0, 0)
  | .vfma l _ _ _ _ => (l.bits, 0, 0)
  | .vfms l _ _ _ _ => (l.bits, 0, 0)
  | .vfnma l _ _ _ _ => (l.bits, 0, 0)
  | .vmin l _ _ _ _ => (l.bits, 0, 0)
  | .vmax l _ _ _ _ => (l.bits, 0, 0)
  | .vcps l _ _ _ _ => (l.bits, 0, 0)
  | .vdiv l _ _ _ _ => (l.bits, 0, 0)
  | .viadd l _ _ _ _ => (l.bits, 0, 0)
  | .visub l _ _ _ _ => (l.bits, 0, 0)
  | .vimul l _ _ _ _ => (l.bits, 0, 0)
  | .vimulh l _ _ _ _ => (l.bits, 0, 0)
  | .vimad l _ _ _ _ => (l.bits, 0, 0)
  | .vimin l _ _ _ _ => (l.bits, 0, 0)
  | .vimax l _ _ _ _ => (l.bits, 0, 0)
  | .vand l _ _ _ _ => (l.bits, 0, 0)
  | .vor l _ _ _ _ => (l.bits, 0, 0)
  | .vxor l _ _ _ _ => (l.bits, 0, 0)
  | .vshl l _ _ _ _ => (l.bits, 0, 0)
  | .vshr l _ _ _ _ => (l.bits, 0, 0)
  | .vsar l _ _ _ _ => (l.bits, 0, 0)
  | .vmulw l _ _ _ _ => (l.bits, 0, 0)
  | .vpack l _ _ _ _ => (l.bits, 0, 0)
  | .vscana l _ _ _ _ => (l.bits, 0, 0)
  | .vshfl l _ _ _ _ => (l.bits, 0, 0)
  | .vzip l _ _ _ _ => (l.bits, 0, 0)
  | .vunzip l _ _ _ _ => (l.bits, 0, 0)
  | .vabs l _ _ _ => (l.bits, 0, 0)
  | .vneg l _ _ _ => (l.bits, 0, 0)
  | .vclass l _ _ _ => (l.bits, 0, 0)
  | .vrcp l _ _ _ => (l.bits, 0, 0)
  | .vrsq l _ _ _ => (l.bits, 0, 0)
  | .vexp2 l _ _ _ => (l.bits, 0, 0)
  | .vlog2 l _ _ _ => (l.bits, 0, 0)
  | .vsin l _ _ _ => (l.bits, 0, 0)
  | .vcos l _ _ _ => (l.bits, 0, 0)
  | .vtanh l _ _ _ => (l.bits, 0, 0)
  | .vsigm l _ _ _ => (l.bits, 0, 0)
  | .vnot l _ _ _ => (l.bits, 0, 0)
  | .vpopc l _ _ _ => (l.bits, 0, 0)
  | .vclz l _ _ _ => (l.bits, 0, 0)
  | .vunpk l _ _ _ => (l.bits, 0, 0)
  | .vradd l _ _ _ => (l.bits, 0, 0)
  | .vrmax l _ _ _ => (l.bits, 0, 0)
  | .vrmin l _ _ _ => (l.bits, 0, 0)
  | .vscan l _ _ _ => (l.bits, 0, 0)
  | .vmov l _ _ _ => (l.bits, 0, 0)
  | .vrnd l _ _ _ _ => (l.bits, 0, 0)
  | .vsqrt l _ _ _ _ => (l.bits, 0, 0)
  | .vcvt l _ _ _ _ _ => (l.bits, 0, 0)
  | .vqnt l _ _ _ _ => (l.bits, 0, 0)
  | .vdqnt l _ _ _ _ => (l.bits, 0, 0)
  | .vadc l _ _ _ _ => (l.bits, 0, 0)
  | .vsbc l _ _ _ _ => (l.bits, 0, 0)
  | .vmadc l _ _ _ _ => (l.bits, 0, 0)
  | .vselp l _ _ _ _ => (l.bits, 0, 0)
  | .vcmp l _ _ _ _ _ => (l.bits, 0, 0)
  | .vmodadd l _ _ _ _ => (l.bits, 0, 0)
  | .vmodsub l _ _ _ _ => (l.bits, 0, 0)
  | .vmodmul l _ _ _ _ => (l.bits, 0, 0)
  | .vmodmac l _ _ _ _ => (l.bits, 0, 0)
  | .vmodred l _ _ _ => (l.bits, 0, 0)
  | .vmodneg l _ _ _ => (l.bits, 0, 0)
  | .vmsetm l _ _ => (l.bits, 0, 0)
  | .vmsetk l _ _ => (l.bits, 0, 0)
  | .vbfly l _ _ _ _ => (l.bits, 0, 0)
  | .vbflyi l _ _ _ _ => (l.bits, 0, 0)
  | .vpermb l _ _ _ => (l.bits, 0, 0)
  | .vbcst l _ _ _ => (l.bits, 0, 0)
  | .vext l _ _ _ _ => (l.bits, 0, 0)
  | .vins l _ _ _ _ => (l.bits, 0, 0)
  | .vslide l _ _ _ _ _ => (l.bits, 0, 0)
  | .vld l _ _ _ _ => (l.bits, 0, 0)
  | .vst l _ _ _ _ => (l.bits, 0, 0)
  | .vldx l _ _ _ _ _ => (l.bits, 0, 0)
  | .vstx l _ _ _ _ _ => (l.bits, 0, 0)
  | .vldr l _ _ _ _ _ => (l.bits, 0, 0)
  | .vstr l _ _ _ _ _ => (l.bits, 0, 0)
  | .mcfg l _ _ => (0, l.bits, 0)
  | .mshift l _ _ => (0, l.bits, 0)
  | .mpush l _ _ _ _ => (0, l.bits, 0)
  | .macc l _ _ => (0, l.bits, 0)
  | .mdrain l _ _ _ _ => (0, l.bits, 0)
  | .mdrainq l _ _ _ _ => (0, l.bits, 0)
  | .mzero l _ => (0, l.bits, 0)
  | .mswap l => (0, l.bits, 0)
  | .mgath l _ _ _ => (0, l.bits, 0)
  | .mldacc l _ _ => (0, l.bits, 0)
  | .mstg l _ => (0, l.bits, 0)
  | .mrot l _ => (0, l.bits, 0)
  | .tld q _ _ _ _ => (0, 0, 0#2 ++ q)
  | .tlds q _ _ _ _ => (0, 0, 0#2 ++ q)
  | .tldm q _ _ _ _ => (0, 0, 0#2 ++ q)
  | .rld q _ _ _ _ => (0, 0, 0#2 ++ q)
  | .tst q _ _ _ => (0, 0, 0#2 ++ q)
  | .tsts q _ _ _ => (0, 0, 0#2 ++ q)
  | .rst q _ _ _ => (0, 0, 0#2 ++ q)
  | .sldg q _ _ _ _ => (0, 0, 0#2 ++ q)
  | .sstg q _ _ _ => (0, 0, 0#2 ++ q)
  | .pref q _ => (0, 0, 0#2 ++ q)
  | .atadd q _ _ _ _ _ => (0, 0, 0#2 ++ q)
  | .atfadd q _ _ _ _ _ => (0, 0, 0#2 ++ q)
  | .atmin q _ _ _ _ _ => (0, 0, 0#2 ++ q)
  | .atmax q _ _ _ _ _ => (0, 0, 0#2 ++ q)
  | .atand q _ _ _ _ _ => (0, 0, 0#2 ++ q)
  | .ator q _ _ _ _ _ => (0, 0, 0#2 ++ q)
  | .atxor q _ _ _ _ _ => (0, 0, 0#2 ++ q)
  | .atswp q _ _ _ _ _ => (0, 0, 0#2 ++ q)
  | .atcas q _ _ _ _ _ => (0, 0, 0#2 ++ q)
  | .red q _ _ _ _ => (0, 0, 0#2 ++ q)
  | .fence q _ _ => (0, 0, 0#2 ++ q)
  | .vjoin q => (0, 0, 0#2 ++ q)
  | .strm q _ _ _ _ _ => (0, 0, 0#2 ++ q)
  | .strmx q _ _ => (0, 0, 0#2 ++ q)
  | .cpy q _ _ _ => (0, 0, 0#2 ++ q)
  | .lease q _ _ _ => (0, 0, 0#2 ++ q)
  | .lrecl q _ _ _ => (0, 0, 0#2 ++ q)
  | .krot q _ _ _ => (0, 0, 0#2 ++ q)
  | .seal q _ _ _ => (0, 0, 0#2 ++ q)
  | .unseal q _ _ _ => (0, 0, 0#2 ++ q)
  | .ratm q _ _ _ _ _ => (0, 0, 0#2 ++ q)
  | .xred q _ _ _ _ => (0, 0, 0#2 ++ q)
  | .mapr q _ _ => (0, 0, 0#2 ++ q)
  | .wbr q _ _ => (0, 0, 0#2 ++ q)
  | .scrub q _ _ => (0, 0, 0#2 ++ q)
  | .meas q _ _ => (0, 0, 0#2 ++ q)
  | .invr q _ => (0, 0, 0#2 ++ q)
  | .kqry q _ _ _ => (0, 0, 0#2 ++ q)
  | .syncWait _ _ => (0, 0, 0)
  | .syncPost _ _ => (0, 0, 0)
  | .drainPoint => (0, 0, 0)
  | .mergeYield => (0, 0, 0)
  | .waitcTargetReached _ => (0, 0, 0)
  | .gatherComplete _ => (0, 0, 0)
  | .dividerBusyExpiry _ => (0, 0, 0)
  | .loadDataArrival _ => (0, 0, 0)
  | .flagPostArrival _ => (0, 0, 0)
  | .memoryQueueDepart _ => (0, 0, 0)
  | .gatewayRequest _ => (0, 0, 0)
  | .pageRequestEnqueue _ => (0, 0, 0)
  | .pageRequestRecordWrite _ => (0, 0, 0)
  | .prespWrite _ _ => (0, 0, 0)
  | .lanternStage2Answer _ => (0, 0, 0)
  | .sideLogReplay _ => (0, 0, 0)
  | .homeSliceRequest _ _ _ => (0, 0, 0)
  | .pageReencryption _ => (0, 0, 0)
  | .engineCommandAccept _ => (0, 0, 0)
  | .engineCommandComplete _ => (0, 0, 0)
  | .promiseExpiry _ => (0, 0, 0)
  | .streamSlotStart _ _ => (0, 0, 0)
  | .streamSlotComplete _ _ => (0, 0, 0)
  | .maprFillComplete _ _ => (0, 0, 0)
  | .chunkFillComplete _ _ _ _ => (0, 0, 0)
  | .trapEntry _ => (0, 0, 0)
  | .pendingTrapTake _ => (0, 0, 0)
  | .ctxcmdResume _ _ => (0, 0, 0)
  | .ctxcmdAbort _ _ => (0, 0, 0)
  | .preemptRequest _ => (0, 0, 0)
  | .strandSave _ => (0, 0, 0)
  | .drainBoundExpiry _ => (0, 0, 0)
  | .strandRestore _ _ => (0, 0, 0)
  | .strandRelease _ => (0, 0, 0)
  | .launchComplete _ _ _ => (0, 0, 0)
  | .lqcfgWrite _ _ _ => (0, 0, 0)
  | .lqnotifyWrite _ _ _ => (0, 0, 0)
  | .launchRecordRead _ _ => (0, 0, 0)
  | .launchWaitPoll _ _ _ => (0, 0, 0)
  | .groupDispatch _ _ _ => (0, 0, 0)
  | .launchStarvationTimeout _ _ _ => (0, 0, 0)
  | .lcancelWrite _ _ => (0, 0, 0)
  | .clusterLend _ _ => (0, 0, 0)
  | .borrowIdleTimeout _ => (0, 0, 0)
  | .clusterReclaim _ => (0, 0, 0)
  | .reclaimPhase1Timeout _ => (0, 0, 0)
  | .contractAdmit _ _ => (0, 0, 0)
  | .contractRemove _ _ => (0, 0, 0)
  | .jobRelease _ _ => (0, 0, 0)
  | .contractOverrun _ _ => (0, 0, 0)
  | .deadlineMiss _ _ => (0, 0, 0)
  | .gangReady _ => (0, 0, 0)
  | .gready _ _ => (0, 0, 0)
  | .gabort _ _ => (0, 0, 0)
  | .gangTimeout _ => (0, 0, 0)
  | .eventRingOverflow _ => (0, 0, 0)
  | .prqconsWrite _ _ => (0, 0, 0)
  | .evconsWrite _ _ => (0, 0, 0)
  | .fevconsWrite _ => (0, 0, 0)
  | .s1rootWrite _ _ => (0, 0, 0)
  | .s1invAll _ => (0, 0, 0)
  | .s1invPage _ _ => (0, 0, 0)
  | .s1InvalidationComplete _ => (0, 0, 0)
  | .contextReset _ _ => (0, 0, 0)
  | .queueReset _ _ => (0, 0, 0)
  | .engineReset _ => (0, 0, 0)
  | .partitionReset _ => (0, 0, 0)
  | .deviceReset => (0, 0, 0)
  | .resetRungTimeout _ _ => (0, 0, 0)
  | .vfFunctionLevelReset _ => (0, 0, 0)
  | .pf0FunctionLevelReset => (0, 0, 0)
  | .memclsWrite _ _ => (0, 0, 0)
  | .misscntRead _ _ _ => (0, 0, 0)
  | .dielinkTagFail _ => (0, 0, 0)
  | .dielinkRetrain _ => (0, 0, 0)
  | .dieIsolationTimeout _ => (0, 0, 0)
  | .matchingBoundary _ => (0, 0, 0)
  | .beacon _ _ => (0, 0, 0)
  | .beaconLossTimeout _ => (0, 0, 0)
  | .messageRoute _ => (0, 0, 0)
  | .dataFlit _ _ => (0, 0, 0)
  | .relayDataFlit _ _ _ => (0, 0, 0)
  | .nack _ _ _ => (0, 0, 0)
  | .restripe _ _ _ => (0, 0, 0)
  | .laserModuleFail _ _ => (0, 0, 0)
  | .lossOfLightDeclare _ _ => (0, 0, 0)
  | .fabricRequestReceive _ => (0, 0, 0)
  | .fabricCompletion _ => (0, 0, 0)
  | .fwinWrite _ _ _ => (0, 0, 0)
  | .portRetrain _ => (0, 0, 0)
  | .retrainAttempt _ _ _ _ _ => (0, 0, 0)
  | .tdxInitiate _ _ => (0, 0, 0)
  | .tdxAcceptArm _ _ => (0, 0, 0)
  | .tdxAcceptExpiry _ => (0, 0, 0)
  | .tdxAgreementTimeout _ => (0, 0, 0)
  | .keyAgreementStep1 _ _ => (0, 0, 0)
  | .keyAgreementStep2 _ _ => (0, 0, 0)
  | .keyAgreementStep3 _ _ => (0, 0, 0)
  | .keyAgreementStep4 _ _ => (0, 0, 0)
  | .leaseRequest _ _ _ => (0, 0, 0)
  | .leaseAnswer _ _ _ _ => (0, 0, 0)
  | .leaseAnswerTimeout _ => (0, 0, 0)
  | .levict _ _ => (0, 0, 0)
  | .lack _ => (0, 0, 0)
  | .lackTimeout _ => (0, 0, 0)
  | .hostApertureAccess _ _ => (0, 0, 0)
  | .getTdispVersion _ => (0, 0, 0)
  | .getTdispCapabilities _ => (0, 0, 0)
  | .lockInterfaceRequest _ => (0, 0, 0)
  | .getDeviceInterfaceReport _ => (0, 0, 0)
  | .getDeviceInterfaceState _ => (0, 0, 0)
  | .startInterfaceRequest _ => (0, 0, 0)
  | .stopInterfaceRequest _ => (0, 0, 0)
  | .stage2ChangeRequest _ _ => (0, 0, 0)
  | .getVersion _ => (0, 0, 0)
  | .getCapabilities _ => (0, 0, 0)
  | .negotiateAlgorithms _ _ => (0, 0, 0)
  | .getDigests _ => (0, 0, 0)
  | .getCertificate _ _ => (0, 0, 0)
  | .challenge _ _ => (0, 0, 0)
  | .getMeasurements _ _ => (0, 0, 0)
  | .keyExchange _ _ => (0, 0, 0)
  | .finish _ _ _ => (0, 0, 0)
  | .keyUpdate _ _ => (0, 0, 0)
  | .heartbeat _ _ => (0, 0, 0)
  | .endSession _ _ => (0, 0, 0)
  | .ideKm _ _ _ _ => (0, 0, 0)
  | .powerUp => (0, 0, 0)
  | .recovctlGo _ => (0, 0, 0)
  | .featctlGo => (0, 0, 0)
  | .partitionCreate _ => (0, 0, 0)
  | .partitionDestroy _ => (0, 0, 0)
  | .rbreqGo _ => (0, 0, 0)
  | .readbackComplete => (0, 0, 0)
  | .powerClamp _ => (0, 0, 0)
  | .thermalShutdown => (0, 0, 0)
  | .registerWrite _ _ _ => (0, 0, 0)
  | .nop => (0, 0, 0)
  | .powerRemoval => (0, 0, 0)
  | .dieLinkDown _ => (0, 0, 0)
  | .tenantRootKeyProvision _ _ _ => (0, 0, 0)

/-! ## Opcode maps -/

/-- The slot A opcode map (R72): the instruction an opcode names, its fields read by the format (R71). -/
def rawA (w : SlotWord) : Option Instr :=
  match (fld w 25 7).toNat with
  | 0x01 => some (.add (fld w 19 6) (fld w 13 6) (fld w 7 6))
  | 0x02 => some (.sub (fld w 19 6) (fld w 13 6) (fld w 7 6))
  | 0x03 => some (.mul (fld w 19 6) (fld w 13 6) (fld w 7 6))
  | 0x04 => some (.mulhi (fld w 19 6) (fld w 13 6) (fld w 7 6))
  | 0x05 => some (.mulhn (fld w 19 6) (fld w 13 6) (fld w 7 6))
  | 0x06 => some (.div (fld w 19 6) (fld w 13 6) (fld w 7 6))
  | 0x07 => some (.divn (fld w 19 6) (fld w 13 6) (fld w 7 6))
  | 0x08 => some (.rem (fld w 19 6) (fld w 13 6) (fld w 7 6))
  | 0x09 => some (.remn (fld w 19 6) (fld w 13 6) (fld w 7 6))
  | 0x0a => some (.and (fld w 19 6) (fld w 13 6) (fld w 7 6))
  | 0x0b => some (.or (fld w 19 6) (fld w 13 6) (fld w 7 6))
  | 0x0c => some (.xor (fld w 19 6) (fld w 13 6) (fld w 7 6))
  | 0x0d => some (.andn (fld w 19 6) (fld w 13 6) (fld w 7 6))
  | 0x0e => some (.shl (fld w 19 6) (fld w 13 6) (fld w 7 6))
  | 0x0f => some (.shr (fld w 19 6) (fld w 13 6) (fld w 7 6))
  | 0x10 => some (.sar (fld w 19 6) (fld w 13 6) (fld w 7 6))
  | 0x11 => some (.rotl (fld w 19 6) (fld w 13 6) (fld w 7 6))
  | 0x12 => some (.min (fld w 19 6) (fld w 13 6) (fld w 7 6))
  | 0x13 => some (.minn (fld w 19 6) (fld w 13 6) (fld w 7 6))
  | 0x14 => some (.max (fld w 19 6) (fld w 13 6) (fld w 7 6))
  | 0x15 => some (.maxn (fld w 19 6) (fld w 13 6) (fld w 7 6))
  | 0x16 => some (.clz (fld w 19 6) (fld w 13 6))
  | 0x17 => some (.ctz (fld w 19 6) (fld w 13 6))
  | 0x18 => some (.popc (fld w 19 6) (fld w 13 6))
  | 0x19 => some (.sel (fld w 19 6) (fld w 3 4) (fld w 13 6) (fld w 7 6))
  | 0x1a => some (.cmp (Cc.ofCode (fld w 3 4)) (fld w 19 4) (fld w 13 6) (fld w 7 6))
  | 0x20 => some (.addi (fld w 19 6) (fld w 13 6) (fld w 0 13))
  | 0x21 => some (.andi (fld w 19 6) (fld w 13 6) (fld w 0 13))
  | 0x22 => some (.ori (fld w 19 6) (fld w 13 6) (fld w 0 13))
  | 0x23 => some (.xori (fld w 19 6) (fld w 13 6) (fld w 0 13))
  | 0x24 => some (.shli (fld w 19 6) (fld w 13 6) (fld w 0 6))
  | 0x25 => some (.shri (fld w 19 6) (fld w 13 6) (fld w 0 6))
  | 0x26 => some (.sari (fld w 19 6) (fld w 13 6) (fld w 0 6))
  | 0x27 => some (.sext (fld w 19 6) (fld w 13 6) (fld w 0 6))
  | 0x28 => some (.zext (fld w 19 6) (fld w 13 6) (fld w 0 6))
  | 0x29 => some (.movi (fld w 19 6) (fld w 0 19))
  | 0x2a => some (.movhi (fld w 19 6) (fld w 17 2) (fld w 0 16))
  | 0x2b => some (.lds (Sz.ofCode (fld w 11 2)) (fld w 19 6) (fld w 13 6) (fld w 0 11))
  | 0x2c => some (.sts (Sz.ofCode (fld w 11 2)) (fld w 19 6) (fld w 13 6) (fld w 0 11))
  | 0x30 => some (.pand (fld w 21 4) (fld w 17 4) (fld w 13 4))
  | 0x31 => some (.por (fld w 21 4) (fld w 17 4) (fld w 13 4))
  | 0x32 => some (.pxor (fld w 21 4) (fld w 17 4) (fld w 13 4))
  | 0x33 => some (.pnot (fld w 21 4) (fld w 17 4))
  | 0x34 => some (.pmov (fld w 21 4) (fld w 17 4))
  | 0x40 => some (.br (fld w 0 19))
  | 0x41 => some (.brp (BrTest.ofCode (fld w 19 2)) (fld w 21 4) (fld w 0 19))
  | 0x42 => some (.call (fld w 19 6) (fld w 0 19))
  | 0x43 => some (.ret (fld w 13 6))
  | 0x44 => some (.jr (fld w 13 6))
  | 0x45 => some (.loop (fld w 19 6) (fld w 13 6) (fld w 0 13))
  | 0x46 => some (.loops (fld w 19 6) (fld w 13 6) (fld w 0 13))
  | 0x47 => some (.lbrk (fld w 13 6) (fld w 0 1 == 1))
  | 0x48 => some (.region)
  | 0x49 => some (.endreg)
  | 0x50 => some (.setfmt (fld w 0 13))
  | 0x51 => some (.getfmt (fld w 19 6))
  | 0x52 => some (.rdcyc (fld w 19 6))
  | 0x53 => some (.waitc (fld w 13 6))
  | 0x54 => some (.rdwid (fld w 19 6) (fld w 0 3))
  | 0x55 => some (.rdsr (fld w 19 6) (fld w 0 12))
  | 0x56 => some (.wrsr (fld w 0 12) (fld w 13 6))
  | 0x60 => some (.trap (fld w 0 13))
  | 0x61 => some (.eret)
  | 0x62 => some (.done)
  | 0x63 => some (.yield)
  | 0x64 => some (if fld w 13 6 = 0 then .radvcImm (fld w 19 4) (fld w 0 12) else .radvcReg (fld w 19 4) (fld w 13 6))
  | 0x65 => some (if fld w 13 6 = 0 then .radvpImm (fld w 19 4) (fld w 0 12) else .radvpReg (fld w 19 4) (fld w 13 6))
  | 0x66 => some (.rstat (fld w 19 6) (fld w 0 4))
  | 0x67 => some (.fladd (fld w 0 5) (fld w 13 6))
  | 0x68 => some (.flrd (fld w 19 6) (fld w 0 5))
  | _ => none

/-- The slot B opcode map (R75): fields by the formats of R73. -/
def rawB (l : LentB) (w : SlotWord) : Option Instr :=
  match (fld w 25 7).toNat with
  | 0x01 => some (.vadd l (Ty.ofCode (fld w 0 4)) (fld w 18 7) (fld w 11 7) (fld w 4 7))
  | 0x02 => some (.vsub l (Ty.ofCode (fld w 0 4)) (fld w 18 7) (fld w 11 7) (fld w 4 7))
  | 0x03 => some (.vmul l (Ty.ofCode (fld w 0 4)) (fld w 18 7) (fld w 11 7) (fld w 4 7))
  | 0x04 => some (.vfma l (Ty.ofCode (fld w 0 4)) (fld w 18 7) (fld w 11 7) (fld w 4 7))
  | 0x05 => some (.vfms l (Ty.ofCode (fld w 0 4)) (fld w 18 7) (fld w 11 7) (fld w 4 7))
  | 0x06 => some (.vfnma l (Ty.ofCode (fld w 0 4)) (fld w 18 7) (fld w 11 7) (fld w 4 7))
  | 0x07 => some (.vmin l (Ty.ofCode (fld w 0 4)) (fld w 18 7) (fld w 11 7) (fld w 4 7))
  | 0x08 => some (.vmax l (Ty.ofCode (fld w 0 4)) (fld w 18 7) (fld w 11 7) (fld w 4 7))
  | 0x09 => some (.vcps l (Ty.ofCode (fld w 0 4)) (fld w 18 7) (fld w 11 7) (fld w 4 7))
  | 0x0a => some (.vdiv l (Ty.ofCode (fld w 0 4)) (fld w 18 7) (fld w 11 7) (fld w 4 7))
  | 0x20 => some (.viadd l (Ty.ofCode (fld w 0 4)) (fld w 18 7) (fld w 11 7) (fld w 4 7))
  | 0x21 => some (.visub l (Ty.ofCode (fld w 0 4)) (fld w 18 7) (fld w 11 7) (fld w 4 7))
  | 0x22 => some (.vimul l (Ty.ofCode (fld w 0 4)) (fld w 18 7) (fld w 11 7) (fld w 4 7))
  | 0x23 => some (.vimulh l (Ty.ofCode (fld w 0 4)) (fld w 18 7) (fld w 11 7) (fld w 4 7))
  | 0x24 => some (.vimad l (Ty.ofCode (fld w 0 4)) (fld w 18 7) (fld w 11 7) (fld w 4 7))
  | 0x25 => some (.vimin l (Ty.ofCode (fld w 0 4)) (fld w 18 7) (fld w 11 7) (fld w 4 7))
  | 0x26 => some (.vimax l (Ty.ofCode (fld w 0 4)) (fld w 18 7) (fld w 11 7) (fld w 4 7))
  | 0x27 => some (.vand l (Ty.ofCode (fld w 0 4)) (fld w 18 7) (fld w 11 7) (fld w 4 7))
  | 0x28 => some (.vor l (Ty.ofCode (fld w 0 4)) (fld w 18 7) (fld w 11 7) (fld w 4 7))
  | 0x29 => some (.vxor l (Ty.ofCode (fld w 0 4)) (fld w 18 7) (fld w 11 7) (fld w 4 7))
  | 0x2b => some (.vshl l (Ty.ofCode (fld w 0 4)) (fld w 18 7) (fld w 11 7) (fld w 4 7))
  | 0x2c => some (.vshr l (Ty.ofCode (fld w 0 4)) (fld w 18 7) (fld w 11 7) (fld w 4 7))
  | 0x2d => some (.vsar l (Ty.ofCode (fld w 0 4)) (fld w 18 7) (fld w 11 7) (fld w 4 7))
  | 0x33 => some (.vmulw l (Ty.ofCode (fld w 0 4)) (fld w 18 7) (fld w 11 7) (fld w 4 7))
  | 0x43 => some (.vpack l (Ty.ofCode (fld w 0 4)) (fld w 18 7) (fld w 11 7) (fld w 4 7))
  | 0x49 => some (.vscana l (Ty.ofCode (fld w 0 4)) (fld w 18 7) (fld w 11 7) (fld w 4 7))
  | 0x54 => some (.vshfl l (Ty.ofCode (fld w 0 4)) (fld w 18 7) (fld w 11 7) (fld w 4 7))
  | 0x56 => some (.vzip l (Ty.ofCode (fld w 0 4)) (fld w 18 7) (fld w 11 7) (fld w 4 7))
  | 0x57 => some (.vunzip l (Ty.ofCode (fld w 0 4)) (fld w 18 7) (fld w 11 7) (fld w 4 7))
  | 0x10 => some (.vabs l (Ty.ofCode (fld w 0 4)) (fld w 18 7) (fld w 11 7))
  | 0x11 => some (.vneg l (Ty.ofCode (fld w 0 4)) (fld w 18 7) (fld w 11 7))
  | 0x13 => some (.vclass l (Ty.ofCode (fld w 0 4)) (fld w 18 7) (fld w 11 7))
  | 0x14 => some (.vrcp l (Ty.ofCode (fld w 0 4)) (fld w 18 7) (fld w 11 7))
  | 0x15 => some (.vrsq l (Ty.ofCode (fld w 0 4)) (fld w 18 7) (fld w 11 7))
  | 0x17 => some (.vexp2 l (Ty.ofCode (fld w 0 4)) (fld w 18 7) (fld w 11 7))
  | 0x18 => some (.vlog2 l (Ty.ofCode (fld w 0 4)) (fld w 18 7) (fld w 11 7))
  | 0x19 => some (.vsin l (Ty.ofCode (fld w 0 4)) (fld w 18 7) (fld w 11 7))
  | 0x1a => some (.vcos l (Ty.ofCode (fld w 0 4)) (fld w 18 7) (fld w 11 7))
  | 0x1b => some (.vtanh l (Ty.ofCode (fld w 0 4)) (fld w 18 7) (fld w 11 7))
  | 0x1c => some (.vsigm l (Ty.ofCode (fld w 0 4)) (fld w 18 7) (fld w 11 7))
  | 0x2a => some (.vnot l (Ty.ofCode (fld w 0 4)) (fld w 18 7) (fld w 11 7))
  | 0x2e => some (.vpopc l (Ty.ofCode (fld w 0 4)) (fld w 18 7) (fld w 11 7))
  | 0x2f => some (.vclz l (Ty.ofCode (fld w 0 4)) (fld w 18 7) (fld w 11 7))
  | 0x44 => some (.vunpk l (Ty.ofCode (fld w 0 4)) (fld w 18 7) (fld w 11 7))
  | 0x45 => some (.vradd l (Ty.ofCode (fld w 0 4)) (fld w 18 7) (fld w 11 7))
  | 0x46 => some (.vrmax l (Ty.ofCode (fld w 0 4)) (fld w 18 7) (fld w 11 7))
  | 0x47 => some (.vrmin l (Ty.ofCode (fld w 0 4)) (fld w 18 7) (fld w 11 7))
  | 0x48 => some (.vscan l (Ty.ofCode (fld w 0 4)) (fld w 18 7) (fld w 11 7))
  | 0x50 => some (.vmov l (Ty.ofCode (fld w 0 4)) (fld w 18 7) (fld w 11 7))
  | 0x12 => some (.vrnd l (Rm.ofCode (fld w 8 3)) (Ty.ofCode (fld w 0 4)) (fld w 18 7) (fld w 11 7))
  | 0x16 => some (.vsqrt l (Rm.ofCode (fld w 8 3)) (Ty.ofCode (fld w 0 4)) (fld w 18 7) (fld w 11 7))
  | 0x40 => some (.vcvt l (Rm.ofCode (fld w 8 3)) (Ty.ofCode (fld w 0 4)) (Ty.ofCode (fld w 4 4)) (fld w 18 7) (fld w 11 7))
  | 0x41 => some (.vqnt l (Bk.ofCode (fld w 4 4)) (Ty.ofCode (fld w 0 4)) (fld w 18 7) (fld w 11 7))
  | 0x42 => some (.vdqnt l (Ty.ofCode (fld w 0 4)) (Bk.ofCode (fld w 4 4)) (fld w 18 7) (fld w 11 7))
  | 0x30 => some (.vadc l (fld w 18 7) (fld w 11 7) (fld w 4 7) (fld w 0 4))
  | 0x31 => some (.vsbc l (fld w 18 7) (fld w 11 7) (fld w 4 7) (fld w 0 4))
  | 0x32 => some (.vmadc l (fld w 18 7) (fld w 11 7) (fld w 4 7) (fld w 0 4))
  | 0x58 => some (.vselp l (fld w 18 7) (fld w 11 7) (fld w 4 7) (fld w 0 4))
  | 0x0b => some (.vcmp l (VCc.ofCode (fld w 18 3)) (Ty.ofCode (fld w 0 4)) (fld w 21 4) (fld w 11 7) (fld w 4 7))
  | 0x34 => some (.vmodadd l (fld w 18 7) (fld w 11 7) (fld w 4 7) (fld w 2 2))
  | 0x35 => some (.vmodsub l (fld w 18 7) (fld w 11 7) (fld w 4 7) (fld w 2 2))
  | 0x36 => some (.vmodmul l (fld w 18 7) (fld w 11 7) (fld w 4 7) (fld w 2 2))
  | 0x37 => some (.vmodmac l (fld w 18 7) (fld w 11 7) (fld w 4 7) (fld w 2 2))
  | 0x38 => some (.vmodred l (fld w 18 7) (fld w 11 7) (fld w 2 2))
  | 0x39 => some (.vmodneg l (fld w 18 7) (fld w 11 7) (fld w 2 2))
  | 0x3a => some (.vmsetm l (fld w 2 2) (fld w 11 7))
  | 0x3b => some (.vmsetk l (fld w 2 2) (fld w 11 7))
  | 0x3c => some (.vbfly l (fld w 18 7) (fld w 11 7) (fld w 9 2) (fld w 4 5))
  | 0x3d => some (.vbflyi l (fld w 18 7) (fld w 11 7) (fld w 9 2) (fld w 4 5))
  | 0x3e => some (.vpermb l (fld w 18 7) (fld w 11 7) (fld w 4 5))
  | 0x51 => some (.vbcst l (Ty.ofCode (fld w 0 4)) (fld w 18 7) (fld w 12 6))
  | 0x52 => some (.vext l (Ty.ofCode (fld w 0 4)) (fld w 12 6) (fld w 18 7) (fld w 6 6))
  | 0x53 => some (.vins l (Ty.ofCode (fld w 0 4)) (fld w 18 7) (fld w 12 6) (fld w 6 6))
  | 0x55 => some (.vslide l (Ty.ofCode (fld w 0 4)) (fld w 4 1 == 1) (fld w 18 7) (fld w 11 7) (fld w 5 6))
  | 0x60 => some (.vld l (View.ofCode (fld w 11 1)) (fld w 18 7) (fld w 12 6) (fld w 0 11))
  | 0x61 => some (.vst l (View.ofCode (fld w 11 1)) (fld w 18 7) (fld w 12 6) (fld w 0 11))
  | 0x62 => some (.vldx l (View.ofCode (fld w 11 1)) (Ty.ofCode (fld w 0 4)) (fld w 18 7) (fld w 12 6) (fld w 4 7))
  | 0x63 => some (.vstx l (View.ofCode (fld w 11 1)) (Ty.ofCode (fld w 0 4)) (fld w 18 7) (fld w 12 6) (fld w 4 7))
  | 0x64 => some (.vldr l (View.ofCode (fld w 13 1)) (fld w 18 7) (fld w 14 4) (fld w 5 8) (fld w 0 5))
  | 0x65 => some (.vstr l (View.ofCode (fld w 13 1)) (fld w 18 7) (fld w 14 4) (fld w 5 8) (fld w 0 5))
  | _ => none

/-- The slot C opcode map (R77): fields by the formats of R76. -/
def rawC (l : LentC) (w : SlotWord) : Option Instr :=
  match (fld w 25 7).toNat with
  | 0x01 => some (.mcfg l (fld w 18 7) (fld w 10 8))
  | 0x02 => some (.mshift l (fld w 18 7) (fld w 11 7))
  | 0x03 => some (.mpush l (fld w 18 7) (fld w 9 9) (fld w 5 1 == 1) (fld w 6 1 == 1))
  | 0x04 => some (.macc l (fld w 18 7) (fld w 9 9))
  | 0x05 => some (.mdrain l (Ty.ofCode (fld w 5 4)) (fld w 4 1 == 1) (fld w 18 7) (fld w 9 9))
  | 0x06 => some (.mdrainq l (Bk.ofCode (fld w 5 4)) (fld w 4 1 == 1) (fld w 18 7) (fld w 9 9))
  | 0x07 => some (.mzero l (fld w 9 9))
  | 0x08 => some (.mswap l)
  | 0x09 => some (.mgath l (View.ofCode (fld w 11 1)) (fld w 18 7) (fld w 12 6))
  | 0x0a => some (.mldacc l (fld w 18 7) (fld w 9 9))
  | 0x0b => some (.mstg l (fld w 18 7))
  | 0x0c => some (.mrot l (fld w 11 7))
  | _ => none

/-- The slot D opcode map (R80): fields by the formats of R78 and R79. -/
def rawD (q : BitVec 4) (w : SlotWord) : Option Instr :=
  match (fld w 25 7).toNat with
  | 0x01 => some (.tld q (Grp.ofCode (fld w 0 2)) (fld w 18 7) (fld w 12 6) (fld w 2 10))
  | 0x02 => some (.tlds q (Grp.ofCode (fld w 0 2)) (fld w 18 7) (fld w 12 6) (fld w 2 10))
  | 0x03 => some (.tldm q (Grp.ofCode (fld w 0 2)) (fld w 18 7) (fld w 12 6) (fld w 2 10))
  | 0x31 => some (.rld q (Grp.ofCode (fld w 0 2)) (fld w 18 7) (fld w 12 6) (fld w 2 10))
  | 0x04 => some (.tst q (Grp.ofCode (fld w 0 2)) (fld w 18 7) (fld w 12 6))
  | 0x05 => some (.tsts q (Grp.ofCode (fld w 0 2)) (fld w 18 7) (fld w 12 6))
  | 0x30 => some (.rst q (Grp.ofCode (fld w 0 2)) (fld w 18 7) (fld w 12 6))
  | 0x06 => some (.sldg q (Sz.ofCode (fld w 0 2)) (fld w 18 6) (fld w 12 6) (fld w 2 10))
  | 0x07 => some (.sstg q (Sz.ofCode (fld w 0 2)) (fld w 18 6) (fld w 12 6))
  | 0x08 => some (.pref q (fld w 13 6))
  | 0x10 => some (.atadd q (As.ofCode (fld w 5 2)) (fld w 19 6) (fld w 13 6) (fld w 7 6) (fld w 0 5))
  | 0x11 => some (.atfadd q (As.ofCode (fld w 5 2)) (fld w 19 6) (fld w 13 6) (fld w 7 6) (fld w 0 5))
  | 0x12 => some (.atmin q (As.ofCode (fld w 5 2)) (fld w 19 6) (fld w 13 6) (fld w 7 6) (fld w 0 5))
  | 0x13 => some (.atmax q (As.ofCode (fld w 5 2)) (fld w 19 6) (fld w 13 6) (fld w 7 6) (fld w 0 5))
  | 0x14 => some (.atand q (As.ofCode (fld w 5 2)) (fld w 19 6) (fld w 13 6) (fld w 7 6) (fld w 0 5))
  | 0x15 => some (.ator q (As.ofCode (fld w 5 2)) (fld w 19 6) (fld w 13 6) (fld w 7 6) (fld w 0 5))
  | 0x16 => some (.atxor q (As.ofCode (fld w 5 2)) (fld w 19 6) (fld w 13 6) (fld w 7 6) (fld w 0 5))
  | 0x17 => some (.atswp q (As.ofCode (fld w 5 2)) (fld w 19 6) (fld w 13 6) (fld w 7 6) (fld w 0 5))
  | 0x18 => some (.atcas q (As.ofCode (fld w 5 2)) (fld w 19 6) (fld w 13 6) (fld w 7 6) (fld w 0 5))
  | 0x19 => some (.red q (RedOp.ofCode (fld w 19 3)) (As.ofCode (fld w 5 2)) (fld w 13 6) (fld w 7 6))
  | 0x20 => some (.fence q (Scope.ofCode (fld w 0 3)) (FenceKind.ofCode (fld w 3 2)))
  | 0x21 => some (.vjoin q)
  | 0x22 => some (.strm q (fld w 19 6) (fld w 13 6) (fld w 7 6) (fld w 0 4) (fld w 4 1 == 1))
  | 0x23 => some (.strmx q (fld w 19 6) (fld w 0 4))
  | 0x24 => some (.cpy q (fld w 19 6) (fld w 13 6) (fld w 7 6))
  | 0x34 => some (.lease q (fld w 19 6) (fld w 13 6) (fld w 7 6))
  | 0x35 => some (.lrecl q (fld w 19 6) (fld w 13 6) (fld w 7 6))
  | 0x50 => some (.krot q (fld w 19 6) (fld w 13 6) (fld w 7 6))
  | 0x52 => some (.seal q (fld w 19 6) (fld w 13 6) (fld w 7 6))
  | 0x53 => some (.unseal q (fld w 19 6) (fld w 13 6) (fld w 7 6))
  | 0x32 => some (.ratm q (AtomOp.ofCode (fld w 0 4)) (As.ofCode (fld w 4 2)) (fld w 19 6) (fld w 13 6) (fld w 7 6))
  | 0x33 => some (.xred q (fld w 0 1 == 1) (fld w 19 6) (fld w 13 6) (fld w 7 6))
  | 0x40 => some (.mapr q (fld w 19 6) (fld w 13 6))
  | 0x41 => some (.wbr q (fld w 19 6) (fld w 13 6))
  | 0x54 => some (.scrub q (fld w 19 6) (fld w 13 6))
  | 0x55 => some (.meas q (fld w 19 6) (fld w 13 6))
  | 0x42 => some (.invr q (fld w 13 6))
  | 0x51 => some (.kqry q (KqSel.ofCode (fld w 0 3)) (fld w 19 6) (fld w 13 6))
  | _ => none

/-- Slots of a bundle (R60). -/
def slotOf (b : BundleWord) (k : Nat) : SlotWord := b.extractLsb' (32 * k) 32

/-- The bundle of four slot words (R60). -/
def bundle (d c b a : SlotWord) : BundleWord := d ++ c ++ b ++ a

/-! ## Slots -/

/-- Format AR, whose low seven bits are the short header (R67, R71). -/
def isAR (w : SlotWord) : Bool := 1 ≤ (fld w 25 7).toNat && (fld w 25 7).toNat ≤ 0x18

/-- An instruction read from a slot is accepted when its own word is the word read and it is well formed (R81). -/
def accept (o : Option Instr) (w : SlotWord) : Option Instr :=
  match o with
  | some i => if i.word = w ∧ i.wf = true then some i else none
  | none => none

/-- Slot A without its short header (R67). -/
def bareA (w : SlotWord) : SlotWord := if isAR w then w.extractLsb' 7 25 ++ 0#7 else w

/-- The actions of a short header (R67): DP, and a post of 1 when SP = 1. -/
def shortHdr (w : SlotWord) : List Instr :=
  if isAR w then
    (if fld w 6 1 = 1 then [.drainPoint] else []) ++ (if fld w 5 1 = 1 then [.syncPost (fld w 0 5) 1] else [])
  else []

/-- With SP = 0 the field SF is zero (R67). -/
def shortOk (w : SlotWord) : Bool := !isAR w || fld w 5 1 = 1 || fld w 0 5 = 0

/-- Slot A holding an instruction. -/
def decodeA (w : SlotWord) : Option Instr := if shortOk w then accept (rawA (bareA w)) (bareA w) else none
/-- Slot B. -/
def decodeB (lb : BitVec 6) (w : SlotWord) : Option Instr := accept (rawB (.ofBits lb) w) w
/-- Slot C. -/
def decodeC (lc : BitVec 6) (w : SlotWord) : Option Instr := accept (rawC (.ofBits lc) w) w
/-- Slot D. -/
def decodeD (ld : BitVec 6) (w : SlotWord) : Option Instr := accept (rawD (ld.extractLsb' 0 4) w) w

/-! ## The header (R63 to R66) -/

/-- Slot A is a header (R63). -/
def isHdr (a : SlotWord) : Bool := fld a 25 7 = 0x7F

/-- The lent bits LB, LC and LD of a bundle (R63): zero without a header, and LD zero when SOP ≠ 0. -/
def lentOf (a : SlotWord) : BitVec 6 × BitVec 6 × BitVec 6 :=
  if isHdr a then (fld a 0 6, fld a 6 6, if fld a 22 2 = 0 then fld a 14 6 else 0) else (0, 0, 0)

/-- The header actions, in the order dp, mh, wait or post (R63 to R65). -/
def hdrActions (a : SlotWord) : List Instr :=
  if isHdr a then
    (if fld a 24 1 = 1 then [.drainPoint] else []) ++ (if fld a 12 2 = 1 then [.mergeYield] else []) ++
    (if fld a 22 2 = 1 then [.syncWait (fld a 17 5) (fld a 14 3)]
     else if fld a 22 2 = 2 then [.syncPost (fld a 17 5) (fld a 14 3)] else [])
  else shortHdr a

/-- The opcodes with a third operand latch (R66). -/
def hasC (b : SlotWord) : Bool :=
  let op := (fld b 25 7).toNat
  op == 4 || op == 5 || op == 6 || op == 0x24 || op == 0x37 || op == 0x32 || op == 0x49

/-- A header is assigned (R63, R66, R81): no reserved code, no reserved lent bit, nothing lent to a slot that holds NOP, no group
code 3, no HC for an instruction without a third latch. -/
def hdrOk (w : BundleWord) : Bool :=
  let a := slotOf w 0
  let lb := (lentOf a).1
  let lc := (lentOf a).2.1
  let ld := (lentOf a).2.2
  !isHdr a ||
    (fld a 22 2 != 3 && (fld a 22 2 != 0 || fld a 20 2 == 0) && fld a 13 1 == 0 &&
     lc.extractLsb' 4 2 == 0 && ld.extractLsb' 4 2 == 0 && lb.extractLsb' 3 2 != 3 &&
     (lb == 0 || slotOf w 1 != 0) && (lc == 0 || slotOf w 2 != 0) && (ld == 0 || slotOf w 3 != 0) &&
     (lb.extractLsb' 5 1 == 0 || hasC (slotOf w 1)))

/-! ## Destinations (R81) -/

/-- A destination an instruction names (R81). -/
inductive Dest where
  | s (r : Nat)
  | v (r : Nat)
  | p (r : Nat)
  deriving DecidableEq, Repr

/-- A scalar destination; s0 never counts (R15, R81). -/
def destS (r : BitVec 6) : List Dest := if r = 0 then [] else [.s r.toNat]
/-- A predicate destination; p0 never counts (R15, R81). -/
def destP (r : BitVec 4) : List Dest := if r = 0 then [] else [.p r.toNat]
/-- A vector group. -/
def destV (r : BitVec 7) (g : Nat) : List Dest := (List.range g).map fun k => .v (r.toNat + k)

/-- The destinations an instruction names (R81). -/
def Instr.dests : Instr → List Dest
  | .add d _ _ => destS d
  | .sub d _ _ => destS d
  | .mul d _ _ => destS d
  | .mulhi d _ _ => destS d
  | .mulhn d _ _ => destS d
  | .div d _ _ => destS d
  | .divn d _ _ => destS d
  | .rem d _ _ => destS d
  | .remn d _ _ => destS d
  | .and d _ _ => destS d
  | .or d _ _ => destS d
  | .xor d _ _ => destS d
  | .andn d _ _ => destS d
  | .shl d _ _ => destS d
  | .shr d _ _ => destS d
  | .sar d _ _ => destS d
  | .rotl d _ _ => destS d
  | .min d _ _ => destS d
  | .minn d _ _ => destS d
  | .max d _ _ => destS d
  | .maxn d _ _ => destS d
  | .clz d _ => destS d
  | .ctz d _ => destS d
  | .popc d _ => destS d
  | .sel d _ _ _ => destS d
  | .cmp _ p _ _ => destP p
  | .addi d _ _ => destS d
  | .andi d _ _ => destS d
  | .ori d _ _ => destS d
  | .xori d _ _ => destS d
  | .shli d _ _ => destS d
  | .shri d _ _ => destS d
  | .sari d _ _ => destS d
  | .sext d _ _ => destS d
  | .zext d _ _ => destS d
  | .movi d _ => destS d
  | .movhi d _ _ => destS d
  | .lds _ d _ _ => destS d
  | .sts _ _ _ _ => []
  | .pand d _ _ => destP d
  | .por d _ _ => destP d
  | .pxor d _ _ => destP d
  | .pnot d _ => destP d
  | .pmov d _ => destP d
  | .br _ => []
  | .brp _ _ _ => []
  | .call d _ => destS d
  | .ret _ => []
  | .jr _ => []
  | .loop _ _ _ => []
  | .loops _ _ _ => []
  | .lbrk _ _ => []
  | .region => []
  | .endreg => []
  | .setfmt _ => []
  | .getfmt d => destS d
  | .rdcyc d => destS d
  | .waitc _ => []
  | .rdwid d _ => destS d
  | .rdsr d _ => destS d
  | .wrsr _ _ => []
  | .trap _ => []
  | .eret => []
  | .done => []
  | .yield => []
  | .radvcImm _ _ => []
  | .radvcReg _ _ => []
  | .radvpImm _ _ => []
  | .radvpReg _ _ => []
  | .rstat d _ => destS d
  | .fladd _ _ => []
  | .flrd d _ => destS d
  | .vadd l _ d _ _ => destV d l.g.size
  | .vsub l _ d _ _ => destV d l.g.size
  | .vmul l _ d _ _ => destV d l.g.size
  | .vfma l _ d _ _ => destV d l.g.size
  | .vfms l _ d _ _ => destV d l.g.size
  | .vfnma l _ d _ _ => destV d l.g.size
  | .vmin l _ d _ _ => destV d l.g.size
  | .vmax l _ d _ _ => destV d l.g.size
  | .vcps l _ d _ _ => destV d l.g.size
  | .vdiv l _ d _ _ => destV d l.g.size
  | .viadd l _ d _ _ => destV d l.g.size
  | .visub l _ d _ _ => destV d l.g.size
  | .vimul l _ d _ _ => destV d l.g.size
  | .vimulh l _ d _ _ => destV d l.g.size
  | .vimad l _ d _ _ => destV d l.g.size
  | .vimin l _ d _ _ => destV d l.g.size
  | .vimax l _ d _ _ => destV d l.g.size
  | .vand l _ d _ _ => destV d l.g.size
  | .vor l _ d _ _ => destV d l.g.size
  | .vxor l _ d _ _ => destV d l.g.size
  | .vshl l _ d _ _ => destV d l.g.size
  | .vshr l _ d _ _ => destV d l.g.size
  | .vsar l _ d _ _ => destV d l.g.size
  | .vmulw l _ d _ _ => destV d (2 * l.g.size)
  | .vpack l _ d _ _ => destV d l.g.size
  | .vscana l _ d _ _ => destV d l.g.size
  | .vshfl l _ d _ _ => destV d l.g.size
  | .vzip l _ d _ _ => destV d l.g.size
  | .vunzip l _ d _ _ => destV d l.g.size
  | .vabs l _ d _ => destV d l.g.size
  | .vneg l _ d _ => destV d l.g.size
  | .vclass l _ d _ => destV d l.g.size
  | .vrcp l _ d _ => destV d l.g.size
  | .vrsq l _ d _ => destV d l.g.size
  | .vexp2 l _ d _ => destV d l.g.size
  | .vlog2 l _ d _ => destV d l.g.size
  | .vsin l _ d _ => destV d l.g.size
  | .vcos l _ d _ => destV d l.g.size
  | .vtanh l _ d _ => destV d l.g.size
  | .vsigm l _ d _ => destV d l.g.size
  | .vnot l _ d _ => destV d l.g.size
  | .vpopc l _ d _ => destV d l.g.size
  | .vclz l _ d _ => destV d l.g.size
  | .vunpk l _ d _ => destV d (2 * l.g.size)
  | .vradd l _ d _ => destV d l.g.size
  | .vrmax l _ d _ => destV d l.g.size
  | .vrmin l _ d _ => destV d l.g.size
  | .vscan l _ d _ => destV d l.g.size
  | .vmov l _ d _ => destV d l.g.size
  | .vrnd l _ _ d _ => destV d l.g.size
  | .vsqrt l _ _ d _ => destV d l.g.size
  | .vcvt l _ t u d _ => destV d (((wide l.g.size t u).getD (0, 0)).1)
  | .vqnt l k t d _ => destV d (blockRegs k (elems t l.g.size))
  | .vdqnt l _ _ d _ => destV d l.g.size
  | .vadc l d _ _ p => destV d l.g.size ++ destP p
  | .vsbc l d _ _ p => destV d l.g.size ++ destP p
  | .vmadc l d _ _ _ => destV d (2 * l.g.size)
  | .vselp l d _ _ _ => destV d l.g.size
  | .vcmp _ _ _ p _ _ => destP p
  | .vmodadd l d _ _ _ => destV d l.g.size
  | .vmodsub l d _ _ _ => destV d l.g.size
  | .vmodmul l d _ _ _ => destV d l.g.size
  | .vmodmac l d _ _ _ => destV d l.g.size
  | .vmodred l d _ _ => destV d l.g.size
  | .vmodneg l d _ _ => destV d l.g.size
  | .vmsetm _ _ _ => []
  | .vmsetk _ _ _ => []
  | .vbfly l d _ _ _ => destV d l.g.size
  | .vbflyi l d _ _ _ => destV d l.g.size
  | .vpermb l d _ _ => destV d l.g.size
  | .vbcst _ _ d _ => destV d 1
  | .vext _ _ d _ _ => destS d
  | .vins _ _ d _ _ => destV d 1
  | .vslide l _ _ d _ _ => destV d l.g.size
  | .vld l _ d _ _ => destV d l.g.size
  | .vst _ _ _ _ _ => []
  | .vldx l _ _ d _ _ => destV d l.g.size
  | .vstx _ _ _ _ _ _ => []
  | .vldr l _ d _ _ _ => destV d l.g.size
  | .vstr _ _ _ _ _ _ => []
  | .mcfg _ _ _ => []
  | .mshift _ _ _ => []
  | .mpush _ _ _ _ _ => []
  | .macc _ _ _ => []
  | .mdrain _ t _ d _ => destV d (if t = .f64 then 2 else 1)
  | .mdrainq _ _ _ d _ => destV d 1
  | .mzero _ _ => []
  | .mswap _ => []
  | .mgath _ _ _ _ => []
  | .mldacc _ _ _ => []
  | .mstg _ _ => []
  | .mrot _ _ => []
  | .tld _ g v _ _ => destV v g.size
  | .tlds _ g v _ _ => destV v g.size
  | .tldm _ g v _ _ => destV v g.size
  | .rld _ g v _ _ => destV v g.size
  | .tst _ _ _ _ => []
  | .tsts _ _ _ _ => []
  | .rst _ _ _ _ => []
  | .sldg _ _ d _ _ => destS d
  | .sstg _ _ _ _ => []
  | .pref _ _ => []
  | .atadd _ _ d _ _ _ => destS d
  | .atfadd _ _ d _ _ _ => destS d
  | .atmin _ _ d _ _ _ => destS d
  | .atmax _ _ d _ _ _ => destS d
  | .atand _ _ d _ _ _ => destS d
  | .ator _ _ d _ _ _ => destS d
  | .atxor _ _ d _ _ _ => destS d
  | .atswp _ _ d _ _ _ => destS d
  | .atcas _ _ d _ _ _ => destS d
  | .red _ _ _ _ _ => []
  | .fence _ _ _ => []
  | .vjoin _ => []
  | .strm _ d _ _ _ _ => destS d
  | .strmx _ d _ => destS d
  | .cpy _ d _ _ => destS d
  | .lease _ d _ _ => destS d
  | .lrecl _ d _ _ => destS d
  | .krot _ d _ _ => destS d
  | .seal _ d _ _ => destS d
  | .unseal _ d _ _ => destS d
  | .ratm _ _ _ d _ _ => destS d
  | .xred _ _ d _ _ => destS d
  | .mapr _ d _ => destS d
  | .wbr _ d _ => destS d
  | .scrub _ d _ => destS d
  | .meas _ d _ => destS d
  | .invr _ _ => []
  | .kqry _ _ d _ => destS d
  | .syncWait _ _ => []
  | .syncPost _ _ => []
  | .drainPoint => []
  | .mergeYield => []
  | .waitcTargetReached _ => []
  | .gatherComplete _ => []
  | .dividerBusyExpiry _ => []
  | .loadDataArrival _ => []
  | .flagPostArrival _ => []
  | .memoryQueueDepart _ => []
  | .gatewayRequest _ => []
  | .pageRequestEnqueue _ => []
  | .pageRequestRecordWrite _ => []
  | .prespWrite _ _ => []
  | .lanternStage2Answer _ => []
  | .sideLogReplay _ => []
  | .homeSliceRequest _ _ _ => []
  | .pageReencryption _ => []
  | .engineCommandAccept _ => []
  | .engineCommandComplete _ => []
  | .promiseExpiry _ => []
  | .streamSlotStart _ _ => []
  | .streamSlotComplete _ _ => []
  | .maprFillComplete _ _ => []
  | .chunkFillComplete _ _ _ _ => []
  | .trapEntry _ => []
  | .pendingTrapTake _ => []
  | .ctxcmdResume _ _ => []
  | .ctxcmdAbort _ _ => []
  | .preemptRequest _ => []
  | .strandSave _ => []
  | .drainBoundExpiry _ => []
  | .strandRestore _ _ => []
  | .strandRelease _ => []
  | .launchComplete _ _ _ => []
  | .lqcfgWrite _ _ _ => []
  | .lqnotifyWrite _ _ _ => []
  | .launchRecordRead _ _ => []
  | .launchWaitPoll _ _ _ => []
  | .groupDispatch _ _ _ => []
  | .launchStarvationTimeout _ _ _ => []
  | .lcancelWrite _ _ => []
  | .clusterLend _ _ => []
  | .borrowIdleTimeout _ => []
  | .clusterReclaim _ => []
  | .reclaimPhase1Timeout _ => []
  | .contractAdmit _ _ => []
  | .contractRemove _ _ => []
  | .jobRelease _ _ => []
  | .contractOverrun _ _ => []
  | .deadlineMiss _ _ => []
  | .gangReady _ => []
  | .gready _ _ => []
  | .gabort _ _ => []
  | .gangTimeout _ => []
  | .eventRingOverflow _ => []
  | .prqconsWrite _ _ => []
  | .evconsWrite _ _ => []
  | .fevconsWrite _ => []
  | .s1rootWrite _ _ => []
  | .s1invAll _ => []
  | .s1invPage _ _ => []
  | .s1InvalidationComplete _ => []
  | .contextReset _ _ => []
  | .queueReset _ _ => []
  | .engineReset _ => []
  | .partitionReset _ => []
  | .deviceReset => []
  | .resetRungTimeout _ _ => []
  | .vfFunctionLevelReset _ => []
  | .pf0FunctionLevelReset => []
  | .memclsWrite _ _ => []
  | .misscntRead _ _ _ => []
  | .dielinkTagFail _ => []
  | .dielinkRetrain _ => []
  | .dieIsolationTimeout _ => []
  | .matchingBoundary _ => []
  | .beacon _ _ => []
  | .beaconLossTimeout _ => []
  | .messageRoute _ => []
  | .dataFlit _ _ => []
  | .relayDataFlit _ _ _ => []
  | .nack _ _ _ => []
  | .restripe _ _ _ => []
  | .laserModuleFail _ _ => []
  | .lossOfLightDeclare _ _ => []
  | .fabricRequestReceive _ => []
  | .fabricCompletion _ => []
  | .fwinWrite _ _ _ => []
  | .portRetrain _ => []
  | .retrainAttempt _ _ _ _ _ => []
  | .tdxInitiate _ _ => []
  | .tdxAcceptArm _ _ => []
  | .tdxAcceptExpiry _ => []
  | .tdxAgreementTimeout _ => []
  | .keyAgreementStep1 _ _ => []
  | .keyAgreementStep2 _ _ => []
  | .keyAgreementStep3 _ _ => []
  | .keyAgreementStep4 _ _ => []
  | .leaseRequest _ _ _ => []
  | .leaseAnswer _ _ _ _ => []
  | .leaseAnswerTimeout _ => []
  | .levict _ _ => []
  | .lack _ => []
  | .lackTimeout _ => []
  | .hostApertureAccess _ _ => []
  | .getTdispVersion _ => []
  | .getTdispCapabilities _ => []
  | .lockInterfaceRequest _ => []
  | .getDeviceInterfaceReport _ => []
  | .getDeviceInterfaceState _ => []
  | .startInterfaceRequest _ => []
  | .stopInterfaceRequest _ => []
  | .stage2ChangeRequest _ _ => []
  | .getVersion _ => []
  | .getCapabilities _ => []
  | .negotiateAlgorithms _ _ => []
  | .getDigests _ => []
  | .getCertificate _ _ => []
  | .challenge _ _ => []
  | .getMeasurements _ _ => []
  | .keyExchange _ _ => []
  | .finish _ _ _ => []
  | .keyUpdate _ _ => []
  | .heartbeat _ _ => []
  | .endSession _ _ => []
  | .ideKm _ _ _ _ => []
  | .powerUp => []
  | .recovctlGo _ => []
  | .featctlGo => []
  | .partitionCreate _ => []
  | .partitionDestroy _ => []
  | .rbreqGo _ => []
  | .readbackComplete => []
  | .powerClamp _ => []
  | .thermalShutdown => []
  | .registerWrite _ _ _ => []
  | .nop => []
  | .powerRemoval => []
  | .dieLinkDown _ => []
  | .tenantRootKeyProvision _ _ _ => []

/-- Two slots share a destination. -/
def clash (a b : Option Instr) : Bool :=
  match a, b with
  | some i, some j => i.dests.any fun d => j.dests.contains d
  | _, _ => false

/-! ## Bundles -/

/-- The slot instruction of slot `k`; none where the slot holds NOP or a header, or where it is unassigned. -/
def slotInstr (w : BundleWord) (k : Nat) : Option Instr :=
  let x := slotOf w k
  if x = 0 then none
  else if k = 0 then (if isHdr x then none else decodeA x)
  else if k = 1 then decodeB (lentOf (slotOf w 0)).1 x
  else if k = 2 then decodeC (lentOf (slotOf w 0)).2.1 x
  else decodeD (lentOf (slotOf w 0)).2.2 x

/-- The header lends slot B a group size that its instruction, which is assigned but for that, does not accept. -/
def lentBad (w : BundleWord) : Bool :=
  isHdr (slotOf w 0) && match rawB (LentB.ofBits (lentOf (slotOf w 0)).1) (slotOf w 1) with
    | some i => i.word == slotOf w 1 && !i.takesGroup
    | none => false

/-- Slot `k` of a bundle holds an unassigned encoding (R81, R82): a fault in a header field, a lent field among them, is reported as slot A, and
a shared destination as the higher of the two slots. -/
def slotBad (w : BundleWord) (k : Nat) : Bool :=
  let x := slotOf w k
  (k == 0 && (!hdrOk w || lentBad w)) ||
  (x != 0 && !(k == 0 && isHdr x) && (slotInstr w k).isNone) ||
  (List.range k).any fun j => clash (slotInstr w j) (slotInstr w k)

/-- The slot reported for an unassigned bundle (R82): the lowest. -/
def badSlot (w : BundleWord) : Option Nat := (List.range 4).find? (slotBad w)

/-- The steps of a bundle with their slots: header actions, then slots A to D; a bundle of NOPs without a header is the one
step NOP (R61). -/
def steps (w : BundleWord) : List (Nat × Instr) :=
  if w = 0 then [(0, .nop)]
  else (hdrActions (slotOf w 0)).map (Prod.mk 0) ++
    (List.range 4).filterMap fun k => (slotInstr w k).map (Prod.mk k)

/-- The decoder of bundles: the steps, or by name the slot that is unassigned. -/
def decodeBundle (w : BundleWord) : Except Nat (List (Nat × Instr)) :=
  match badSlot w with
  | some k => .error k
  | none => .ok (steps w)

/-- The instruction of a bundle that holds exactly one. -/
def decodeOne (w : BundleWord) : Option Instr :=
  match decodeBundle w with
  | .ok [(_, i)] => some i
  | _ => none

/-- The decoder on an instruction of spec/opcode_table.json, its bits numbered from the bundle's bit 0; bits above `nbits` are
zero. -/
def decodeTableWord (nbits w : Nat) : Option Instr := decodeOne (BitVec.ofNat 128 (w % 2 ^ nbits))

/-! ## The encoder -/

/-- The bundle that holds exactly one instruction: its slot word, with a header where it carries lent bits or is a header action
(R63, R91). An event has no encoding; the all-zero bundle stands for it. -/
def encode (i : Instr) : BundleWord :=
  let h := if i.lent = (0, 0, 0) then 0 else encHdr false 0 i.lent.1 i.lent.2.1 i.lent.2.2
  match i.slot with
  | some 0 => bundle 0 0 0 i.word
  | some 1 => bundle 0 0 i.word h
  | some 2 => bundle 0 i.word 0 h
  | some _ => bundle i.word 0 0 h
  | none =>
    match i with
    | .syncWait f c => bundle 0 0 0 (encSync 1 f c)
    | .syncPost f c => bundle 0 0 0 (encSync 2 f c)
    | .drainPoint => bundle 0 0 0 (encHdr true 0 0 0 0)
    | .mergeYield => bundle 0 0 0 (encHdr false 1 0 0 0)
    | _ => 0

/-- The instructions that a bundle can hold: those of the four slots, the header actions and NOP. -/
def Instr.encodes (i : Instr) : Bool :=
  i.slot.isSome || (match i with
    | .syncWait _ _ | .syncPost _ _ | .drainPoint | .mergeYield | .nop => true
    | _ => false)

end Sys2Proof
end

