-- ==== Sys2Proof/Machine/State.lean ====
section
/-! DEFINITION. The state of a VZ9 package as plain data (R2, R3, R11 and the register maps of every chapter), the reasons a
step can stop, and the state after device reset. Every collection is a table of number and value pairs in one canonical
form: numbers strictly rising, no entry equal to what an unlisted number reads as. -/

namespace Sys2Proof.Machine

/-- A table by number. -/
abbrev Tbl (α : Type) := List (Nat × α)

/-- A store of bytes: an unlisted byte reads as zero (R34 for local stores, R233 for an unwritten page). -/
abbrev Mem := List Host.Cell

/-- Why a step stops with a fault. The manual leaves no behaviour of the device undefined (R1), so no meaning of this model
ends in one. -/
inductive Fault where
  /-- Raised by nobody: R1 gives every access an outcome. Safe. -/
  | noSuchOutcome
  deriving DecidableEq, Repr

/-- Why a step is refused. -/
inductive Refusal where
  /-- Raised by an arm of exec whose instruction has no meaning yet. Safe: the model stops where the hardware goes on. -/
  | notModelled (mnemonic : String)
  deriving DecidableEq, Repr

/-! ## A strand -/

/-- A ring handle (R19): the fields of HCFG and HSTAT. -/
structure Ring where
  base  : Nat
  slsz  : Nat
  nslot : Nat
  en    : Bool
  head  : Nat
  tail  : Nat
  fill  : Nat
  free  : Nat
  infl  : Nat
  bind  : Nat
  deriving DecidableEq, Repr

/-- The zero handle (R34). -/
def Ring.off : Ring := ⟨0, 0, 0, false, 0, 0, 0, 0, 0, 0⟩

/-- A loop stack entry (R24). -/
structure LoopEntry where
  start : Nat
  last  : Nat
  rot   : Bool
  count : Nat
  deriving DecidableEq, Repr

/-- The operand latches of one mode (R134): their bytes and the group sizes last recorded. -/
structure Latches where
  a  : BitVec 16384
  b  : BitVec 16384
  c  : BitVec 16384
  ga : Nat
  gb : Nat
  gc : Nat
  deriving DecidableEq, Repr

/-- Latches that read zero (R134). -/
def Latches.zero : Latches := ⟨0, 0, 0, 0, 0, 0⟩

/-- One 64-byte segment of a gathered row (R190): its storage line, none where index bit 31 zero-fills it, and the bytes read once
the choice of R192 is closed. -/
structure GatherSeg where
  line : Option Nat
  seen : Option (BitVec 512)
  deriving DecidableEq, Repr

/-- The place a write goes when it becomes visible (R83, R84). Masks have one bit per byte of a vector register, per bit
of a predicate, per lane of a modulus register. -/
inductive Target where
  | s (r : Nat) (v : W64)
  | v (r : Nat) (mask : BitVec 512) (data : VReg)
  | group (r : Nat) (regs : List VReg)
  | p (r : Nat) (mask data : PReg)
  | fmt (v : BitVec 13)
  | m (i : Nat) (mask : BitVec 64) (data : VReg)
  | k (i : Nat) (mask : BitVec 64) (data : VReg)
  | mcfg (kr nc : Nat)
  | shadow (row : Nat) (image : BitVec 8192)
  | stage (image : BitVec 6144)
  | gather (view : View) (ord rowBytes : Nat) (rows : List (List GatherSeg))
  | rotate (entry n : Nat)
  | nothing
  deriving DecidableEq, Repr

/-- A write in flight: visible at strand bundle `vis` (R83). A landing names its request or command in `land` and is not
`ready` until its data have arrived (R25, R200); `entry` says that it takes an entry of the landing buffer, and `faulted` marks a
landing whose translation faulted (R207). -/
structure Write where
  vis     : Nat
  land    : Option Nat
  entry   : Bool
  ready   : Bool
  faulted : Bool
  tgt     : Target
  deriving DecidableEq, Repr

/-- An accumulator operation in issue order (R86); `vis` is the bundle at which drains see it (R84). -/
inductive AccOp where
  | set (image : BitVec 8192)
  | addF32 (cols : List (Option (BitVec 32)))
  | addI32 (cols : List (Option (BitVec 32)))
  | addF64 (cols : List (Option (BitVec 64)))
  deriving DecidableEq, Repr

/-- An accumulator operation placed on the unit at `row`, one row or a pair of rows (R178). -/
structure AccWrite where
  vis  : Nat
  hnd  : Bool
  row  : Nat
  pair : Bool
  op   : AccOp
  deriving DecidableEq, Repr

/-- A recent SPAD store to one storage line: its place in the strand's issue order, its mode and bundle, its view, and the line as
it stood before (R192, R276). -/
structure SpadStore where
  ord  : Nat
  hnd  : Bool
  n    : Nat
  view : View
  line : Nat
  old  : BitVec 512
  deriving DecidableEq, Repr

/-- A gather in progress (R191): its mode, the bundle n + 8, the cycle of its issue, and the storage lines it has still to read. -/
structure Gather where
  hnd  : Bool
  due  : Nat
  at'  : Nat
  left : List Nat
  deriving DecidableEq, Repr

/-- The array's state for its owning strand (R179): latch sets by B row, the operand-latch queue with entry numbers, the configuration, and
the gathers in progress in issue order (R191). -/
structure Matrix where
  active  : Tbl (BitVec 8192)
  shadow  : Tbl (BitVec 8192)
  queue   : List (Nat × BitVec 6144)
  nextId  : Nat
  kr      : Nat
  nc      : Nat
  gathers : List Gather
  deriving DecidableEq, Repr

/-- The array at dispatch and after every restore (R179). -/
def Matrix.init : Matrix := ⟨[], [], [], 0, 96, 128, []⟩

/-- A bound stream (R214, R215); the fences numbered below `after` precede it, and `born` is the cycle of its binding. -/
structure Stream where
  ring   : Nat
  drain  : Bool
  base   : Nat
  counts : List Nat
  strides : List Int
  next   : Nat
  done   : Nat
  stop   : Bool
  after  : Nat
  born   : Nat
  deriving DecidableEq, Repr

/-- A MAPR map (R227, R228): the pages are numbered within the map; the fences numbered below `after` precede it, and those below a page's
number in `again` precede the INVR that took that page's data (R212). -/
structure MapEnt where
  index  : Nat
  off    : Nat
  size   : Nat
  addr   : Nat
  filled : List Nat
  dirty  : List Nat
  after  : Nat
  again  : Tbl Nat
  deriving DecidableEq, Repr

/-- The forms in which a saved strand's chunk is recorded (R310). -/
inductive ChunkForm where
  | live (core phys : Nat)
  | inPlace (core phys : Nat)
  | saved
  | zero
  deriving DecidableEq, Repr

/-- A chunk of a strand's window: its form, whether it is unfilled after a restore and whether its fill is in progress (R312),
whether SCRUB released it (R250), and whether its claim still waits for the save of what it held before (R311). -/
structure Chunk where
  store    : Store
  index    : Nat
  form     : ChunkForm
  unfilled : Bool
  filling  : Bool
  released : Bool
  claiming : Bool
  deriving DecidableEq, Repr

/-- A chunk that a partition's save area holds (R311): whose it is, the first page of the area it takes, the length of its text and the number of
its nonce. -/
structure SaveSlot where
  part  : Nat
  gtag  : Nat
  sidx  : Nat
  store : Store
  index : Nat
  page  : Nat
  text  : Nat
  nonce : Nat
  deriving DecidableEq, Repr

/-- A line held in the region buffer (R300): address, byte mask and bytes. -/
structure HeldLine where
  addr  : Nat
  bytes : List (Option Byte)
  deriving DecidableEq, Repr

/-- The region snapshot (R301): every item of R32 but the vector window and the m and k registers. -/
structure Snapshot where
  pc     : Nat
  sbn    : Nat
  fmt    : BitVec 13
  start  : Nat
  epc    : W64
  tcause : W64
  tval   : W64
  sreg   : Tbl W64
  preg   : Tbl PReg
  q      : BitVec 8
  fov    : Bool
  rings  : Tbl Ring
  loops  : List LoopEntry
  deriving DecidableEq, Repr

/-- CTX.STATE (R36). -/
inductive Life where
  | run | faultWait | draining | doneWait
  deriving DecidableEq, Repr

/-- Trap causes, in code order from 1 (R280). -/
inductive Cause where
  | illegal | bounds | loop | format | ring | modulus | engine | key | promise | trap | address
  deriving DecidableEq, Repr

/-- A pending trap (R290), in the order in which it became pending; `since` is the cycle in which it did. The ADDRESS of a load has the mode and
bundle of its arrival in `arrival` until that bundle reaches issue. -/
structure Pending where
  cause   : Cause
  tval    : W64
  akind   : Nat
  stage   : Nat
  arrival : Option (Bool × Nat)
  since   : Nat
  deriving DecidableEq, Repr

/-- The replay buffer (R283, R285, R289): the trapped bundle's index and strand bundle (or handler count), its mode, whether it
has yet to issue for the first time, the transfer its slot A has selected, its performed slots, whether the strand reissues it
now, whether its slot A is an ERET that returns once it completes, the REGION (true) or ENDREG its slot A has performed, and the cause
and TVAL of a trap not taken. -/
structure Replay where
  idx     : Nat
  n       : Nat
  handler : Bool
  first   : Bool
  next    : Option Nat
  perf    : BitVec 4
  again   : Bool
  eret    : Bool
  regOp   : Option Bool
  record  : Option (Cause × W64)
  deriving DecidableEq, Repr

/-- The bundle a strand is issuing: index, word, strand bundle (or handler count) and mode at issue, whether it issues for the first
time, the slots that have performed, the reported slot, cause and TVAL of its trap, whether a JR or RET trap left every slot
unperformed, the transfer selected, DONE, an ERET that waits for another slot, a REGION or ENDREG that acts at completion, the marks
of a drain point, YIELD and merge hint, the slot D requests and commands not yet accepted, and the ring handles as they stand at
issue (R83). -/
structure Issue where
  idx     : Nat
  word    : BundleWord
  n       : Nat
  handler : Bool
  first   : Bool
  perf    : BitVec 4
  trapped : Option (Nat × Cause × W64)
  void    : Bool
  next    : Option Nat
  done    : Bool
  eret    : Bool
  regOp   : Option Bool
  dp      : Bool
  yield   : Bool
  mh      : Bool
  await   : List Nat
  rings   : Tbl Ring
  deriving DecidableEq, Repr

/-- No bundle in issue. -/
def Issue.none : Issue := ⟨0, 0, 0, false, true, 0, .none, false, .none, false, false, .none, false, false, false, [], []⟩

/-- A kernel image as Lamplighter places it (R341): an unlisted bundle is all zero. -/
structure Image where
  desc    : Nat
  nbun    : Nat
  code    : Tbl BundleWord
  tvec    : Option Nat
  dpbound : Nat
  vr6     : Nat
  acc32   : Nat
  sp64    : Nat
  sdm4    : Nat
  matrix  : Bool
  init    : List W64
  discard : List (Nat × Nat)
  deriving DecidableEq, Repr

/-- No image. -/
def Image.empty : Image := ⟨0, 0, [], none, 0, 0, 0, 0, 0, false, [], []⟩

/-- A strand (R11): every register of R14 and R31, its windows of R12, its writes in flight, and its resumable state. `replay` holds the
kernel bundle of a trap, `hreplay` a handler bundle whose trap was not taken (R289). `holdFor` counts cycles in which it issues nothing,
`served` says that they are the bank-read holds of the bundle it presents (R131), and `vxHold` counts that bundle's SPAD bank holds
(R161). `drainAt` is the core cycle at which its drain bound expires, `asked` says that this pre-emption request came in the present
cycle, `struck` that a trap came in it (R37), `halted` says that a region restart waits for its work to end (R304). `saveNo` numbers the saves (R311). `adv` is the ring advance of the bundle it issued in
the present cycle, which the transfer unit sees in the next (R20). -/
structure Strand where
  life     : Life
  handler  : Bool
  contract : Bool
  fov      : Bool
  matrixOwn : Bool
  nvreg    : Nat
  accRows  : Nat
  spadSize : Nat
  sdmSize  : Nat
  gtag     : Nat
  sidx     : Nat
  gszm     : Nat
  part     : Nat
  wid      : W64
  widths   : List Nat
  image    : Image
  pc       : Nat
  sbn      : Nat
  hcnt     : Nat
  ord      : Nat
  sreg     : Tbl W64
  vreg     : Tbl VReg
  preg     : Tbl PReg
  q        : BitVec 8
  mreg     : Tbl W64
  kreg     : Tbl W64
  rings    : Tbl Ring
  loops    : List LoopEntry
  fmt      : BitVec 13
  epc      : W64
  tcause   : W64
  tval     : W64
  regOpen  : Bool
  regStart : Nat
  held     : List HeldLine
  snap     : Option Snapshot
  pend     : List Write
  pendH    : List Write
  accBase  : Mem
  accOps   : List AccWrite
  spad     : Mem
  sdm      : Mem
  spadLog  : List SpadStore
  latK     : Latches
  latH     : Latches
  mat      : Matrix
  streams  : List Stream
  maps     : List MapEnt
  chunks   : List Chunk
  replay   : Option Replay
  hreplay  : Option Replay
  traps    : List Pending
  drainAt  : Option Nat
  asked    : Bool
  struck   : Bool
  adv      : Option (Nat × Nat)
  dpHit    : Bool
  halted   : Bool
  yielded  : Bool
  holdFor  : Nat
  served   : Bool
  vxHold   : Option Nat
  released : Bool
  saveNo   : Nat
  iss      : Issue
  deriving DecidableEq, Repr

/-- A strand right after dispatch of an empty image: every register at its value of R14, R27 and R30. -/
def Strand.idle : Strand :=
  { life := .run, handler := false, contract := false, fov := false, matrixOwn := false, nvreg := 0, accRows := 0,
    spadSize := 0, sdmSize := 0, gtag := 0, sidx := 0, gszm := 0, part := 0, wid := 0, widths := [], image := .empty,
    pc := 0, sbn := 0, hcnt := 0, ord := 0, sreg := [], vreg := [], preg := [], q := 0, mreg := [], kreg := [],
    rings := [], loops := [], fmt := 0x1099#13, epc := 0, tcause := 0, tval := 0, regOpen := false, regStart := 0,
    held := [], snap := none, pend := [], pendH := [], accBase := [], accOps := [], spad := [], sdm := [], spadLog := [],
    latK := .zero, latH := .zero, mat := .init, streams := [], maps := [], chunks := [], replay := none, hreplay := none, traps := [],
    drainAt := none, asked := false, struck := false, adv := none, dpHit := false, halted := false, yielded := false, holdFor := 0, served := false, vxHold := none, released := false,
    saveNo := 0, iss := .none }

/-! ## Groups, launches, partitions -/

/-- A group (R11, R343): its identity, its strands, its flag file, measurement and rights, and where it stands. `prev` holds the
flags as the last ended flag-file cycle left them, which FLRD reads (R121). `launch` names its launch, `yieldTo` the offer that its YIELD
made way for: of a saved group (true) its tag, else the launch and group index (R348). -/
structure Group where
  gtag     : Nat
  part     : Nat
  launch   : Nat
  lq       : Nat
  seq      : Nat
  index    : Nat
  wid      : W64
  cluster  : Nat
  borrowed : Bool
  strands  : List Nat
  saved    : List (Nat × Strand)
  flags    : Tbl (BitVec 32)
  prev     : Tbl (BitVec 32)
  gm       : BitVec 384
  nmeas    : Nat
  rights   : BitVec 3
  cls      : Nat
  contract : Option Nat
  gang     : Option Nat
  born     : Nat
  saveNo   : Nat
  yieldTo  : Option (Bool × Nat × Nat)
  deriving DecidableEq, Repr

/-- No group. -/
def Group.none : Group :=
  { gtag := 0, part := 0, launch := 0, lq := 0, seq := 0, index := 0, wid := 0, cluster := 0, borrowed := false, strands := [], saved := [],
    flags := [], prev := [], gm := 0, nmeas := 0, rights := 0, cls := 0, contract := .none, gang := .none,
    born := 0, saveNo := 0, yieldTo := .none }

/-- A launch queue (R338). -/
structure Lq where
  en     : Bool
  cls    : Nat
  base   : Nat
  lsz    : Nat
  head   : Nat
  tail   : Nat
  marked : List Nat
  deriving DecidableEq, Repr

/-- A launch queue at reset (R338). -/
def Lq.reset : Lq := ⟨false, 0, 0, 0, 0, 0, []⟩

/-- A launch that has been read (R340 to R351), numbered in the order of reading; `tags` holds the tags of the groups it has dispatched. A
contract's job has its number, its absolute deadline, the budget it has used, and whether it has overrun and has missed its deadline (R356 to
R358); `cut` says that groups of it will never be dispatched (R339, R350). -/
structure Launch where
  id         : Nat
  part       : Nat
  lq         : Nat
  seq        : Nat
  words      : List W64
  image      : Image
  waitMet    : Bool
  count      : Option Nat
  next       : Nat
  dispatched : Nat
  completed  : Nat
  discarded  : Nat
  status     : Status
  passed     : Option Nat
  starved    : Bool
  tags       : List Nat
  jobNo      : Nat
  deadline   : Nat
  used       : Nat
  overrun    : Bool
  late       : Bool
  cut        : Bool
  deriving DecidableEq, Repr

/-- A real-time contract (R353, R356): its registers, its state, the cycle of its admission, the number of its next release, and whether an RT
miss was reported in this period (R328). -/
structure Contract where
  a        : W64
  b        : W64
  c        : W64
  state    : Nat
  cluster  : Nat
  reason   : Nat
  asked    : Bool
  admitted : Nat
  job      : Nat
  rtMiss   : Bool
  deriving DecidableEq, Repr

/-- A contract at reset (R353). -/
def Contract.reset : Contract := ⟨0, 0, 0, 0, 0, 0, false, 0, 0, false⟩

/-- The TDISP states (R397). -/
inductive Tdisp where
  | unlocked | locked | run | error
  deriving DecidableEq, Repr

/-- The key-agreement unit of a partition (R388, R389): its registers, the armed acceptance (package, partition, trust domain, cycle of arming), and
the agreement in progress: its trust domain, the cycle in which it began, the step that it waits for, its draw number, its transcript and its
shared secret. -/
structure Tdx where
  busy   : Bool
  status : Nat
  tdid   : W64
  goal   : W64
  peer   : Nat
  ppart  : Nat
  armed  : Option (Nat × Nat × W64 × Nat)
  step   : Nat
  draw   : Nat
  log    : List Byte
  secret : List Byte
  since  : Nat
  deriving DecidableEq, Repr

/-- The key-agreement unit at reset (R388). -/
def Tdx.reset : Tdx := ⟨false, 0, 0, 0, 0, 0, none, 0, 0, [], [], 0⟩

/-- A partition (R334, R338, R295, R332, R353, R361, R388, R397) and its TDI registers. `evWait` holds the event records that wait for the
re-encryption of their page (R321): type, strand and three words. `s2root` is the physical address
under KeyID 0 of Lantern's level-0 stage-2 table. -/
structure Partition where
  desc     : List W64
  tdisp    : Tdisp
  lqs      : Tbl Lq
  ctrs     : Tbl Contract
  prqProd  : BitVec 32
  prqCons  : BitVec 32
  evProd   : BitVec 32
  evCons   : BitVec 32
  evSeq    : BitVec 32
  evLost   : Nat
  evWait   : List (Nat × Nat × Nat × Nat × Nat)
  s1root   : W64
  s1inv    : Option (Option Nat)
  s2root   : Nat
  cancelBusy : Bool
  tdx      : Tdx
  domains  : List (W64 × BitVec 256 × Option Nat)
  memcls   : W64
  refuse   : Bool
  deriving DecidableEq, Repr

/-- A rung of the reset ladder in progress (R364): its number, its scope, the cycle in which it was applied, and the launches (rung 1) or groups
whose ends it waits for. A scope is a queue as 8 × partition + queue, a group tag, or a cluster. -/
structure Rung where
  rung  : Nat
  scope : Nat
  since : Nat
  left  : List Nat
  deriving DecidableEq, Repr

/-! ## Memory system -/

/-- Where a translated access goes (R331): KeyID and address, or peer and fabric intermediate address. -/
structure Phys where
  fab  : Bool
  hi   : Nat
  addr : Nat
  deriving DecidableEq, Repr

/-- Page ordering attributes (R257). -/
inductive Attr where
  | rc | so | uo
  deriving DecidableEq, Repr

/-- A single-copy piece of an access (R208, R261): its virtual address and length, its place in the landing, the bytes it stores, once
translated its place and attribute, its number in the order in which gateways accept pieces (R315), whether it is on its way to its home slice
(R368), and once bound or performed the outcome. -/
structure Piece where
  va    : Nat
  len   : Nat
  off   : Nat
  bytes : List (Option Byte)
  pa    : Option Phys
  attr  : Attr
  acc   : Option Nat
  via   : Bool
  done  : Bool
  data  : List Byte
  deriving DecidableEq, Repr

/-- What a request asks for (R253). -/
inductive ReqKind where
  | load
  | store
  | atomic (op : AtomOp) (sz : As) (x expected : W64) (ret : Bool)
  | kqry (sel : KqSel)
  | fence (scope : Scope) (kind : FenceKind)
  deriving DecidableEq, Repr

/-- How far a request has come (R202, R207, R253). -/
inductive Stage where
  | queued | departed | accepted | sideLog | arrived
  deriving DecidableEq, Repr

/-- A request of a strand. Requests are numbered in issue order. `log` is its place in the order of retirement into the side log, if it
retired there (R207), `run` the lowest request of the run it was merged into (R210), and `fault` the fault it waits for. It is accepted
once its gateway has taken some piece of it: the pieces follow one by one where the order of accesses holds some of them (R261). -/
structure Req where
  id      : Nat
  log     : Option Nat
  run     : Nat
  strand  : Nat
  gtag    : Nat
  sidx    : Nat
  part    : Nat
  handler : Bool
  kind    : ReqKind
  stage   : Stage
  fault   : Option Nat
  pieces  : List Piece
  deriving DecidableEq, Repr

/-- The engine commands (R201, R236) with the operands read at issue. The last two are no commands of the program but work of the same
shape: a stream slot in INFL (R215) and the fill of a page of a MAPR map (R228). -/
inductive CmdKind where
  | cpy (src dst len : Nat)
  | rst (addr : Nat) (bytes : List Byte)
  | ratm (op : AtomOp) (sz : As) (addr : Nat) (x expected : W64) (ret : Nat)
  | xred (e5m2 : Bool) (src dst n : Nat)
  | wbr (off size : Nat)
  | lease (peer size window status : Nat)
  | lrecl (id status : Nat)
  | krot (start count target rec : Nat)
  | seal (spad : Bool) (src len ckpt : Nat) (label : W64) (rec : Nat)
  | unseal (spad : Bool) (dst cap ckpt rec : Nat)
  | scrub (kind start len : Nat)
  | meas (addr len out : Nat)
  | slot (ring : Nat) (drain : Bool) (addr off size : Nat)
  | fill (index page : Nat)
  deriving DecidableEq, Repr

/-- What a command has sent to peers (R382): which peers, how many messages, and whether one of them carries its flag post, with whether the target
reported that it was dropped. -/
structure CmdNet where
  peers   : List Nat
  sent    : Nat
  carried : Option Bool
  deriving DecidableEq, Repr

/-- A command that has sent nothing. -/
def CmdNet.none : CmdNet := ⟨[], 0, Option.none⟩

/-- An engine command (R201, R219 to R222, R236): its issuer, its flag descriptor, its engine, the cycle of its issue unless the memory
queue delayed it, the cycle and place of its acceptance, its promise, its progress, the bytes it holds, whether all it writes is
written, and the outcomes it has met; of a page fill, whether a bundle of the handler waits for it (R290). Engines 0 to 63 are the copy engines, 64 + core the Snuffer port of a core. -/
structure Cmd where
  id       : Nat
  strand   : Nat
  gtag     : Nat
  sidx     : Nat
  part     : Nat
  core     : Nat
  kind     : CmdKind
  fd0      : W64
  fd1      : W64
  engine   : Nat
  issued   : Option Nat
  accepted : Option Nat
  order    : Nat
  promise  : Nat
  raised   : Bool
  stop     : Bool
  progress : Nat
  fault    : Option Nat
  data     : List Byte
  written  : Bool
  phase    : Nat
  nonce    : Nat
  measure  : Option (BitVec 384)
  tdid     : W64
  hnd      : Bool
  net      : CmdNet
  deriving DecidableEq, Repr

/-- A flag post on its way (R64, R218). `due` is the cluster cycle in which a header post applies; an engine post has none.
-/
structure Post where
  id     : Nat
  part   : Nat
  gtag   : Nat
  strand : Nat
  flag   : Nat
  count  : Nat
  due    : Option Nat
  fd     : Option (W64 × W64)
  cmd    : Option Nat
  deriving DecidableEq, Repr

/-- Page metadata under one KeyID (R233, R321): generation, minor counters, whether a page has been written. -/
structure PageMeta where
  gen    : BitVec 16
  minors : Tbl (BitVec 7)
  deriving DecidableEq, Repr

/-- A page that is being rewritten under new counters (R324): the progress pointer and whether its line is locked, the generation, the major
and the minor counters that the page had before, under which the lines from the pointer on still stand, whether SCRUB writes it, and the line
whose minor counter was at its end, if that began it: the write that found it waits until the rewrite has ended (R321). -/
structure Rewrite where
  line   : Nat
  locked : Bool
  gen    : BitVec 16
  major  : Nat
  minors : Tbl (BitVec 7)
  scrub  : Bool
  trig   : Option Nat
  deriving DecidableEq, Repr

/-- An event record that Lantern receives: poisoned memory of a partition (R322), or a message that its receiver discarded (R316), of a group or
from a peer. -/
inductive LanternRecord where
  | poison (part pa : Nat)
  | message (part gtag : Nat)
  | fabric (src endpoint : Nat)
  deriving DecidableEq, Repr

/-- A KeyID (R233, R317). -/
structure KeyRec where
  owner : Option Nat
  cur   : BitVec 16
  lag   : Nat
  deriving DecidableEq, Repr

/-- A page-request queue entry (R293 to R296). `ipa` is the guest physical address at which stage 2 stopped the walk, `table` says that a
stage-1 table lies there; each waiter is a request, or a command, with its own faulting address. -/
structure PageReq where
  tag    : Nat
  part   : Nat
  stage2 : Bool
  page   : Nat
  va     : Nat
  acc    : Nat
  src    : Nat
  strand : Nat
  wid    : W64
  ipa    : Nat
  table  : Bool
  access : Bool
  written : Bool
  waiters : List (Bool × Nat × Nat)
  deriving DecidableEq, Repr

/-- A fault met in translation that no queue entry holds yet (R293). -/
structure FaultRec where
  id     : Nat
  part   : Nat
  stage2 : Bool
  va     : Nat
  acc    : Nat
  src    : Nat
  strand : Nat
  wid    : W64
  ipa    : Nat
  table  : Bool
  access : Bool
  waiter : Bool × Nat × Nat
  deriving DecidableEq, Repr

/-- A physical chunk of a core's store (R309), with the group, strand index and window chunk it serves; one that is SAVING names the owner of
what is saved. -/
inductive ChunkState where
  | free
  | live (gtag sidx index : Nat)
  | parked (gtag sidx index : Nat)
  | saving (gtag sidx index : Nat)
  deriving DecidableEq, Repr

/-- A core (R11): the divider's busy cycle count, the merge-stage tie bit (R352), the cycles of the last 1 ms in which the clamp froze it (R406), the
core cycle offset of CYC, the physical chunks of its stores, and for each SPAD bank the line accesses of slot B and those of fills that it has
still to serve (R307). -/
structure Core where
  divBusy : Nat
  tie     : Bool
  frozen  : Bool
  skew    : Nat
  clamps  : List Nat
  spadCh  : Tbl ChunkState
  accCh   : Tbl ChunkState
  sdmCh   : Tbl ChunkState
  ports   : Tbl Nat
  fills   : Tbl Nat
  deriving DecidableEq, Repr

/-- A core after device reset (R30, R352). -/
def Core.reset : Core := ⟨0, false, false, 0, [], [], [], [], [], []⟩

/-- A cached translation of one page (R314, R331); `leaf` is log2 of the size of its stage-1 leaf (R332). -/
structure Trans where
  part  : Nat
  vpage : Nat
  span  : Nat
  leaf  : Nat
  pa    : Phys
  rd    : Bool
  wr    : Bool
  attr  : Attr
  deriving DecidableEq, Repr

/-- A table entry that a walk has read (R314, R331): its partition and stage, its level, the address prefix that it serves, where it lies and
its word. -/
structure TableEnt where
  part  : Nat
  two   : Bool
  level : Nat
  pre   : Nat
  pa    : Nat
  word  : Nat
  deriving DecidableEq, Repr

/-- A cluster (R314, R336, R337): its line cache, the results and the table entries of its translation cache, and the state of lending and
reclaim. -/
structure Cluster where
  lines    : Tbl (BitVec 512)
  trans    : List Trans
  ents     : List TableEnt
  lentTo   : Option Nat
  idleAt   : Nat
  reclaim  : Option Nat
  deriving DecidableEq, Repr

/-- A cluster after device reset. -/
def Cluster.reset : Cluster := ⟨[], [], [], none, 0, none⟩

/-! ## Fabric -/

/-- A schedule table entry of a port (R374), with the lane maps of its training (R386). -/
structure RotEnt where
  peer  : Nat
  pport : Nat
  valid : Bool
  rate  : Bool
  txm   : BitVec 16
  rxm   : BitVec 16
  txl   : BitVec 64
  rxl   : BitVec 64
  deriving DecidableEq, Repr

/-- A schedule table entry at reset (R374). -/
def RotEnt.reset : RotEnt := ⟨0, 0, false, false, 0, 0, 0, 0⟩

/-- What a flit carries: a part of a message of this package, a relayed flit for a target that came in at a port (R376), or a flit whose message
has since been taken back. -/
inductive Cargo where
  | msg (id : Nat)
  | relay (port target : Nat)
  | spent
  deriving DecidableEq, Repr

/-- Flits sent one behind another in the present matching: what they carry, how many, and the rotor time at which the first begins. -/
structure SentRun where
  cargo : Cargo
  n     : Nat
  start : Nat
  deriving DecidableEq, Repr

/-- A Prohirak port (R369 to R374, R383, R384, R386). `heard` says that the beacon of the present matching has come, `sent` holds the flits of the
present matching that are not acknowledged, up to `txEnd`; `replay` the first SEQ of a replay and its end, `nackSent` the last nack sent,
`rxPend` the wavelengths that a restripe flit names and the SEQ from which they apply, `due` the entries that wait for their training, `attempt` the instance of the last training attempt. -/
structure Port where
  lock    : Bool
  dis     : Bool
  idx     : Nat
  txu     : BitVec 16
  fails   : Nat
  round   : BitVec 32
  ents    : Tbl RotEnt
  agree   : Nat
  missed  : Nat
  phase   : Nat
  everLock : Bool
  heard   : Bool
  nacks   : Nat
  nackSent : Option (Nat × BitVec 16)
  txSeq   : Nat
  acked   : Nat
  rxNext  : Nat
  sent    : List SentRun
  txEnd   : Nat
  replay  : Option (Nat × Nat)
  pendMask : Option (BitVec 16)
  rxMask  : BitVec 16
  rxPend  : Option (Nat × BitVec 16)
  retrain : Bool
  due     : List Nat
  attempt : Option Nat
  deriving DecidableEq, Repr

/-- A port at device reset (R374). -/
def Port.reset : Port :=
  { lock := false, dis := false, idx := 0, txu := 0, fails := 0, round := 0, ents := [], agree := 0, missed := 0, phase := 0, everLock := false,
    heard := false, nacks := 0, nackSent := none, txSeq := 0, acked := 0, rxNext := 0, sent := [], txEnd := 0, replay := none,
    pendMask := none, rxMask := 0, rxPend := none, retrain := true, due := [], attempt := none }

/-- Flits in a relay buffer (R376): the port at which they came in, their target, their number, and the rotor time of the first. -/
structure RelayRun where
  port   : Nat
  target : Nat
  n      : Nat
  since  : Nat
  deriving DecidableEq, Repr

/-- What the target has performed of a peer's command that posts a flag here (R382): the source, its endpoint and the command, the messages, and the
post once a message has brought it. -/
structure FarCmd where
  src  : Nat
  ep   : Nat
  cmd  : Nat
  done : List Nat
  post : Option PeerPost
  deriving DecidableEq, Repr

/-- The link key of a port pair (R390): port, peer package and port, and the key. -/
structure LinkKey where
  port  : Nat
  peer  : Nat
  pport : Nat
  key   : BitVec 256
  deriving DecidableEq, Repr

/-- The agreement of a port pair in progress (R390), as `Tdx` has it for a partition; `since` is the cycle in which it began. -/
structure LinkRun where
  port   : Nat
  peer   : Nat
  pport  : Nat
  step   : Nat
  draw   : Nat
  log    : List Byte
  secret : List Byte
  since  : Nat
  deriving DecidableEq, Repr

/-- A route of a message (R375): out of a port at an absolute matching number, directly or by an intermediate. -/
structure Route where
  port  : Nat
  slot  : Nat
  relay : Option Nat
  deriving DecidableEq, Repr

/-- A message of the fabric (R375, R376, R378): the request or command it serves and the piece or byte offset, the package and fabric
intermediate address it goes to, what it asks there, its flits and those still to be sent, and its route. `tried` is 1 + the round in which it last
found no route, `rank` the order in which routes were reserved, `seq` the message's place in its command, with the flag post if it carries it. A read that has been answered holds its data as bytes to write until its
command writes them. -/
structure Msg where
  id     : Nat
  isCmd  : Bool
  owner  : Nat
  piece  : Nat
  peer   : Nat
  fia    : Nat
  op     : RemoteOp
  flits  : Nat
  left   : Nat
  route  : Option Route
  acked  : Bool
  relayed : Bool
  tried  : Nat
  rank   : Nat
  seq    : Nat
  post   : Option PeerPost
  deriving DecidableEq, Repr

/-- A die link (R366, R367): the mesh links 0 to 3 and the hub links 4 + d; the flit tags that have failed, and the cycle in which it went
down. -/
structure Link where
  up     : Bool
  failed : Nat
  downAt : Nat
  deriving DecidableEq, Repr

/-- A trained link. -/
def Link.reset : Link := ⟨true, 0, 0⟩

/-- A lease (R230, R231, R391, R392), on either side; `since` is the cycle in which the LRECL that reclaims it was accepted. -/
structure Lease where
  id       : Nat
  lender   : Bool
  peer     : Nat
  part     : Nat
  pages    : Nat
  base     : Nat
  fwin     : Nat
  cmd      : Option Nat
  state    : Nat
  since    : Nat
  deriving DecidableEq, Repr

/-- A gang a member launch belongs to (R359, R360): `ready` holds the members whose GREADY has come. -/
structure Gang where
  id      : Nat
  members : Nat
  index   : Nat
  timeout : Nat
  started : Option Nat
  ready   : List Nat
  finished : Bool
  part    : Nat
  launch  : Nat
  deriving DecidableEq, Repr

/-! ## Host and trust -/

/-- An SPDM connection on one function's DOE mailbox (R398): what has been negotiated, the sessions, and the last response. -/
structure Spdm where
  version  : Bool
  caps     : Bool
  algs     : Bool
  sessions : List (Nat × Bool)
  nextSess : Nat
  reply    : List Byte
  deriving DecidableEq, Repr

/-- A mailbox with nothing negotiated. -/
def Spdm.reset : Spdm := ⟨false, false, false, [], 1, []⟩

/-- The management window and Lantern's registers (R400, R403 to R406). -/
structure Mgmt where
  phase    : Nat
  err      : Nat
  svn      : BitVec 32
  minSvn   : BitVec 32
  flash    : Option (List Byte)
  running  : List Byte
  staging  : Mem
  recBusy  : Bool
  recLen   : Nat
  featDrv  : List W64
  featAct  : List W64
  featStat : Nat
  pdesc    : List W64
  pctlBusy : Bool
  pctlStat : Nat
  pwr      : W64
  fevBase  : W64
  fevProd  : BitVec 32
  fevCons  : BitVec 32
  fevSeq   : BitVec 32
  fevLost  : Nat
  rbreq    : W64
  rbAsk    : W64
  rbBusy   : Bool
  rbDeny   : Bool
  rbdata   : BitVec 512
  rbtag    : List W64
  rbmac    : BitVec 128
  rbCount  : Nat
  deriving DecidableEq, Repr

/-- The management window at reset (R400, R403 to R405). -/
def Mgmt.reset : Mgmt :=
  { phase := 0, err := 0, svn := 0, minSvn := 0, flash := none, running := [], staging := [], recBusy := false, recLen := 0,
    featDrv := [0, 0, 0, 0], featAct := [0, 0, 0, 0], featStat := 0, pdesc := [0, 0, 0, 0, 0, 0], pctlBusy := false,
    pctlStat := 0, pwr := 0, fevBase := 0, fevProd := 0, fevCons := 0, fevSeq := 0, fevLost := 0, rbreq := 0, rbAsk := 0,
    rbBusy := false, rbDeny := false, rbdata := 0, rbtag := [0, 0], rbmac := 0, rbCount := 0 }

/-! ## The package -/

/-- The state of the package. `clk` counts the cycles since device reset; CYC of a core is `clk` plus the core's offset, LCYC
of a die `clk` plus the die's. `agenda`, `turn`, `cur`, `free` and `nextId` are the model's own: the events that come next,
each with the number of cycles to run before it (inputs from outside, and the times the manual leaves open); the core whose
part of the current cycle comes next; the strand whose bundle is in issue; the counter of free choices; the next request,
command, post or fault number. `answer` holds the bytes that the last host access was answered with, none for Unsupported Request
(R394). `owed` lists the lines whose rewrite a write began that has still to be
performed: the line, and the request (false) or command that writes it (R321). -/
structure State where
  power    : Bool
  agenda   : List (Nat × Instr)
  turn     : Nat
  cur      : Nat
  free     : Nat
  nextId   : Nat
  clk      : Nat
  lskew    : Tbl Nat
  cores    : Tbl Core
  clusters : Tbl Cluster
  strands  : Tbl Strand
  groups   : Tbl Group
  nextTag  : Nat
  saves    : Nat
  areas    : List SaveSlot
  launches : List Launch
  lastLq   : Tbl Nat
  lastDisp : Tbl Nat
  parts    : Tbl Partition
  gangs    : List Gang
  reqs     : List Req
  cmds     : List Cmd
  posts    : List Post
  faults   : List FaultRec
  preqs    : List PageReq
  mem      : Mem
  hostMem  : Mem
  majors   : Tbl Nat
  pages    : Tbl PageMeta
  keys     : Tbl KeyRec
  poison   : List (Nat × Option Nat)
  rewrites : Tbl Rewrite
  owed     : List (Nat × Bool × Nat)
  misscnt  : Tbl W64
  rungs    : List Rung
  sealCnt  : Nat
  ports    : Tbl Port
  peerSched : List (Nat × Nat × List SchedEntry)
  msgs     : List Msg
  relayBuf : List RelayRun
  links    : Tbl Link
  dieRoutes : Tbl Nat
  fwin     : Tbl (W64 × W64 × W64)
  accepts  : List (Nat × Nat × Nat)
  far      : List FarCmd
  linkKeys : List LinkKey
  linkRuns : List LinkRun
  leases   : List Lease
  xmss     : Nat
  spdm     : Tbl Spdm
  ide      : Tbl (Nat × BitVec 256)
  mgmt     : Mgmt
  lantern  : List LanternRecord
  answer   : Option (List Byte)
  deriving DecidableEq, Repr

/-- The package right after device reset: no partition exists, no strand runs, Lantern's ROM has not started (R400). -/
def State.reset : State :=
  { power := true, agenda := [], turn := 0, cur := 0, free := 0, nextId := 0, clk := 0, lskew := [], cores := [],
    clusters := [], strands := [], groups := [], nextTag := 1, saves := 0, areas := [], launches := [], lastLq := [], lastDisp := [],
    parts := [], gangs := [], reqs := [], cmds := [], posts := [], faults := [], preqs := [], mem := [], hostMem := [],
    majors := [], pages := [], keys := [], poison := [], rewrites := [], owed := [], misscnt := [], rungs := [], sealCnt := 0, ports := [],
    peerSched := [], msgs := [], relayBuf := [], links := [], dieRoutes := [], fwin := [], accepts := [], far := [], linkKeys := [], linkRuns := [],
    leases := [],
    xmss := 0, spdm := [], ide := [], mgmt := Mgmt.reset, lantern := [], answer := none }

end Sys2Proof.Machine
end

