-- ==== Sys2Proof/Machine/Ops.lean ====
section
/-! DEFINITION. The named operations over tables, bytes, registers and writes in flight, and the two shared operations of traps:
taking one (R282 to R289) and returning from one (R123, R287). -/

namespace Sys2Proof.Machine

/-! ## Tables -/

/-- The entry of a number. -/
def Tbl.find {α : Type} : Tbl α → Nat → Option α
  | [], _ => none
  | (j, x) :: r, k => if j = k then some x else Tbl.find r k

/-- The entry of a number, or what an unlisted number reads as. -/
def Tbl.getD {α : Type} (t : Tbl α) (k : Nat) (d : α) : α := (Tbl.find t k).getD d

/-- Lists an entry, numbers rising. -/
def Tbl.insert {α : Type} : Tbl α → Nat → α → Tbl α
  | [], k, v => [(k, v)]
  | (j, x) :: r, k, v =>
    if k < j then (k, v) :: (j, x) :: r
    else if k = j then (k, v) :: r
    else (j, x) :: Tbl.insert r k v

/-- Removes an entry. -/
def Tbl.erase {α : Type} (t : Tbl α) (k : Nat) : Tbl α := t.filter fun e => e.1 != k

/-- Writes a value where an unlisted number reads as `d`: that value is not listed. -/
def Tbl.put {α : Type} [DecidableEq α] (d : α) (t : Tbl α) (k : Nat) (v : α) : Tbl α :=
  if v = d then Tbl.erase t k else Tbl.insert t k v

/-- Changes a listed entry. -/
def Tbl.modify {α : Type} (t : Tbl α) (k : Nat) (f : α → α) : Tbl α := t.map fun e => if e.1 = k then (e.1, f e.2) else e

/-- Numbers strictly rising. -/
def rising : List Nat → Bool
  | a :: b :: r => decide (a < b) && rising (b :: r)
  | _ => true

/-- Inserts by a key, after the entries of the same key. -/
def insertBy {α : Type} (f : α → Nat) (x : α) : List α → List α
  | [] => [x]
  | y :: r => if f x < f y then x :: y :: r else y :: insertBy f x r

/-- A list in ascending order of a key. -/
def sortBy {α : Type} (f : α → Nat) (l : List α) : List α := l.foldl (fun a x => insertBy f x a) []

/-! ## Bytes -/

/-- One byte of a store. -/
def Mem.read (m : Mem) (a : Nat) : Byte := Tbl.getD m a 0

/-- Writes one byte. -/
def Mem.write (m : Mem) (a : Nat) (b : Byte) : Mem := Tbl.put 0 m a b

/-- The canonical form: addresses strictly rising, no byte listed that an unlisted address reads as. -/
def Mem.wf (m : Mem) : Bool := rising (m.map Prod.fst) && m.all fun c => c.2 != 0

/-- `n` bytes from an address. -/
def Mem.readN (m : Mem) (a n : Nat) : List Byte := (List.range n).map fun k => Mem.read m (a + k)

/-- Writes bytes from an address on. -/
def Mem.writeN (m : Mem) (a : Nat) : List Byte → Mem
  | [] => m
  | b :: r => Mem.writeN (Mem.write m a b) (a + 1) r

/-- Writes the bytes that are given, leaving the others. -/
def Mem.writeMasked (m : Mem) (a : Nat) : List (Option Byte) → Mem
  | [] => m
  | some b :: r => Mem.writeMasked (Mem.write m a b) (a + 1) r
  | none :: r => Mem.writeMasked m (a + 1) r

/-- Writes zeros over a range. -/
def Mem.zero (m : Mem) (a n : Nat) : Mem := m.filter fun c => !(a ≤ c.1 && c.1 < a + n)

/-- A run of bytes over what a store holds there. -/
def Mem.splice (m : Mem) (a : Nat) (b : List Byte) : Mem :=
  m.filter (fun c => decide (c.1 < a)) ++ ((b.zipIdx a).map fun e => (e.2, e.1)).filter (fun c => c.2 != 0) ++
    m.filter fun c => decide (a + b.length ≤ c.1)

/-- `n` bytes from an address on that no listed address lies below. -/
def Mem.runFrom : Mem → Nat → Nat → List Byte
  | _, _, 0 => []
  | [], a, n + 1 => 0 :: Mem.runFrom [] (a + 1) n
  | (j, b) :: r, a, n + 1 => if j = a then b :: Mem.runFrom r (a + 1) n else 0 :: Mem.runFrom ((j, b) :: r) (a + 1) n

/-- `n` bytes from an address. -/
def Mem.run (m : Mem) (a n : Nat) : List Byte := Mem.runFrom (m.filter fun c => decide (a ≤ c.1)) a n

/-- The number that bytes hold, little-endian (R9). -/
def leNat : List Byte → Nat
  | [] => 0
  | b :: r => b.toNat + 256 * leNat r

/-- The `n` low bytes of a number, little-endian (R9). -/
def natLe : Nat → Nat → List Byte
  | 0, _ => []
  | n + 1, v => BitVec.ofNat 8 v :: natLe n (v / 256)

/-- The 64-bit word at an address. -/
def Mem.word (m : Mem) (a : Nat) : W64 := BitVec.ofNat 64 (leNat (Mem.readN m a 8))

/-- A two's-complement number of `w` bits (R43). -/
def toSigned (w x : Nat) : Int := if x % 2 ^ w < 2 ^ (w - 1) then (x % 2 ^ w : Nat) else (x % 2 ^ w : Nat) - (2 ^ w : Nat)

/-- The `w` low bits of an integer (R43). -/
def ofSigned (w : Nat) (x : Int) : Nat := (x % (2 ^ w : Nat)).toNat

/-- Bits [hi:lo] of a number. -/
def bits (x hi lo : Nat) : Nat := x / 2 ^ lo % 2 ^ (hi + 1 - lo)

/-- A field placed in a register. -/
def place (v : Nat) (hi lo : Nat) : Nat := v % 2 ^ (hi + 1 - lo) * 2 ^ lo

/-- Elements of `w` bits packed from bit 0 up (R127). -/
def packElems (w : Nat) : List Nat → Nat
  | [] => 0
  | x :: r => x % 2 ^ w + 2 ^ w * packElems w r

/-- Element `i` of `w` bits. -/
def elemAt (w x i : Nat) : Nat := x >>> (i * w) % 2 ^ w

/-- The first `n` elements of `w` bits. -/
def unpackElems (w n x : Nat) : List Nat := (List.range n).map (elemAt w x)

/-! ## The state's lenses -/

/-- A strand by its package number; one that is not resident reads as idle. -/
def State.strand (s : State) (k : Nat) : Strand := Tbl.getD s.strands k Strand.idle

/-- Replaces a strand. -/
def State.setStrand (s : State) (k : Nat) (x : Strand) : State := { s with strands := Tbl.insert s.strands k x }

/-- The strand whose bundle is in issue. -/
def State.me (s : State) : Strand := s.strand s.cur

/-- Replaces the strand whose bundle is in issue. -/
def State.setMe (s : State) (x : Strand) : State := s.setStrand s.cur x

/-- A change of the strand in issue. -/
def State.onMe (s : State) (f : Strand → Strand) : State := s.setMe (f s.me)

/-- A core by its package number (R2). -/
def State.core (s : State) (c : Nat) : Core := Tbl.getD s.cores c Core.reset

/-- Replaces a core. -/
def State.setCore (s : State) (c : Nat) (x : Core) : State := { s with cores := Tbl.put Core.reset s.cores c x }

/-- A cluster by its package number. -/
def State.cluster (s : State) (c : Nat) : Cluster := Tbl.getD s.clusters c Cluster.reset

/-- Replaces a cluster. -/
def State.setCluster (s : State) (c : Nat) (x : Cluster) : State := { s with clusters := Tbl.put Cluster.reset s.clusters c x }

/-- CYC of a core (R6). -/
def State.cyc (s : State) (c : Nat) : Nat := s.clk + (s.core c).skew

/-- LCYC of a die (R6). -/
def State.lcycOf (s : State) (d : Nat) : Nat := s.clk + Tbl.getD s.lskew d 0

/-- The core of a strand (R2). -/
def coreOf (strand : Nat) : Nat := strand / 2

/-- The cluster of a strand (R2). -/
def clusterOf (strand : Nat) : Nat := strand / 16

/-- The die of a strand (R2). -/
def dieOf (strand : Nat) : Nat := strand / 128

/-- A number not used before, for a request, command, post or fault. -/
def State.fresh (s : State) : Nat × State := (s.nextId, { s with nextId := s.nextId + 1 })

/-- A group by its tag; one that does not exist reads as an empty one. -/
def State.grp (s : State) (g : Nat) : Group := Tbl.getD s.groups g Group.none

/-- Replaces a group. -/
def State.setGrp (s : State) (g : Nat) (x : Group) : State := { s with groups := Tbl.insert s.groups g x }

/-- The group of the strand in issue. -/
def State.myGrp (s : State) : Group := s.grp s.me.gtag

/-- One of `n` outcomes that the manual leaves open (R1). -/
def State.choose (s : State) (n : Nat) : Nat × State := (Config.choice s.free % n, { s with free := s.free + 1 })

/-! ## Registers -/

/-- s registers; s0 reads as zero (R15). -/
def Strand.s (x : Strand) (r : BitVec 6) : W64 := if r = 0 then 0 else Tbl.getD x.sreg r.toNat 0

/-- Predicates; p0 reads as all ones (R15). -/
def Strand.p (x : Strand) (r : Nat) : PReg := if r = 0 then BitVec.allOnes 1024 else Tbl.getD x.preg r 0

/-- Vector registers of the strand's window. -/
def Strand.v (x : Strand) (r : Nat) : VReg := Tbl.getD x.vreg r 0

/-- Lane `i` of a modulus register (R164). -/
def Strand.mLane (x : Strand) (r : BitVec 2) (i : Nat) : W64 := Tbl.getD x.mreg (64 * r.toNat + i % 64) 0

/-- Lane `i` of a reduction-constant register (R164). -/
def Strand.kLane (x : Strand) (r : BitVec 2) (i : Nat) : W64 := Tbl.getD x.kreg (64 * r.toNat + i % 64) 0

/-- Ring handles; one that nothing enabled is zero (R34). -/
def Strand.ring (x : Strand) (h : Nat) : Ring := Tbl.getD x.rings h Ring.off

/-- Replaces a ring handle. -/
def Strand.setRing (x : Strand) (h : Nat) (r : Ring) : Strand := { x with rings := Tbl.put Ring.off x.rings h r }

/-- The operand latches of the mode the bundle issues in (R134). -/
def Strand.latch (x : Strand) : Latches := if x.iss.handler then x.latH else x.latK

/-- Replaces the operand latches of the mode the bundle issues in. -/
def Strand.setLatch (x : Strand) (l : Latches) : Strand := if x.iss.handler then { x with latH := l } else { x with latK := l }

/-! ## Writes in flight -/

/-- Lists a write of the bundle in issue, in the count of its mode (R83, R286). -/
def Strand.addWrite (x : Strand) (w : Write) : Strand :=
  if x.iss.handler then { x with pendH := x.pendH ++ [w] } else { x with pend := x.pend ++ [w] }

/-- A write of exposed latency `lat` by the bundle in issue (R83). -/
def Strand.push (x : Strand) (lat : Nat) (t : Target) : Strand := x.addWrite ⟨x.iss.n + lat, none, false, true, false, t⟩

/-- A scalar result; s0 discards it (R15). -/
def Strand.pushS (x : Strand) (lat : Nat) (r : BitVec 6) (v : W64) : Strand :=
  if r = 0 then x else x.push lat (.s r.toNat v)

/-- A predicate result over the lanes of `mask`; p0 discards it (R15). -/
def Strand.pushP (x : Strand) (lat : Nat) (r : BitVec 4) (mask data : PReg) : Strand :=
  if r = 0 then x else x.push lat (.p r.toNat mask data)

/-- A landing of the bundle in issue (R25, R200): visible at `n + arr` once the request or command `id` has its data. A load's takes an
entry of the landing buffer. -/
def Strand.land (x : Strand) (entry : Bool) (arr id : Nat) (t : Target) : Strand :=
  x.addWrite ⟨x.iss.n + arr, some id, entry, false, false, t⟩

/-- Selects by bits: `d` where the mask bit is set, else `o`. -/
def blend {w : Nat} (mask o d : BitVec w) : BitVec w := (o &&& ~~~mask) ||| (d &&& mask)

/-- A byte mask as a bit mask. -/
def byteMask (m : BitVec 512) : VReg :=
  BitVec.ofNat 4096 (packElems 8 ((List.range 512).map fun i => if m.getLsbD i then 255 else 0))

/-- Writes lanes of a modulus or constant register. -/
def putLanes (t : Tbl W64) (i : Nat) (mask : BitVec 64) (data : VReg) : Tbl W64 :=
  (List.range 64).foldl (fun a k => if mask.getLsbD k then Tbl.put 0 a (64 * i + k) (data.extractLsb' (64 * k) 64) else a) t

/-- Registers of a landing group from `r` on. -/
def putGroup (t : Tbl VReg) (r : Nat) : List VReg → Tbl VReg
  | [] => t
  | v :: l => putGroup (Tbl.put 0 t r v) (r + 1) l

/-- A row rotated by `n` PE rows of four bytes (R189). -/
def rotateRow (n : Nat) (b : BitVec 6144) : BitVec 6144 :=
  BitVec.ofNat 6144 (packElems 32 ((List.range 192).map fun r =>
    elemAt 32 b.toNat (if r < 96 then (r + 96 - n % 96) % 96 else r)))

/-- Appends an entry to the operand latch (R187). -/
def Matrix.append (m : Matrix) (b : BitVec 6144) : Matrix := { m with queue := m.queue ++ [(m.nextId, b)], nextId := m.nextId + 1 }

/-- The row image of a gathered row (R190): segment i supplies bytes 64i to 64i + 63, of which the row's own bytes count. -/
def gatherRow (rowBytes : Nat) (segs : List GatherSeg) : BitVec 6144 :=
  BitVec.ofNat 6144 (packElems 512 (segs.map fun g => (g.seen.getD 0).toNat) % 2 ^ (8 * rowBytes))

/-- What a write does when it becomes visible (R83, R85, R185, R187, R189). -/
def Strand.apply (x : Strand) : Target → Strand
  | .s r v => { x with sreg := Tbl.put 0 x.sreg r v }
  | .v r mask data => { x with vreg := Tbl.put 0 x.vreg r (blend (byteMask mask) (x.v r) data) }
  | .group r regs => { x with vreg := putGroup x.vreg r regs }
  | .p r mask data => { x with preg := Tbl.put 0 x.preg r (blend mask (x.p r) data) }
  | .fmt v => { x with fmt := v }
  | .m i mask data => { x with mreg := putLanes x.mreg i mask data }
  | .k i mask data => { x with kreg := putLanes x.kreg i mask data }
  | .mcfg kr nc => { x with mat := { x.mat with kr := kr, nc := nc } }
  | .shadow row image => { x with mat := { x.mat with shadow := Tbl.put 0 x.mat.shadow row image } }
  | .stage image => { x with mat := x.mat.append image }
  | .gather _ _ n rows => { x with mat := rows.foldl (fun m r => m.append (gatherRow n r)) x.mat }
  | .rotate entry n =>
    { x with mat := { x.mat with queue := x.mat.queue.map fun e => if e.1 = entry then (e.1, rotateRow n e.2) else e } }
  | .nothing => x

/-- A write listed by its visibility bundle, after the earlier ones of the same bundle (R85). -/
def insertWrite (w : Write) : List Write → List Write
  | [] => [w]
  | v :: r => if w.vis < v.vis then w :: v :: r else v :: insertWrite w r

/-- Writes in the order in which they take effect: by visibility bundle, then by issue (R85). -/
def sortWrites (l : List Write) : List Write := l.foldl (fun a w => insertWrite w a) []

/-- Applies writes in order. -/
def Strand.applyAll (x : Strand) (l : List Write) : Strand := l.foldl (fun y w => y.apply w.tgt) x

/-- Makes every write visible whose visibility bundle is at most `n`, in the count of the mode (R5, R83). -/
def Strand.settle (x : Strand) (handler : Bool) (n : Nat) : Strand :=
  let l := if handler then x.pendH else x.pend
  let y := x.applyAll ((sortWrites l).filter fun w => decide (w.vis ≤ n) && w.ready)
  let rest := l.filter fun w => !(decide (w.vis ≤ n) && w.ready)
  if handler then { y with pendH := rest } else { y with pend := rest }

/-- The landing entries a strand holds (R25). -/
def Strand.landings (x : Strand) : Nat :=
  (x.pend.filter Write.entry).length + (x.pendH.filter Write.entry).length

/-! ## System registers as words -/

/-- HCFG (R19). -/
def Ring.cfg (r : Ring) : W64 :=
  BitVec.ofNat 64 (place r.base 20 0 + place r.slsz 43 32 + place r.nslot 59 48 + place (if r.en then 1 else 0) 63 63)

/-- HSTAT (R19). -/
def Ring.stat (r : Ring) : W64 :=
  BitVec.ofNat 64 (place r.head 11 0 + place r.tail 23 12 + place r.fill 35 24 + place r.free 47 36 + place r.infl 59 48 +
    place r.bind 61 60)

/-- A loop stack entry as a word (R24). -/
def LoopEntry.word (l : LoopEntry) : W64 :=
  BitVec.ofNat 64 (place l.start 12 0 + place l.last 28 16 + place (if l.rot then 1 else 0) 31 31 + place l.count 63 32)

/-- STATE codes of CTX (R36). -/
def Life.code : Life → Nat
  | .run => 1
  | .faultWait => 2
  | .draining => 3
  | .doneWait => 4

/-- CTX (R31). -/
def Strand.ctx (x : Strand) : W64 :=
  BitVec.ofNat 64 (place x.life.code 2 0 + place (if x.handler then 1 else 0) 3 3 + place (if x.contract then 1 else 0) 4 4 +
    place (if x.fov then 1 else 0) 5 5 + place (if x.matrixOwn then 1 else 0) 6 6 + place x.nvreg 14 8)

/-- REG (R299). -/
def Strand.reg (x : Strand) : W64 :=
  BitVec.ofNat 64 (place (if x.regOpen then 1 else 0) 0 0 + place x.held.length 7 1 + place x.regStart 28 16)

/-- SELF (R31). -/
def Strand.self (x : Strand) (strand : Nat) : W64 :=
  BitVec.ofNat 64 (place strand 8 0 + place x.sidx 19 16 + place x.gszm 23 20 + place x.part 27 24 + place x.gtag 51 28)

/-- A system register as RDSR reads it (R31, R117). LOOPn beyond LOOP.DEPTH, and TVEC of an image that declares no handler, read 0: the
manual gives them no value (DESIGN CHOICE, log entry 79). -/
def State.sysReg (s : State) (strand n : Nat) : W64 :=
  let x := s.strand strand
  if n = 0x000 then BitVec.ofNat 64 (s.cyc (coreOf strand))
  else if n = 0x001 then x.fmt.setWidth 64
  else if n = 0x002 then x.wid
  else if n = 0x003 then x.self strand
  else if n = 0x004 then BitVec.ofNat 64 x.sbn
  else if n = 0x008 then x.epc
  else if n = 0x009 then x.tcause
  else if n = 0x00A then x.tval
  else if n = 0x00B then BitVec.ofNat 64 (x.image.tvec.getD 0)
  else if n = 0x00C then x.ctx
  else if n = 0x00D then x.reg
  else if n = 0x00E then BitVec.ofNat 64 x.image.dpbound
  else if n = 0x010 then BitVec.ofNat 64 x.loops.length
  else if 0x030 ≤ n ∧ n ≤ 0x035 then ((x.loops.reverse)[n - 0x030]?.map LoopEntry.word).getD 0
  else if 0x040 ≤ n ∧ n ≤ 0x04F then (x.ring (n - 0x040)).cfg
  else if 0x050 ≤ n ∧ n ≤ 0x05F then (x.ring (n - 0x050)).stat
  else 0

/-! ## Taking a trap and returning from one -/

/-- TCAUSE.CODE (R280). -/
def Cause.code : Cause → Nat
  | .illegal => 1
  | .bounds => 2
  | .loop => 3
  | .format => 4
  | .ring => 5
  | .modulus => 6
  | .engine => 7
  | .key => 8
  | .promise => 9
  | .trap => 10
  | .address => 11

/-- TCAUSE (R281). -/
def tcauseWord (c : Cause) (slot : Nat) (perf : BitVec 4) (pend : Bool) (stage akind : Nat) : W64 :=
  BitVec.ofNat 64 (place c.code 7 0 + place slot 9 8 + place perf.toNat 13 10 + place (if pend then 1 else 0) 14 14 +
    place stage 15 15 + place akind 17 16)

/-- TCAUSE.PERF (R281). -/
def perfOf (t : W64) : BitVec 4 := t.extractLsb' 10 4

/-- TCAUSE with another PERF. -/
def withPerf (t : W64) (p : BitVec 4) : W64 := (t &&& ~~~(0x3C00#64)) ||| (p.setWidth 64 <<< 10)

/-- What a trap reports (R280, R281): cause, slot, TVAL, and for a pending trap its stage and kind. -/
structure Report where
  cause : Cause
  slot  : Nat
  tval  : W64
  pend  : Bool
  stage : Nat
  akind : Nat
  deriving DecidableEq, Repr

/-- Taking a trap (R284, R289), in one step. With a handler and in kernel mode, the registers of the trap are set, the mode
becomes handler mode, the handler's operand latches read zero, its count starts at 0 and the next bundle is TVEC, from the
second core cycle on. Otherwise the trap is not taken: the strand waits in FAULTWAIT, EPC, TCAUSE and TVAL keep their values,
and the replay buffer holds the untaken-trap record. `idx`, `n`, `handler`, `first`, `next` and `perf` describe the bundle. A strand in
DRAINING keeps that state in its handler, a case R36's table does not list (log entry 80). -/
def Strand.takeTrap (x : Strand) (idx n : Nat) (handler first : Bool) (next : Option Nat) (perf : BitVec 4) (r : Report) : Strand :=
  match handler, x.image.tvec with
  | false, some tvec =>
    { x with
      epc := BitVec.ofNat 64 idx
      tcause := tcauseWord r.cause r.slot perf r.pend r.stage r.akind
      tval := r.tval
      handler := true
      hcnt := 0
      latH := .zero
      pc := tvec
      holdFor := 1
      served := false
      vxHold := none
      released := false
      iss := .none
      replay := some ⟨idx, n, false, first, next, perf, false, false, x.iss.regOp, none⟩ }
  | _, _ =>
    let b : Replay := ⟨idx, n, handler, first, next, perf, false, x.iss.eret, x.iss.regOp, some (r.cause, r.tval)⟩
    { x with
      life := .faultWait
      iss := .none
      served := false
      vxHold := none
      released := false
      replay := if handler then x.replay else some b
      hreplay := if handler then some b else none }

/-- The performed bit of a slot. -/
def slotBit (k : Nat) : BitVec 4 := BitVec.ofNat 4 (2 ^ k)

/-- A slot of the bundle in issue has performed (R282, R283). -/
def Strand.performed (x : Strand) (k : Nat) : Strand := { x with iss := { x.iss with perf := x.iss.perf ||| slotBit k } }

/-- A slot of the bundle in issue traps (R282). When several slots trap, the lowest-numbered is reported; the others only stay
unperformed. -/
def Strand.slotTrap (x : Strand) (k : Nat) (c : Cause) (tval : W64) : Strand :=
  match x.iss.trapped with
  | none => { x with iss := { x.iss with trapped := some (k, c, tval) } }
  | some r => if r.1 ≤ k then x else { x with iss := { x.iss with trapped := some (k, c, tval) } }

/-- The bundle that the strand reissues in its present mode (R285, R289). -/
def Strand.reissue (x : Strand) : Option Replay :=
  match (if x.handler then x.hreplay else x.replay) with
  | some r => if r.again then some r else none
  | none => none

/-- A trap before any slot of the bundle performs: JR and RET (R104, R282). -/
def Strand.voidTrap (x : Strand) (k : Nat) (c : Cause) (tval : W64) : Strand :=
  { x with iss := { x.iss with void := true, perf := (x.reissue.map Replay.perf).getD 0 } }.slotTrap k c tval

/-- The control transfer that slot A selects (R105). -/
def Strand.setNext (x : Strand) (t : Nat) : Strand := { x with iss := { x.iss with next := some t } }

/-- `rotate_q(c)` (R109). -/
def rotateQ (q : BitVec 8) (c : Nat) : BitVec 8 := (q <<< 1) ||| (if 8 ≤ c then 1 else 0)

/-- The end evaluation of R108 over the loop stack, innermost entry first: the stack, the stage predicates and the next bundle.
-/
def loopEnd (b : Nat) : List LoopEntry → BitVec 8 → List LoopEntry × BitVec 8 × Nat
  | [], q => ([], q, b + 1)
  | e :: r, q =>
    if e.last = b then
      let c := e.count - 1
      let q' := if e.rot then rotateQ q c else q
      if c ≠ 0 then ({ e with count := c } :: r, q', e.start) else loopEnd b r q'
    else (e :: r, q, b + 1)

/-- A bundle completes (R108, R105): a taken transfer selects the next bundle, otherwise the end evaluation does. -/
def Strand.complete (x : Strand) (idx : Nat) (next : Option Nat) : Strand :=
  match next with
  | some t => { x with pc := t }
  | none =>
    let e := loopEnd idx x.loops x.q
    { x with loops := e.1, q := e.2.1, pc := e.2.2 }

/-- The slots of a bundle word that hold no instruction count as performed (R282); a header does not occupy slot A (R62). -/
def idleSlots (w : BundleWord) : BitVec 4 :=
  (if slotOf w 0 = 0 ∨ isHdr (slotOf w 0) = true then 1 else 0) ||| (if slotOf w 1 = 0 then 2 else 0) |||
  (if slotOf w 2 = 0 then 4 else 0) ||| (if slotOf w 3 = 0 then 8 else 0)

/-- A bundle of the strand's image; an unlisted bundle is all zero (R35). -/
def Strand.bundleAt (x : Strand) (i : Nat) : BundleWord := Tbl.getD x.image.code i 0

/-- Returning from a trap (R123, R287): every handler write in flight becomes visible, the mode becomes kernel mode and the
strand continues at EPC, reissuing the slots whose performed bits are 0. With every performed bit set the bundle at EPC is
complete, and the one that follows it is next; a bundle that never issued takes no strand bundle number (R285), and its header has still
to act. A transfer that slot A selected before the trap counts only for that bundle. A store of the handler has no kernel bundle, so R192 names no
place for it in the window of a kernel gather in flight: the gather sees it (log entry 98). -/
def Strand.ret (x : Strand) : Strand :=
  let y := { x.applyAll (sortWrites x.pendH) with
    pendH := []
    spadLog := x.spadLog.filter fun (e : SpadStore) => !(x.spadLog.any fun h => h.hnd && h.line == e.line && decide (e.ord ≤ h.ord))
    accOps := x.accOps.map fun (a : AccWrite) => if a.hnd then { a with hnd := false, vis := 0 } else a
    handler := false
    hcnt := 0 }
  let idx := x.epc.toNat
  let perf := perfOf x.tcause
  let same : Bool := match x.replay with
    | some r => r.idx == idx
    | none => false
  let next := if same then x.replay.bind Replay.next else none
  let first := (x.replay.map Replay.first).getD true
  if perf = 0xF then { y.complete idx next with replay := none, sbn := if first then x.sbn else x.sbn + 1 }
  else
    let op := if same then x.replay.bind Replay.regOp else none
    { y with pc := idx, replay := some ⟨idx, x.sbn, false, first, next, perf, true, false, op, none⟩ }

end Sys2Proof.Machine
end

