-- ==== Sys2Proof/Machine/Float.lean ====
section
/-! DEFINITION. The floating-point formats and the one rounding of every operation (R39 to R47): exact results are formed as a sign, a
magnitude and a power of two, and rounded once. -/

namespace Sys2Proof.Machine

/-- The rounding modes, in code order (R44). -/
inductive Rnd where
  | rne | rtz | rdn | rup
  deriving DecidableEq, Repr

/-- The mode of FMT.RM (R27). -/
def rndOf (n : Nat) : Rnd :=
  match n with
  | 1 => .rtz | 2 => .rdn | 3 => .rup | _ => .rne

/-- A floating-point format (R39, R40): width, fraction bits, bias, the largest finite magnitude code, the infinity code if there is
one, and the canonical NaN. -/
structure Fmt where
  w    : Nat
  f    : Nat
  bias : Nat
  maxc : Nat
  inf  : Option Nat
  nan  : Nat
  deriving DecidableEq, Repr

/-- binary64. -/
def Fmt.f64 : Fmt := ⟨64, 52, 1023, 0x7FEFFFFFFFFFFFFF, some 0x7FF0000000000000, 0x7FF8000000000000⟩
/-- binary32. -/
def Fmt.f32 : Fmt := ⟨32, 23, 127, 0x7F7FFFFF, some 0x7F800000, 0x7FC00000⟩
/-- binary16. -/
def Fmt.f16 : Fmt := ⟨16, 10, 15, 0x7BFF, some 0x7C00, 0x7E00⟩
/-- BF16. -/
def Fmt.bf16 : Fmt := ⟨16, 7, 127, 0x7F7F, some 0x7F80, 0x7FC0⟩
/-- E4M3. -/
def Fmt.e4m3 : Fmt := ⟨8, 3, 7, 0x7E, none, 0x7F⟩
/-- E5M2. -/
def Fmt.e5m2 : Fmt := ⟨8, 2, 15, 0x7B, some 0x7C, 0x7E⟩

/-- The format of a floating-point type; an integer type has none. -/
def tyFmt : Ty → Option Fmt
  | .f64 => some .f64
  | .f32 => some .f32
  | .bf16 => some .bf16
  | .f16 => some .f16
  | .e4m3 => some .e4m3
  | .e5m2 => some .e5m2
  | .i8 | .i16 | .i32 | .i64 | .n8 | .n16 | .n32 | .n64 => none

/-- The value of an encoding: NaN, a signed infinity, or (−1)^neg × m × 2^e. -/
inductive FV where
  | nan
  | inf (neg : Bool)
  | fin (neg : Bool) (m : Nat) (e : Int)
  deriving DecidableEq, Repr

/-- The value of an encoding (R39, R40). -/
def Fmt.value (F : Fmt) (x : Nat) : FV :=
  let neg := x.testBit (F.w - 1)
  let c := x % 2 ^ (F.w - 1)
  if F.maxc < c then (if F.inf = some c then .inf neg else .nan)
  else
    let ef := c / 2 ^ F.f
    let fr := c % 2 ^ F.f
    if ef = 0 then .fin neg fr (1 - (F.bias : Int) - F.f)
    else .fin neg (2 ^ F.f + fr) ((ef : Int) - F.bias - F.f)

/-- The sign bit of an encoding. -/
def Fmt.sign (F : Fmt) (neg : Bool) : Nat := if neg then 2 ^ (F.w - 1) else 0

/-- Rounds up: the mode, the sign, whether the kept part is odd, and the discarded part against half a unit (R44). -/
def Rnd.up (r : Rnd) (neg odd : Bool) (rest half : Nat) (sticky : Bool) : Bool :=
  match r with
  | .rne => half < rest || (rest == half && (sticky || odd))
  | .rtz => false
  | .rdn => neg && (rest != 0 || sticky)
  | .rup => !neg && (rest != 0 || sticky)

/-- `m × 2^e` (plus a part below one unit of `m` when `sticky`) rounded to a multiple of 2^q, in units of 2^q (R44). Where nothing
is to be discarded the value is exact; callers give enough bits that `sticky` then is false. -/
def roundAt (r : Rnd) (neg : Bool) (m : Nat) (e q : Int) (sticky : Bool) : Nat :=
  if q ≤ e then m * 2 ^ (e - q).toNat
  else
    let k := (q - e).toNat
    let kept := m >>> k
    let rest := m % 2 ^ k
    if r.up neg (kept % 2 == 1) rest (2 ^ (k - 1)) sticky then kept + 1 else kept

/-- The magnitude code of a non-zero `m × 2^e` rounded with an unbounded exponent range (R44, R45); a code above the largest finite one
is an overflow. -/
def Fmt.code (F : Fmt) (r : Rnd) (neg : Bool) (m : Nat) (e : Int) (sticky : Bool) : Nat :=
  let top : Int := e + Nat.log2 m
  let low : Int := 1 - (F.bias : Int) - F.f
  let q := max (top - F.f) low
  let n := roundAt r neg m e q sticky
  ((q - low).toNat) * 2 ^ F.f + n

/-- Overflow goes to an infinity (R45). -/
def Rnd.toInf (r : Rnd) (neg : Bool) : Bool :=
  match r with
  | .rne => true
  | .rtz => false
  | .rdn => neg
  | .rup => !neg

/-- An infinite result (R40, R46): the infinity, the largest finite value where the conversion saturates, or the canonical NaN where the
format has no infinity. -/
def Fmt.infinity (F : Fmt) (sat neg : Bool) : Nat :=
  if sat then F.sign neg + F.maxc
  else match F.inf with
    | some c => F.sign neg + c
    | none => F.nan

/-- One rounding of an exact value, `sticky` telling of a part below one unit of its magnitude (R44 to R46). -/
def Fmt.roundS (F : Fmt) (r : Rnd) (sat : Bool) (v : FV) (sticky : Bool) : Nat :=
  match v with
  | .nan => F.nan
  | .inf neg => F.infinity sat neg
  | .fin neg m e =>
    if m = 0 then F.sign neg
    else
      let c := F.code r neg m e sticky
      if F.maxc < c then (if r.toInf neg then F.infinity sat neg else F.sign neg + F.maxc)
      else F.sign neg + c

/-- One rounding of an exact value. -/
def Fmt.round (F : Fmt) (r : Rnd) (v : FV) : Nat := F.roundS r false v false

/-! ## Exact arithmetic -/

/-- The magnitude brought to exponent `q ≤ e`, signed. -/
def signedAt (neg : Bool) (m : Nat) (e q : Int) : Int :=
  let x : Int := (m * 2 ^ (e - q).toNat : Nat)
  if neg then -x else x

/-- Exact sum (R44): an exact zero takes the sign IEEE 754 gives it in the mode. -/
def FV.add (r : Rnd) (a b : FV) : FV :=
  match a, b with
  | .nan, _ => .nan
  | _, .nan => .nan
  | .inf s, .inf t => if s = t then .inf s else .nan
  | .inf s, .fin _ _ _ => .inf s
  | .fin _ _ _, .inf t => .inf t
  | .fin s m e, .fin t n f =>
    let q := min e f
    let x := signedAt s m e q + signedAt t n f q
    if x = 0 then .fin (if s = t then s else r == .rdn) 0 q
    else .fin (decide (x < 0)) x.natAbs q

/-- Sign inversion. -/
def FV.neg : FV → FV
  | .nan => .nan
  | .inf s => .inf !s
  | .fin s m e => .fin (!s) m e

/-- Exact product; infinity times zero is NaN (R42). -/
def FV.mul (a b : FV) : FV :=
  match a, b with
  | .nan, _ => .nan
  | _, .nan => .nan
  | .inf s, .inf t => .inf (s != t)
  | .inf s, .fin t n _ => if n = 0 then .nan else .inf (s != t)
  | .fin s m _, .inf t => if m = 0 then .nan else .inf (s != t)
  | .fin s m e, .fin t n f => .fin (s != t) (m * n) (e + f)

/-- Quotient, correctly rounded (R136): 0/0 and ∞/∞ are NaN, a non-zero finite value over zero is an infinity. -/
def Fmt.div (F : Fmt) (r : Rnd) (a b : FV) : Nat :=
  match a, b with
  | .nan, _ => F.nan
  | _, .nan => F.nan
  | .inf _, .inf _ => F.nan
  | .inf s, .fin t _ _ => F.infinity false (s != t)
  | .fin s _ _, .inf t => F.sign (s != t)
  | .fin s m e, .fin t n f =>
    if n = 0 then (if m = 0 then F.nan else F.infinity false (s != t))
    else
      let k := F.f + 4 + Nat.log2 n
      let x := m * 2 ^ k
      F.roundS r false (.fin (s != t) (x / n) (e - k - f)) (x % n != 0)

/-- The integer square root, bit by bit from 2^n down. -/
def isqrtFrom (x : Nat) : Nat → Nat → Nat
  | 0, r => if (r + 1) * (r + 1) ≤ x then r + 1 else r
  | n + 1, r => isqrtFrom x n (if (r + 2 ^ (n + 1)) * (r + 2 ^ (n + 1)) ≤ x then r + 2 ^ (n + 1) else r)

/-- ⌊√x⌋. -/
def isqrt (x : Nat) : Nat := isqrtFrom x (Nat.log2 x / 2 + 1) 0

/-- Square root, correctly rounded (R138, R139). -/
def Fmt.sqrt (F : Fmt) (r : Rnd) (v : FV) : Nat :=
  match v with
  | .nan => F.nan
  | .inf s => if s then F.nan else F.infinity false false
  | .fin s m e =>
    if m = 0 then F.sign s
    else if s then F.nan
    else
      let k := 2 * (F.f + 4) + (if e % 2 = 0 then 0 else 1)
      let x := m * 2 ^ k
      let q := isqrt x
      F.roundS r false (.fin false q ((e - k) / 2)) (q * q != x)

/-- 1/√x for a positive finite x, rounded once (R138). -/
def Fmt.rsqrt (F : Fmt) (r : Rnd) (m : Nat) (e : Int) : Nat :=
  let n := if e % 2 = 0 then m else 2 * m
  let f := if e % 2 = 0 then e else e - 1
  let k := F.f + 4 + Nat.log2 n
  let q := isqrt (2 ^ (2 * k) / n)
  F.roundS r false (.fin false q (-(k : Int) - f / 2)) (q * q * n != 2 ^ (2 * k))

/-! ## Comparison, integers -/

/-- Numeric order of two values that are not NaN; −0 equals +0. -/
def FV.lt (a b : FV) : Bool :=
  match a, b with
  | .inf s, .inf t => s && !t
  | .inf s, .fin _ _ _ => s
  | .fin _ _ _, .inf t => !t
  | .fin s m e, .fin t n f => decide (signedAt s m e (min e f) < signedAt t n f (min e f))
  | _, _ => false

/-- A value is NaN. -/
def FV.isNan : FV → Bool
  | .nan => true
  | _ => false

/-- The sign of a value. -/
def FV.isNeg : FV → Bool
  | .nan => false
  | .inf s => s
  | .fin s _ _ => s

/-- The order of R59, in which −0 lies below +0. -/
def FV.below (a b : FV) : Bool := a.lt b || (!b.lt a && a.isNeg && !b.isNeg)

/-- Minimum or maximum of two encodings by R59. -/
def Fmt.minmax (F : Fmt) (big : Bool) (a b : Nat) : Nat :=
  let x := F.value a
  let y := F.value b
  if x.isNan || y.isNan then F.nan
  else if big then (if x.below y then b else a)
  else (if y.below x then b else a)

/-- Rounds a finite value to an integer magnitude (R44, R47). -/
def roundInt (r : Rnd) (neg : Bool) (m : Nat) (e : Int) : Nat := roundAt r neg m e 0 false

/-- The range of an integer type (R43). -/
def tyRange (t : Ty) : Int × Int :=
  if t.isSigned then (-(2 ^ (t.width - 1) : Nat), (2 ^ (t.width - 1) : Nat) - 1) else (0, (2 ^ t.width : Nat) - 1)

/-- Saturation to the range of an integer type. -/
def tyClamp (t : Ty) (x : Int) : Nat := ofSigned t.width (max (tyRange t).1 (min (tyRange t).2 x))

/-- The integer an element of an integer type holds (R43). -/
def tyInt (t : Ty) (x : Nat) : Int := if t.isSigned then toSigned t.width x else (x % 2 ^ t.width : Nat)

/-- Floating point to integer (R47). -/
def FV.toInt (r : Rnd) (t : Ty) (v : FV) : Nat :=
  match v with
  | .nan => 0
  | .inf s => ofSigned t.width (if s then (tyRange t).1 else (tyRange t).2)
  | .fin s m e =>
    let x : Int := roundInt r s m e
    tyClamp t (if s then -x else x)

/-- An integer as an exact value. -/
def FV.ofInt (x : Int) : FV := .fin (decide (x < 0)) x.natAbs 0

/-- Conversion between any two types (R44 to R47, R146). -/
def convert (r : Rnd) (satf : Bool) (dst src : Ty) (x : Nat) : Nat :=
  match tyFmt src, tyFmt dst with
  | some S, some D => D.roundS r (satf && D.w == 8) (S.value x) false
  | some S, none => (S.value x).toInt r dst
  | none, some D => D.roundS r (satf && D.w == 8) (.ofInt (tyInt src x)) false
  | none, none => tyClamp dst (tyInt src x)

/-- VRND of one element (R137): an infinity or a zero unchanged, and a result that rounds to zero keeps its sign. -/
def Fmt.integral (F : Fmt) (r : Rnd) (x : Nat) : Nat :=
  match F.value x with
  | .nan => F.nan
  | .inf s => F.infinity false s
  | .fin s m e => F.round r (.fin s (roundInt r s m e) 0)

/-- VCLASS of one element (R137). -/
def Fmt.classify (F : Fmt) (x : Nat) : Nat :=
  let sub := x % 2 ^ (F.w - 1) / 2 ^ F.f = 0
  match F.value x with
  | .nan => 0x100
  | .inf s => if s then 0x01 else 0x80
  | .fin s m _ =>
    if m = 0 then (if s then 0x08 else 0x10)
    else if sub then (if s then 0x04 else 0x20)
    else (if s then 0x02 else 0x40)

end Sys2Proof.Machine
end

