-- ==== Sys2Proof/Machine/Flags.lean ====
section
/-! DEFINITION. The condition and flag computations: conditions of CMP and VCMP (R70, R99, R144), branch tests (R103), predicate values,
the format register's fields and legal combinations (R27, R28), and the flag arithmetic of R22. -/

namespace Sys2Proof.Machine

/-- A condition of CMP (R99): .eq and .ne compare bits, the n conditions unsigned, the others signed. -/
def cmpHolds (c : Cc) (a b : W64) : Bool :=
  match c with
  | .eq => a == b
  | .ne => a != b
  | .lt => a.slt b
  | .ge => !a.slt b
  | .le => !b.slt a
  | .gt => b.slt a
  | .ltn => a.ult b
  | .gen => !a.ult b
  | .len => !b.ult a
  | .gtn => b.ult a

/-- Every one of the 1,024 bits the same (R99). -/
def fill (b : Bool) : PReg := if b then BitVec.allOnes 1024 else 0

/-- The tests of BRP (R103). -/
def brHolds (t : BrTest) (p : PReg) : Bool :=
  match t with
  | .b0 => p.getLsbD 0
  | .any => p != 0
  | .all => p == BitVec.allOnes 1024
  | .none => p == 0

/-- A floating-point condition of VCMP (R144). -/
def vcmpFp (c : VCc) (a b : FV) : Bool :=
  if a.isNan || b.isNan then c == .ne || c == .un
  else match c with
    | .eq => !a.lt b && !b.lt a
    | .ne => a.lt b || b.lt a
    | .lt => a.lt b
    | .le => !b.lt a
    | .gt => b.lt a
    | .ge => !a.lt b
    | .un => false
    | .or => true

/-- An integer condition of VCMP (R144). -/
def vcmpInt (c : VCc) (a b : Int) : Bool :=
  match c with
  | .eq => a == b
  | .ne => a != b
  | .lt => decide (a < b)
  | .le => decide (a ≤ b)
  | .gt => decide (b < a)
  | .ge => decide (b ≤ a)
  | .un => false
  | .or => true

/-- One element of VCMP, by its type (R144). -/
def vcmpElem (c : VCc) (t : Ty) (a b : Nat) : Bool :=
  match tyFmt t with
  | some F => vcmpFp c (F.value a) (F.value b)
  | none => vcmpInt c (tyInt t a) (tyInt t b)

/-- FMT.AF (R27). -/
def fmtAF (f : BitVec 13) : Nat := (f.extractLsb' 0 4).toNat
/-- FMT.BF. -/
def fmtBF (f : BitVec 13) : Nat := (f.extractLsb' 4 4).toNat
/-- FMT.ACF. -/
def fmtACF (f : BitVec 13) : Nat := (f.extractLsb' 8 2).toNat
/-- FMT.RM as a rounding mode. -/
def fmtRM (f : BitVec 13) : Rnd := rndOf (f.extractLsb' 10 2).toNat
/-- FMT.SATF. -/
def fmtSat (f : BitVec 13) : Bool := f.getLsbD 12

/-- The combinations SETFMT accepts (R28). -/
def fmtOk (f : BitVec 13) : Bool :=
  let a := fmtAF f
  let b := fmtBF f
  let c := fmtACF f
  (a ≤ 1 && b ≤ 1 && c == 0) ||
  ((a == 2 || a == 3) && (b == 2 || b == 3) && c == 1) ||
  (4 ≤ a && a ≤ 6 && b == a && c == 0) ||
  (7 ≤ a && a ≤ 9 && b == a && c == 0) ||
  (a == 10 && b == 10 && c == 2)

/-- The rounding mode of an RM field: 0 takes FMT.RM (R44, R70). -/
def rmMode (r : Rm) (f : BitVec 13) : Rnd :=
  match r with
  | .fmt => fmtRM f
  | .rne => .rne
  | .rtz => .rtz
  | .rdn => .rdn
  | .rup => .rup

/-- A post to a flag (R22): the sum, held at 0xFFFF_FFFF, and whether it saturated. -/
def flagPost (f : BitVec 32) (c : Nat) : BitVec 32 × Bool :=
  if 0xFFFFFFFF < f.toNat + c then (0xFFFFFFFF, true) else (BitVec.ofNat 32 (f.toNat + c), false)

/-- A wait's subtraction from a flag (R22). -/
def flagTake (f : BitVec 32) (c : Nat) : BitVec 32 := BitVec.ofNat 32 (f.toNat - c)

/-- The count of a header wait or post: 1 to 7, and 0 for 8 (R63). -/
def syncCount (c : BitVec 3) : Nat := if c = 0 then 8 else c.toNat

end Sys2Proof.Machine
end

