-- ==== Sys2Proof/Machine/Operands.lean ====
section
/-! DEFINITION. The operand forms of the slots: register groups and element order (R127), lane masks (R129), operand latches (R134),
runs of scalar registers (R200), the two views of the SPAD (R159) and the accesses made through them (R160 to R162), and the writing of
results with their exposed latency (R83, R84). -/

namespace Sys2Proof.Machine

/-! ## Vector groups -/

/-- The bytes of a group of `g` registers from `r` on, as one number (R127). -/
def Strand.group (x : Strand) (r g : Nat) : Nat := packElems 4096 ((List.range g).map fun k => (x.v (r + k)).toNat)

/-- A latch as a group of `g` registers: registers beyond the group last recorded read zero (R134). -/
def latched (b : BitVec 16384) (rec g : Nat) : Nat := b.toNat % 2 ^ (4096 * min rec g)

/-- Operand va: the register group, or operand latch A for 0x7F (R73, R134). -/
def Strand.opA (x : Strand) (r : BitVec 7) (g : Nat) : Nat :=
  if r = 0x7F then latched x.latch.a x.latch.ga g else x.group r.toNat g

/-- Operand vb: the register group, or operand latch B for 0x7F. -/
def Strand.opB (x : Strand) (r : BitVec 7) (g : Nat) : Nat :=
  if r = 0x7F then latched x.latch.b x.latch.gb g else x.group r.toNat g

/-- The third source: the register group, or operand latch C when HC is lent. -/
def Strand.opC (x : Strand) (hc : Bool) (r : BitVec 7) (g : Nat) : Nat :=
  if hc then latched x.latch.c x.latch.gc g else x.group r.toNat g

/-- Reading operand A from the banks loads latch A and records the group size (R134). -/
def Strand.loadA (x : Strand) (r : BitVec 7) (g : Nat) : Strand :=
  if r = 0x7F then x else x.setLatch { x.latch with a := BitVec.ofNat 16384 (x.group r.toNat g), ga := g }

/-- Reading operand B from the banks loads latch B. -/
def Strand.loadB (x : Strand) (r : BitVec 7) (g : Nat) : Strand :=
  if r = 0x7F then x else x.setLatch { x.latch with b := BitVec.ofNat 16384 (x.group r.toNat g), gb := g }

/-- Reading the third source from the banks loads latch C. -/
def Strand.loadC (x : Strand) (hc : Bool) (r : BitVec 7) (g : Nat) : Strand :=
  if hc then x else x.setLatch { x.latch with c := BitVec.ofNat 16384 (x.group r.toNat g), gc := g }

/-- The mask predicate PM (R129). -/
def Strand.mask (x : Strand) (l : LentB) : PReg := x.p l.pm.toNat

/-- Element `i` is enabled (R129). -/
def enabled (m : PReg) (i : Nat) : Bool := m.getLsbD (i % 1024)

/-- The mask with every element enabled. -/
def allLanes : PReg := BitVec.allOnes 1024

/-- The bytes of register `k` of a group that hold enabled elements below `n`, of `w` bits each (R127, R129). -/
def regMask (m : PReg) (w n k : Nat) : BitVec 512 :=
  BitVec.ofNat 512 (packElems 1 ((List.range 512).map fun b =>
    let i := k * (4096 / w) + b / (w / 8)
    if i < n ∧ enabled m i = true then 1 else 0))

/-- Writes of a group result: the enabled elements below `n` of `val`, with latency `lat` (R83, R127, R129). -/
def Strand.pushGroup (x : Strand) (lat r g : Nat) (m : PReg) (w n val : Nat) : Strand :=
  (List.range g).foldl (fun y k => y.push lat (.v (r + k) (regMask m w n k) (BitVec.ofNat 4096 (val >>> (4096 * k))))) x

/-- Writes of every element of a group of `w`-bit elements. -/
def Strand.pushElems (x : Strand) (lat : Nat) (r : BitVec 7) (g w : Nat) (m : PReg) (l : List Nat) : Strand :=
  x.pushGroup lat r.toNat g m w (g * (4096 / w)) (packElems w l)

/-- Elements of an operand. -/
def els (w g val : Nat) : List Nat := unpackElems w (g * (4096 / w)) val

/-! ## Scalar runs -/

/-- Register `k` of the run from s(r) on (R200). -/
def Strand.runAt (x : Strand) (r : BitVec 6) (k : Nat) : W64 := x.s (r + BitVec.ofNat 6 k)

/-- Register `k` of a run as a number. -/
def Strand.runN (x : Strand) (r : BitVec 6) (k : Nat) : Nat := (x.runAt r k).toNat

/-- Sum of a register and an offset, modulo 2^64 (R93). -/
def addr64 (a : W64) (off : Nat) : Nat := (a + BitVec.ofNat 64 off).toNat

/-! ## The scratchpad -/

/-- The storage line of a view line (R159). -/
def viewLine (v : View) (l : Nat) : Nat :=
  match v with
  | .lin => l
  | .swz => l / 32 * 32 + (l ^^^ (l >>> 5)) % 32

/-- One part of a SPAD access: the view address, its length in bytes, and the place of its first byte in the group. A part never
crosses a line. -/
structure Part where
  addr : Nat
  len  : Nat
  off  : Nat
  deriving DecidableEq, Repr

/-- The storage byte of a part. -/
def Part.byte (v : View) (p : Part) : Nat := 64 * viewLine v (p.addr / 64) + p.addr % 64

/-- The storage line of a part. -/
def Part.line (v : View) (p : Part) : Nat := viewLine v (p.addr / 64)

/-- The enabled 32-bit words of VLD and VST from view address `a` on (R160). -/
def wordParts (m : PReg) (g a : Nat) : List Part :=
  ((List.range (128 * g)).filter (enabled m)).map fun j => ⟨a - a % 64 + 4 * j, 4, 4 * j⟩

/-- The enabled elements of VLDX and VSTX (R161): element i at base + index i, the bits below the element width ignored. -/
def indexParts (m : PReg) (w : Nat) (base : W64) (idx : Nat) : List Part :=
  ((List.range 128).filter (enabled m)).map fun i =>
    let u := addr64 base (elemAt 32 idx i)
    ⟨u - u % (w / 8), w / 8, w / 8 * i⟩

/-- The enabled words of VLDR and VSTR at byte offset `o` past slot `start` of a ring (R162). -/
def ringParts (m : PReg) (g : Nat) (r : Ring) (start o : Nat) : List Part :=
  let sz := 64 * r.slsz
  ((List.range (128 * g)).filter (enabled m)).map fun j => ⟨r.base + (start * sz + o + 4 * j) % (sz * r.nslot), 4, 4 * j⟩

/-- A part outside the strand's SPAD window (R12). -/
def outside (size : Nat) (p : Part) : Bool := size < p.addr + p.len

/-- The storage lines of an access, each once. -/
def linesOf (v : View) (ps : List Part) : List Nat := (ps.map (Part.line v)).eraseDups

/-- A line of the SPAD as stored. -/
def spadLine (m : Mem) (l : Nat) : BitVec 512 := BitVec.ofNat 512 (leNat (Mem.readN m (64 * l) 64))

/-- The bundles of a strand that stand between a logged store and the bundle in issue, that bundle included. A handler's bundles follow the
kernel's (R286), so a handler load counts the kernel's bundles and its own (log entry 83). -/
def storeAge (x : Strand) (e : SpadStore) : Nat :=
  let m := if e.hnd = x.iss.handler then x.iss.n
    else x.sbn + x.iss.n + (if (x.replay.map Replay.first).getD true then 0 else 1)
  m - e.n

/-- The states of a line that a load of view `v` may return (R276): the line as it stands, and as it stood before each store of the
other view among the last seven bundles that no later store of the same view follows. -/
def lineStates (x : Strand) (v : View) (l : Nat) : List (BitVec 512) :=
  let log := x.spadLog.filter fun e => e.line = l
  let since := (log.filter fun e => e.view = v).foldl (fun a e => max a (e.ord + 1)) 0
  let openAt := log.filter fun e => e.view ≠ v ∧ since ≤ e.ord ∧ storeAge x e ≤ 7
  spadLine x.spad l :: openAt.map SpadStore.old

/-- Line `l` as a load of view `v` reads it, taking the free choice `free + k` for the k-th line. -/
def lineSeen (x : Strand) (free : Nat) (v : View) (k l : Nat) : BitVec 512 :=
  let seen := lineStates x v l
  let i := Config.choice (free + k) % seen.length
  (seen[i]?).getD 0

/-- The lines of an access as it reads them. -/
def seenLines (x : Strand) (free : Nat) (v : View) (ls : List Nat) : Tbl (BitVec 512) :=
  (ls.zipIdx).foldl (fun t e => Tbl.insert t e.1 (lineSeen x free v e.2 e.1)) []

/-- The bytes of a group as an access reads them: the number whose byte `off + j` is byte j of the part. -/
def gathered (v : View) (seen : Tbl (BitVec 512)) (ps : List Part) : Nat :=
  ps.foldl (fun a p => a ||| ((Tbl.getD seen (p.line v) 0).toNat >>> (8 * (p.addr % 64)) % 2 ^ (8 * p.len)) <<< (8 * p.off)) 0

/-- Logs the lines of a store before it is made (R192, R276). -/
def Strand.logStore (x : Strand) (v : View) (ls : List Nat) : Strand :=
  { x with spadLog := x.spadLog ++ ls.map fun l => ⟨x.ord, x.iss.handler, x.iss.n, v, l, spadLine x.spad l⟩ }

/-- Stores the parts of an access from the bytes of a group, in order (R160, R161). -/
def storeParts (v : View) (val : Nat) (m : Mem) (ps : List Part) : Mem :=
  ps.foldl (fun a p => Mem.writeN a (p.byte v) (natLe p.len (val >>> (8 * p.off)))) m

/-- The pages of a MAPR map that an access touches are marked dirty by a store (R228). -/
def markDirty (maps : List MapEnt) (ls : List Nat) : List MapEnt :=
  maps.map fun e =>
    let ps := ((ls.filter fun l => e.off ≤ 64 * l ∧ 64 * l < e.off + e.size).map fun l => (64 * l - e.off) / 4096).eraseDups
    { e with dirty := e.dirty ++ ps.filter fun p => !e.dirty.contains p }

/-- Chunks that a store touches are no longer released: they hold data again (R250). -/
def markWritten (cs : List Chunk) (st : Store) (bytes : List Nat) (size : Nat) : List Chunk :=
  cs.map fun c => if c.store = st ∧ (bytes.any fun b => b / size = c.index) = true then { c with released := false } else c

/-- A SPAD store of the strand through a view (R160, R276): the lines are logged, the bytes stored, mapped pages dirtied. -/
def Strand.spadStore (x : Strand) (v : View) (val : Nat) (ps : List Part) : Strand :=
  let ls := linesOf v ps
  let y := x.logStore v ls
  { y with
    spad := storeParts v val y.spad ps
    maps := markDirty y.maps ls
    chunks := markWritten y.chunks .spad (ls.map (64 * ·)) 65536 }

/-- A SPAD load of the strand in issue: the group bytes, and the state with its free choices taken. -/
def State.spadLoad (s : State) (v : View) (ps : List Part) : Nat × State :=
  let ls := linesOf v ps
  let x := s.me
  let open' := ls.any fun l => decide (1 < (lineStates x v l).length)
  (gathered v (seenLines x s.free v ls) ps, if open' then { s with free := s.free + ls.length } else s)

/-! ## Gathers (R192) -/

/-- The states of a line that a segment of a gather of view `v`, issued at place `ord`, may hold (R192, R276): as it stood before each
store of its window, and as it stands. The window holds the later stores, and the stores of the other view among the seven bundles
before it that no store of the same view follows. -/
def segStates (x : Strand) (v : View) (ord l : Nat) : List (BitVec 512) :=
  let log := x.spadLog.filter fun e => e.line = l
  let since := (log.filter fun e => e.view = v ∧ e.ord ≤ ord).foldl (fun a e => max a (e.ord + 1)) 0
  let win := log.filter fun e => decide (ord < e.ord) || (e.view != v && decide (since ≤ e.ord) && decide (ord ≤ e.ord + 7))
  win.map SpadStore.old ++ [spadLine x.spad l]

/-- Closes the choice of every segment of a gathered row, from free choice `free` on. -/
def closeRow (x : Strand) (v : View) (ord : Nat) : Nat → List GatherSeg → Nat × List GatherSeg
  | free, [] => (free, [])
  | free, g :: r =>
    match g.line, g.seen with
    | some l, none =>
      let open' := segStates x v ord l
      let i := Config.choice free % open'.length
      let t := closeRow x v ord (if open'.length = 1 then free else free + 1) r
      (t.1, { g with seen := open'[i]? } :: t.2)
    | _, _ => let t := closeRow x v ord free r; (t.1, g :: t.2)

/-- Closes the choices of the rows of a gather. -/
def closeRows (x : Strand) (v : View) (ord : Nat) : Nat → List (List GatherSeg) → Nat × List (List GatherSeg)
  | free, [] => (free, [])
  | free, r :: rs =>
    let a := closeRow x v ord free r
    let b := closeRows x v ord a.1 rs
    (b.1, a.2 :: b.2)

/-- The strand with its log as a gather issued at place `ord` in bundle `n` takes it: a store of the same view that a reissued slot of bundle `n`
or of an earlier one made after the gather issued counts as issued at that bundle, so it is seen (R192, R285). -/
def Strand.logFor (x : Strand) (hnd : Bool) (v : View) (ord n : Nat) : Strand :=
  { x with spadLog := x.spadLog.filter fun (e : SpadStore) => !(e.hnd == hnd && e.view == v && decide (ord < e.ord) && decide (e.n ≤ n)) }

/-- Closes the choices of the gathers among some writes of a mode; a gather's rows are visible 8 bundles after its issue. -/
def closeWrites (x : Strand) (hnd : Bool) (due : Write → Bool) : Nat → List Write → Nat × List Write
  | free, [] => (free, [])
  | free, w :: ws =>
    match w.tgt with
    | .gather v ord n rows =>
      if due w then
        let a := closeRows (x.logFor hnd v ord (w.vis - 8)) v ord free rows
        let b := closeWrites x hnd due a.1 ws
        (b.1, { w with tgt := .gather v ord n a.2 } :: b.2)
      else let b := closeWrites x hnd due free ws; (b.1, w :: b.2)
    | _ => let b := closeWrites x hnd due free ws; (b.1, w :: b.2)

/-- Closes the choices of a strand's gathers of kernel and handler mode that are due: at bundle n + 8, at a VJOIN, or at ERET (R192, R287). -/
def State.closeGathers (s : State) (k : Nat) (dueK dueH : Write → Bool) : State :=
  let x := s.strand k
  let a := closeWrites x false dueK s.free x.pend
  let b := closeWrites x true dueH a.1 x.pendH
  { s with free := b.1 }.setStrand k { x with pend := a.2, pendH := b.2 }

end Sys2Proof.Machine
end

