-- ==== Sys2Proof/Machine/Scalar.lean ====
section
/-! DEFINITION. Slot A: integer arithmetic and logic, compares, selection, predicates and SDM access (R93 to R102). -/

namespace Sys2Proof.Machine

/-- What every meaning answers. -/
abbrev Out := Host.Outcome State Fault Refusal

/-- Slot `k` performs with the given effect on the strand in issue. -/
def State.slot (s : State) (k : Nat) (f : Strand → Strand) : Out := .next (s.setMe ((f s.me).performed k))

/-- Slot `k` of the strand in issue traps. -/
def State.trapSlot (s : State) (k : Nat) (c : Cause) (tval : W64) : Out := .next (s.setMe (s.me.slotTrap k c tval))

/-- Slot A writes a scalar with latency `lat` (R93). -/
def State.wrS (s : State) (lat : Nat) (d : BitVec 6) (v : W64) : Out := s.slot 0 fun x => x.pushS lat d v

/-- Slot A writes a whole predicate with a latency of 1 (R99, R101). -/
def State.wrP (s : State) (d : BitVec 4) (v : PReg) : Out := s.slot 0 fun x => x.pushP 1 d allLanes v

/-! ## Register forms (R95) -/

/-- ADD. -/
def execAdd (d a b : BitVec 6) (s : State) : Out := s.wrS 1 d (s.me.s a + s.me.s b)
/-- SUB. -/
def execSub (d a b : BitVec 6) (s : State) : Out := s.wrS 1 d (s.me.s a - s.me.s b)
/-- MUL. -/
def execMul (d a b : BitVec 6) (s : State) : Out := s.wrS 3 d (s.me.s a * s.me.s b)
/-- Bits [127:64] of a product. -/
def highWord (x : Int) : W64 := BitVec.ofInt 64 (x / (2 ^ 64 : Nat))
/-- MULHI. -/
def execMulhi (d a b : BitVec 6) (s : State) : Out := s.wrS 3 d (highWord ((s.me.s a).toInt * (s.me.s b).toInt))
/-- MULHN. -/
def execMulhn (d a b : BitVec 6) (s : State) : Out := s.wrS 3 d (highWord (((s.me.s a).toNat * (s.me.s b).toNat : Nat)))

/-- The division of R96 on signed operands: quotient and remainder. -/
def divSigned (a b : W64) : W64 × W64 :=
  if b = 0 then (BitVec.allOnes 64, a)
  else if a = BitVec.ofInt 64 (-(2 ^ 63 : Nat)) ∧ b = BitVec.allOnes 64 then (a, 0)
  else (BitVec.ofInt 64 (a.toInt.tdiv b.toInt), BitVec.ofInt 64 (a.toInt.tmod b.toInt))

/-- The division of R96 on unsigned operands. -/
def divUnsigned (a b : W64) : W64 × W64 :=
  if b = 0 then (BitVec.allOnes 64, a) else (BitVec.ofNat 64 (a.toNat / b.toNat), BitVec.ofNat 64 (a.toNat % b.toNat))

/-- The divider of the core becomes busy for the 20 unfrozen cycles after this one (R87, R94). -/
def State.useDivider (s : State) : State := s.setCore (coreOf s.cur) { s.core (coreOf s.cur) with divBusy := 21 }

/-- DIV. -/
def execDiv (d a b : BitVec 6) (s : State) : Out := s.useDivider.wrS 20 d (divSigned (s.me.s a) (s.me.s b)).1
/-- DIVN. -/
def execDivn (d a b : BitVec 6) (s : State) : Out := s.useDivider.wrS 20 d (divUnsigned (s.me.s a) (s.me.s b)).1
/-- REM. -/
def execRem (d a b : BitVec 6) (s : State) : Out := s.useDivider.wrS 20 d (divSigned (s.me.s a) (s.me.s b)).2
/-- REMN. -/
def execRemn (d a b : BitVec 6) (s : State) : Out := s.useDivider.wrS 20 d (divUnsigned (s.me.s a) (s.me.s b)).2
/-- AND. -/
def execAnd (d a b : BitVec 6) (s : State) : Out := s.wrS 1 d (s.me.s a &&& s.me.s b)
/-- OR. -/
def execOr (d a b : BitVec 6) (s : State) : Out := s.wrS 1 d (s.me.s a ||| s.me.s b)
/-- XOR. -/
def execXor (d a b : BitVec 6) (s : State) : Out := s.wrS 1 d (s.me.s a ^^^ s.me.s b)
/-- ANDN. -/
def execAndn (d a b : BitVec 6) (s : State) : Out := s.wrS 1 d (s.me.s a &&& ~~~(s.me.s b))
/-- A shift count: sb[5:0] (R95). -/
def shiftCount (v : W64) : Nat := v.toNat % 64
/-- SHL. -/
def execShl (d a b : BitVec 6) (s : State) : Out := s.wrS 1 d (s.me.s a <<< shiftCount (s.me.s b))
/-- SHR. -/
def execShr (d a b : BitVec 6) (s : State) : Out := s.wrS 1 d (s.me.s a >>> shiftCount (s.me.s b))
/-- SAR. -/
def execSar (d a b : BitVec 6) (s : State) : Out := s.wrS 1 d ((s.me.s a).sshiftRight (shiftCount (s.me.s b)))
/-- ROTL. -/
def execRotl (d a b : BitVec 6) (s : State) : Out := s.wrS 1 d ((s.me.s a).rotateLeft (shiftCount (s.me.s b)))
/-- MIN. -/
def execMin (d a b : BitVec 6) (s : State) : Out := s.wrS 1 d (if (s.me.s b).slt (s.me.s a) then s.me.s b else s.me.s a)
/-- MINN. -/
def execMinn (d a b : BitVec 6) (s : State) : Out := s.wrS 1 d (if (s.me.s b).ult (s.me.s a) then s.me.s b else s.me.s a)
/-- MAX. -/
def execMax (d a b : BitVec 6) (s : State) : Out := s.wrS 1 d (if (s.me.s a).slt (s.me.s b) then s.me.s b else s.me.s a)
/-- MAXN. -/
def execMaxn (d a b : BitVec 6) (s : State) : Out := s.wrS 1 d (if (s.me.s a).ult (s.me.s b) then s.me.s b else s.me.s a)

/-- Leading zero bits of a `w`-bit number. -/
def leadingZeros (w x : Nat) : Nat := if x = 0 then w else w - 1 - Nat.log2 x
/-- One bits of a `w`-bit number. -/
def oneBits (w x : Nat) : Nat := (List.range w).countP fun i => x.testBit i
/-- Trailing zero bits of a `w`-bit number. -/
def trailingZeros (w x : Nat) : Nat := ((List.range w).find? fun i => x.testBit i).getD w

/-- CLZ. -/
def execClz (d a : BitVec 6) (s : State) : Out := s.wrS 1 d (BitVec.ofNat 64 (leadingZeros 64 (s.me.s a).toNat))
/-- CTZ. -/
def execCtz (d a : BitVec 6) (s : State) : Out := s.wrS 1 d (BitVec.ofNat 64 (trailingZeros 64 (s.me.s a).toNat))
/-- POPC. -/
def execPopc (d a : BitVec 6) (s : State) : Out := s.wrS 1 d (BitVec.ofNat 64 (oneBits 64 (s.me.s a).toNat))

/-! ## Immediate forms (R97, R98) -/

/-- ADDI. -/
def execAddi (d a : BitVec 6) (imm : BitVec 13) (s : State) : Out := s.wrS 1 d (s.me.s a + imm.signExtend 64)
/-- ANDI. -/
def execAndi (d a : BitVec 6) (imm : BitVec 13) (s : State) : Out := s.wrS 1 d (s.me.s a &&& imm.signExtend 64)
/-- ORI. -/
def execOri (d a : BitVec 6) (imm : BitVec 13) (s : State) : Out := s.wrS 1 d (s.me.s a ||| imm.signExtend 64)
/-- XORI. -/
def execXori (d a : BitVec 6) (imm : BitVec 13) (s : State) : Out := s.wrS 1 d (s.me.s a ^^^ imm.signExtend 64)
/-- SHLI. -/
def execShli (d a n : BitVec 6) (s : State) : Out := s.wrS 1 d (s.me.s a <<< n.toNat)
/-- SHRI. -/
def execShri (d a n : BitVec 6) (s : State) : Out := s.wrS 1 d (s.me.s a >>> n.toNat)
/-- SARI. -/
def execSari (d a n : BitVec 6) (s : State) : Out := s.wrS 1 d ((s.me.s a).sshiftRight n.toNat)
/-- SEXT: the field holds the width less one. -/
def execSext (d a w1 : BitVec 6) (s : State) : Out :=
  s.wrS 1 d (((s.me.s a).extractLsb' 0 (w1.toNat + 1)).signExtend 64)
/-- ZEXT. -/
def execZext (d a w1 : BitVec 6) (s : State) : Out :=
  s.wrS 1 d (((s.me.s a).extractLsb' 0 (w1.toNat + 1)).setWidth 64)
/-- MOVI. -/
def execMovi (d : BitVec 6) (imm : BitVec 19) (s : State) : Out := s.wrS 1 d (imm.signExtend 64)
/-- MOVHI. -/
def execMovhi (d : BitVec 6) (hw : BitVec 2) (imm : BitVec 16) (s : State) : Out :=
  let k := 16 * hw.toNat
  s.wrS 1 d ((s.me.s d &&& ~~~(0xFFFF#64 <<< k)) ||| (imm.setWidth 64 <<< k))

/-! ## Compares, selection, predicates (R99 to R101) -/

/-- CMP. -/
def execCmp (c : Cc) (d : BitVec 4) (a b : BitVec 6) (s : State) : Out := s.wrP d (fill (cmpHolds c (s.me.s a) (s.me.s b)))
/-- SEL. -/
def execSel (d : BitVec 6) (p : BitVec 4) (a b : BitVec 6) (s : State) : Out :=
  s.wrS 1 d (if (s.me.p p.toNat).getLsbD 0 then s.me.s a else s.me.s b)
/-- PAND. -/
def execPand (d a b : BitVec 4) (s : State) : Out := s.wrP d (s.me.p a.toNat &&& s.me.p b.toNat)
/-- POR. -/
def execPor (d a b : BitVec 4) (s : State) : Out := s.wrP d (s.me.p a.toNat ||| s.me.p b.toNat)
/-- PXOR. -/
def execPxor (d a b : BitVec 4) (s : State) : Out := s.wrP d (s.me.p a.toNat ^^^ s.me.p b.toNat)
/-- PNOT. -/
def execPnot (d a : BitVec 4) (s : State) : Out := s.wrP d (~~~(s.me.p a.toNat))
/-- PMOV. -/
def execPmov (d a : BitVec 4) (s : State) : Out := s.wrP d (s.me.p a.toNat)

/-! ## SDM (R102) -/

/-- The SDM address, modulo 2^64. -/
def sdmAddr (x : Strand) (a : BitVec 6) (off : BitVec 11) : Nat := (x.s a + off.signExtend 64).toNat

/-- Some byte of an SDM access lies outside the window; a sum that wraps is outside (R102). -/
def sdmOut (x : Strand) (z : Sz) (a : BitVec 6) (off : BitVec 11) : Bool :=
  let q := ((x.s a).toNat : Int) + off.toInt
  decide (q < 0) || decide ((x.sdmSize : Int) < q + z.bytes)

/-- LDS: zero-extended, latency 2; BOUNDS where a byte lies outside the window. -/
def execLds (z : Sz) (d a : BitVec 6) (off : BitVec 11) (s : State) : Out :=
  let q := sdmAddr s.me a off
  if sdmOut s.me z a off then s.trapSlot 0 .bounds (BitVec.ofNat 64 q)
  else s.wrS 2 d (BitVec.ofNat 64 (leNat (Mem.readN s.me.sdm q z.bytes)))

/-- STS: the low bytes of sd. -/
def execSts (z : Sz) (d a : BitVec 6) (off : BitVec 11) (s : State) : Out :=
  let q := sdmAddr s.me a off
  if sdmOut s.me z a off then s.trapSlot 0 .bounds (BitVec.ofNat 64 q)
  else s.slot 0 fun x =>
    { x with
      sdm := Mem.writeN x.sdm q (natLe z.bytes (x.s d).toNat)
      chunks := markChunk x.chunks q z.bytes }
where
  /-- Chunks of the SDM that the store touches hold data again (R250). -/
  markChunk (cs : List Chunk) (q n : Nat) : List Chunk :=
    cs.map fun c => if c.store = .sdm ∧ (q / 4096 = c.index ∨ (q + n - 1) / 4096 = c.index) then { c with released := false } else c

end Sys2Proof.Machine
end

