-- ==== Sys2Proof/Machine/Control.lean ====
section
/-! DEFINITION. Slot A: control transfers, loops, the format register, time and identity, system registers, traps, rings and flag reads
(R103 to R111, R113 to R119, R121 to R126), and the header's actions (R64, R65, R302). What slot A changes besides registers it
changes after the other slots of its bundle have performed (R118). -/

namespace Sys2Proof.Machine

/-! ## Transfers (R103 to R105) -/

/-- A relative target b + sext(off19). -/
def relTarget (b : Nat) (off : BitVec 19) : Int := (b : Int) + off.toInt

/-- A target inside an image (R103). -/
def inImage (nbun : Nat) (t : Int) : Bool := decide (0 ≤ t) && decide (t < (nbun : Int))

/-- BR. -/
def execBr (off : BitVec 19) (s : State) : Out := s.slot 0 fun x => x.setNext (relTarget x.iss.idx off).toNat

/-- BRP: where the test fails the next bundle is the one that follows. -/
def execBrp (test : BrTest) (pn : BitVec 4) (off : BitVec 19) (s : State) : Out :=
  s.slot 0 fun x => if brHolds test (x.p pn.toNat) then x.setNext (relTarget x.iss.idx off).toNat else x

/-- CALL. -/
def execCall (d : BitVec 6) (off : BitVec 19) (s : State) : Out :=
  s.slot 0 fun x => (x.pushS 1 d (BitVec.ofNat 64 (x.iss.idx + 1))).setNext (relTarget x.iss.idx off).toNat

/-- A jump to the bundle index in a register; BOUNDS beyond the image, before any slot performs (R104). -/
def State.jump (s : State) (a : BitVec 6) : Out :=
  let t := s.me.s a
  if s.me.image.nbun ≤ t.toNat then .next (s.setMe (s.me.voidTrap 0 .bounds t))
  else s.slot 0 fun x => x.setNext t.toNat

/-- RET. -/
def execRet (a : BitVec 6) (s : State) : Out := s.jump a

/-- JR. -/
def execJr (a : BitVec 6) (s : State) : Out := s.jump a

/-! ## Loops (R106 to R111) -/

/-- The count of a loop instruction (R106). -/
def loopCount (x : Strand) (cnt6 a : BitVec 6) : Nat := if a = 0 then cnt6.toNat else (x.s a).toNat

/-- Pushing a loop entry (R106); a rotating one sets the stage predicates. -/
def Strand.pushLoop (x : Strand) (rot : Bool) (n len : Nat) : Strand :=
  { x with
    loops := ⟨x.iss.idx + 1, x.iss.idx + len, rot, n⟩ :: x.loops
    q := if rot then (if 8 ≤ n then 1 else 0) else x.q }

/-- LOOP and LOOPS (R106). -/
def State.loop (s : State) (rot : Bool) (cnt6 a : BitVec 6) (len : BitVec 13) : Out :=
  let n := loopCount s.me cnt6 a
  if n = 0 then s.slot 0 fun x => x.setNext (x.iss.idx + len.toNat + 1)
  else if 0xFFFFFFFF < n then s.trapSlot 0 .loop 2
  else if s.me.loops.length = 6 then s.trapSlot 0 .loop 0
  else s.slot 0 fun x => x.pushLoop rot n len.toNat

/-- LOOP. -/
def execLoop (cnt6 a : BitVec 6) (len : BitVec 13) (s : State) : Out := s.loop false cnt6 a len

/-- LOOPS. -/
def execLoops (cnt6 a : BitVec 6) (len : BitVec 13) (s : State) : Out := s.loop true cnt6 a len

/-- LBRK (R110). -/
def execLbrk (a : BitVec 6) (u : Bool) (s : State) : Out :=
  match s.me.loops with
  | [] => s.trapSlot 0 .loop 1
  | e :: r =>
    if u = true ∨ s.me.s a ≠ 0 then s.slot 0 fun x => { x with loops := r }.setNext (e.last + 1)
    else s.slot 0 id

/-! ## The format register (R113) -/

/-- SETFMT: seen by bundle n + 4 (R29). -/
def execSetfmt (v : BitVec 13) (s : State) : Out :=
  if fmtOk v then s.slot 0 fun x => x.push 4 (.fmt v) else s.trapSlot 0 .format (v.setWidth 64)

/-- GETFMT. -/
def execGetfmt (d : BitVec 6) (s : State) : Out := s.wrS 1 d (s.me.fmt.setWidth 64)

/-! ## Time, identity and system registers (R114 to R117) -/

/-- RDCYC. -/
def execRdcyc (d : BitVec 6) (s : State) : Out := s.wrS 1 d (BitVec.ofNat 64 (s.cyc (coreOf s.cur)))

/-- WAITC: the bundle was held until its target; the slot itself does nothing more. -/
def execWaitc (_a : BitVec 6) (s : State) : Out := s.slot 0 id

/-- The first bit of field `i` of a work identifier. -/
def widLow (ws : List Nat) (i : Nat) : Nat := (ws.take i).foldl (· + ·) 0

/-- RDWID (R116). -/
def execRdwid (d : BitVec 6) (i : BitVec 3) (s : State) : Out :=
  let x := s.me
  s.wrS 1 d (if i = 7 then x.wid else BitVec.ofNat 64 (x.wid.toNat >>> widLow x.widths i.toNat % 2 ^ (x.widths[i.toNat]?).getD 0))

/-- RDSR. -/
def execRdsr (d : BitVec 6) (n : BitVec 12) (s : State) : Out := s.wrS 1 d (s.sysReg s.cur n.toNat)

/-- The ring that a word written to HCFG describes (R19). -/
def ringOf (old : Ring) (v : W64) : Ring :=
  let x := v.toNat
  { old with base := bits x 20 0, slsz := bits x 43 32, nslot := bits x 59 48, en := x.testBit 63 }

/-- A handle just enabled (R21). -/
def Ring.fresh (r : Ring) : Ring := { r with head := 0, tail := 0, fill := 0, free := r.nslot, infl := 0 }

/-- HCFG takes a write (R21). -/
def ringOk (spad : Nat) (old new : Ring) : Bool :=
  old.bind == 0 && old.infl == 0 && new.base % 64 == 0 &&
    (!new.en || (decide (1 ≤ new.slsz) && decide (1 ≤ new.nslot) && decide (new.base + 64 * new.slsz * new.nslot ≤ spad)))

/-- A ring handle as it stands at the issue of the bundle (R83, R118): another slot of the bundle may bind or unbind it. -/
def Strand.ringAt (x : Strand) (h : Nat) : Ring := Tbl.getD x.iss.rings h Ring.off

/-- TCAUSE has 18 bits; the others read zero and ignore writes (R10, R281). -/
def tcauseMask : W64 := 0x3FFFF

/-- WRSR (R117): HCFG by R21 on the handle as it stands at issue; EPC, TCAUSE and TVAL take the whole word. -/
def execWrsr (num : BitVec 12) (a : BitVec 6) (s : State) : Out :=
  let v := s.me.s a
  let n := num.toNat
  if 0x040 ≤ n ∧ n ≤ 0x04F then
    if ringOk s.me.spadSize (s.me.ringAt (n - 0x040)) (ringOf (s.me.ringAt (n - 0x040)) v) then
      s.slot 0 fun x =>
        let new := ringOf (x.ring (n - 0x040)) v
        x.setRing (n - 0x040) (if new.en then new.fresh else new)
    else s.trapSlot 0 .ring v
  else if n = 0x008 then s.slot 0 fun x => { x with epc := v }
  else if n = 0x009 then s.slot 0 fun x => { x with tcause := v &&& tcauseMask }
  else if n = 0x00A then s.slot 0 fun x => { x with tval := v }
  else s.slot 0 id

/-! ## Traps and the end of a strand (R122 to R125) -/

/-- TRAP: the slot counts as performed. -/
def execTrap (code : BitVec 13) (s : State) : Out :=
  .next (s.setMe ((s.me.performed 0).slotTrap 0 .trap (code.setWidth 64)))

/-- DONE; a trap of another slot voids it (R124). -/
def execDone (s : State) : Out :=
  if s.me.iss.trapped.isSome then .next s else s.slot 0 fun x => { x with iss := { x.iss with done := true } }

/-- YIELD: the mark of a drain point and of the question to Lamplighter; in handler mode nothing (R125, R36). -/
def execYield (s : State) : Out :=
  s.slot 0 fun x => if x.iss.handler then x else { x with iss := { x.iss with dp := true, yield := true } }

/-! ## Rings and flags (R118, R119, R121) -/

/-- Moves a consumer pointer (R20). -/
def Ring.consume (r : Ring) (n : Nat) : Ring :=
  { r with head := (r.head + n) % r.nslot, fill := r.fill - n, free := r.free + n }

/-- Moves a producer pointer (R20). -/
def Ring.produce (r : Ring) (n : Nat) : Ring :=
  { r with tail := (r.tail + n) % r.nslot, free := r.free - n, fill := r.fill + n }

/-- RADVC by a count: the tests take the handle as it stands at issue. A count of 0 on an enabled ring has no effect, so it is no advance (R118);
a ring bound to a drain has its consumer pointer moved by the transfer unit alone (R215). -/
def State.radvc (s : State) (h : BitVec 4) (n : W64) : Out :=
  let r := s.me.ringAt h.toNat
  if r.en = true ∧ n = 0 then s.slot 0 id
  else if r.en = false ∨ r.fill < n.toNat ∨ r.bind = 2 then s.trapSlot 0 .ring n
  else s.slot 0 fun x => { x.setRing h.toNat ((x.ring h.toNat).consume n.toNat) with adv := some (h.toNat, n.toNat) }

/-- RADVP by a count; a ring bound to a fill has its producer pointer moved by the transfer unit alone (R215). -/
def State.radvp (s : State) (h : BitVec 4) (n : W64) : Out :=
  let r := s.me.ringAt h.toNat
  if r.en = true ∧ n = 0 then s.slot 0 id
  else if r.en = false ∨ r.free < n.toNat ∨ r.bind = 1 then s.trapSlot 0 .ring n
  else s.slot 0 fun x => { x.setRing h.toNat ((x.ring h.toNat).produce n.toNat) with adv := some (h.toNat, n.toNat) }

/-- RADVC, immediate. -/
def execRadvcImm (h : BitVec 4) (n : BitVec 12) (s : State) : Out := s.radvc h (n.setWidth 64)
/-- RADVC, register. -/
def execRadvcReg (h : BitVec 4) (a : BitVec 6) (s : State) : Out := s.radvc h (s.me.s a)
/-- RADVP, immediate. -/
def execRadvpImm (h : BitVec 4) (n : BitVec 12) (s : State) : Out := s.radvp h (n.setWidth 64)
/-- RADVP, register. -/
def execRadvpReg (h : BitVec 4) (a : BitVec 6) (s : State) : Out := s.radvp h (s.me.s a)

/-- RSTAT: 0 where EN = 0. -/
def execRstat (d : BitVec 6) (h : BitVec 4) (s : State) : Out :=
  let r := s.me.ring h.toNat
  s.wrS 1 d (if r.en then r.stat else 0)

/-- FLRD: the flag after the last ended flag-file cycle. -/
def execFlrd (d : BitVec 6) (f : BitVec 5) (s : State) : Out :=
  s.wrS 1 d ((Tbl.getD s.myGrp.prev f.toNat 0).setWidth 64)

/-! ## The header (R64, R65, R302) and the empty bundle -/

/-- sync.wait: the count is taken in the issue cycle; until the flag reaches it the bundle is held (R64). -/
def execSyncWait (f : BitVec 5) (c : BitVec 3) (s : State) : Out :=
  let g := s.myGrp
  let v := Tbl.getD g.flags f.toNat 0
  if syncCount c ≤ v.toNat then
    .next (s.setGrp s.me.gtag { g with flags := Tbl.put 0 g.flags f.toNat (flagTake v (syncCount c)) })
  else .next s

/-- dp: the bundle is marked a drain point; in handler mode the mark has no effect (R36). -/
def execDrainPoint (s : State) : Out :=
  .next (s.onMe fun x => if x.iss.handler then x else { x with iss := { x.iss with dp := true } })

/-- mh.yield: the bundle yields on a collision. -/
def execMergeYield (s : State) : Out := .next (s.onMe fun x => { x with iss := { x.iss with mh := true } })

/-- An all-zero bundle performs nothing (R61). -/
def execNop (s : State) : Out := .next s

/-! ## Events of the core -/

/-- The divider's last busy cycle ends (R87). -/
def execDividerBusyExpiry (c : Nat) (s : State) : Out :=
  if (s.core c).divBusy = 1 then .next (s.setCore c { s.core c with divBusy := 0 }) else .next s

/-- The strand bundle, or handler count, at which the strand's next bundle issues (R5, R285, R286). -/
def Strand.nextN (x : Strand) : Nat := (x.reissue.map Replay.n).getD (if x.handler then x.hcnt else x.sbn)

/-- The landings due at the strand's next bundle whose data have not arrived. -/
def Strand.late (x : Strand) : List Write :=
  (if x.handler then x.pendH else x.pend).filter fun w => w.land.isSome && !w.ready && decide (w.vis ≤ x.nextN)

/-- The target of the WAITC, if any, in slot A of the bundle that a strand presents, as that bundle reads its register. -/
def Strand.waitTarget (x : Strand) : Option W64 :=
  match slotInstr (x.bundleAt x.pc) 0 with
  | some (.waitc a) => some ((x.settle x.handler x.nextN).s a)
  | _ => none

/-- CYC reaches the target of a held WAITC, which releases the bundle (R115); a target that a landing is still to write is not known. -/
def State.waitReached (s : State) (k : Nat) : State :=
  match (s.strand k).waitTarget with
  | some t => if (s.strand k).late.isEmpty = true ∧ t.toNat ≤ s.cyc (coreOf k) then s.setStrand k { s.strand k with released := true } else s
  | none => s

/-- WAITC_TARGET_REACHED. -/
def execWaitcTargetReached (k : Nat) (s : State) : Out := .next (s.waitReached k)

end Sys2Proof.Machine
end

