-- ==== Sys2Proof/Machine/Crypto.lean ====
section
/-! DEFINITION. The published algorithms that the manual names: SHA-384 (FIPS 180-4, R251), SHAKE256 (FIPS 202, R389), AES-256
(FIPS 197), AES-256-GCM (NIST SP 800-38D, R246, R405) and AES key wrap (NIST SP 800-38F, R389). -/

namespace Sys2Proof.Machine

/-! ## SHA-384 -/

/-- The round constants of SHA-512 and SHA-384. -/
def shaK : List W64 :=
  [0x428a2f98d728ae22#64, 0x7137449123ef65cd#64, 0xb5c0fbcfec4d3b2f#64, 0xe9b5dba58189dbbc#64,
   0x3956c25bf348b538#64, 0x59f111f1b605d019#64, 0x923f82a4af194f9b#64, 0xab1c5ed5da6d8118#64] ++
  [0xd807aa98a3030242#64, 0x12835b0145706fbe#64, 0x243185be4ee4b28c#64, 0x550c7dc3d5ffb4e2#64,
   0x72be5d74f27b896f#64, 0x80deb1fe3b1696b1#64, 0x9bdc06a725c71235#64, 0xc19bf174cf692694#64] ++
  [0xe49b69c19ef14ad2#64, 0xefbe4786384f25e3#64, 0x0fc19dc68b8cd5b5#64, 0x240ca1cc77ac9c65#64,
   0x2de92c6f592b0275#64, 0x4a7484aa6ea6e483#64, 0x5cb0a9dcbd41fbd4#64, 0x76f988da831153b5#64] ++
  [0x983e5152ee66dfab#64, 0xa831c66d2db43210#64, 0xb00327c898fb213f#64, 0xbf597fc7beef0ee4#64,
   0xc6e00bf33da88fc2#64, 0xd5a79147930aa725#64, 0x06ca6351e003826f#64, 0x142929670a0e6e70#64] ++
  [0x27b70a8546d22ffc#64, 0x2e1b21385c26c926#64, 0x4d2c6dfc5ac42aed#64, 0x53380d139d95b3df#64,
   0x650a73548baf63de#64, 0x766a0abb3c77b2a8#64, 0x81c2c92e47edaee6#64, 0x92722c851482353b#64] ++
  [0xa2bfe8a14cf10364#64, 0xa81a664bbc423001#64, 0xc24b8b70d0f89791#64, 0xc76c51a30654be30#64,
   0xd192e819d6ef5218#64, 0xd69906245565a910#64, 0xf40e35855771202a#64, 0x106aa07032bbd1b8#64] ++
  [0x19a4c116b8d2d0c8#64, 0x1e376c085141ab53#64, 0x2748774cdf8eeb99#64, 0x34b0bcb5e19b48a8#64,
   0x391c0cb3c5c95a63#64, 0x4ed8aa4ae3418acb#64, 0x5b9cca4f7763e373#64, 0x682e6ff3d6b2b8a3#64] ++
  [0x748f82ee5defb2fc#64, 0x78a5636f43172f60#64, 0x84c87814a1f0ab72#64, 0x8cc702081a6439ec#64,
   0x90befffa23631e28#64, 0xa4506cebde82bde9#64, 0xbef9a3f7b2c67915#64, 0xc67178f2e372532b#64] ++
  [0xca273eceea26619c#64, 0xd186b8c721c0c207#64, 0xeada7dd6cde0eb1e#64, 0xf57d4f7fee6ed178#64,
   0x06f067aa72176fba#64, 0x0a637dc5a2c898a6#64, 0x113f9804bef90dae#64, 0x1b710b35131c471b#64] ++
  [0x28db77f523047d84#64, 0x32caab7b40c72493#64, 0x3c9ebe0a15c9bebc#64, 0x431d67c49c100d4c#64,
   0x4cc5d4becb3e42b6#64, 0x597f299cfc657e2a#64, 0x5fcb6fab3ad6faec#64, 0x6c44198c4a475817#64]

/-- The initial hash value of SHA-384. -/
def sha384Init : List W64 :=
  [0xcbbb9d5dc1059ed8#64, 0x629a292a367cd507#64, 0x9159015a3070dd17#64, 0x152fecd8f70e5939#64,
   0x67332667ffc00b31#64, 0x8eb44a8768581511#64, 0xdb0c2e0d64f98fa7#64, 0x47b5481dbefa4fa4#64]

/-- A word rotated right by n (R251). -/
def ror (x : W64) (n : Nat) : W64 := x.rotateRight n

/-- One round on the working variables a to h. -/
def shaRound (v : List W64) (k w : W64) : List W64 :=
  match v with
  | [a, b, c, d, e, f, g, h] =>
    let t1 := h + (ror e 14 ^^^ ror e 18 ^^^ ror e 41) + ((e &&& f) ^^^ (~~~e &&& g)) + k + w
    let t2 := (ror a 28 ^^^ ror a 34 ^^^ ror a 39) + ((a &&& b) ^^^ (a &&& c) ^^^ (b &&& c))
    [t1 + t2, a, b, c, d + t1, e, f, g]
  | l => l

/-- The next word of the message schedule from the last sixteen, oldest first. -/
def shaNext (w : List W64) : W64 :=
  match w with
  | [w0, w1, _, _, _, _, _, _, _, w9, _, _, _, _, w14, _] =>
    w0 + (ror w1 1 ^^^ ror w1 8 ^^^ (w1 >>> 7)) + w9 + (ror w14 19 ^^^ ror w14 61 ^^^ (w14 >>> 6))
  | _ => 0

/-- The rounds over the remaining constants; `w` holds the next sixteen schedule words. -/
def shaRounds : List W64 → List W64 → List W64 → List W64
  | [], v, _ => v
  | k :: ks, v, w => shaRounds ks (shaRound v k (w.headD 0)) (w.tail ++ [shaNext w])

/-- The number that bytes hold, most significant first. -/
def beNat (l : List Byte) : Nat := l.foldl (fun a b => 256 * a + b.toNat) 0

/-- The `n` bytes of a number, most significant first. -/
def natBe (n v : Nat) : List Byte := (natLe n v).reverse

/-- The sixteen words of a block. -/
def shaWords (b : List Byte) : List W64 := (List.range 16).map fun i => BitVec.ofNat 64 (beNat ((b.drop (8 * i)).take 8))

/-- The compression of whole blocks of 128 bytes. -/
def shaBlocks : Nat → List Byte → List W64 → List W64
  | 0, _, h => h
  | n + 1, b, h => shaBlocks n (b.drop 128) (List.zipWith (· + ·) h (shaRounds shaK h (shaWords (b.take 128))))

/-- A message padded to whole blocks. -/
def shaPad (m : List Byte) : List Byte :=
  m ++ [0x80] ++ List.replicate ((128 - (m.length + 17) % 128) % 128) 0 ++ natBe 16 (8 * m.length)

/-- SHA-384 of a message: 48 bytes. -/
def sha384 (m : List Byte) : List Byte :=
  let p := shaPad m
  ((shaBlocks (p.length / 128) p sha384Init).take 6).flatMap fun w => natBe 8 w.toNat

/-! ## AES-256 -/

/-- Multiplication by x in GF(2^8). -/
def xtime (a : Byte) : Byte := (a <<< 1) ^^^ (if a.getLsbD 7 then 0x1B else 0)

/-- Multiplication in GF(2^8). -/
def gfMul (a b : Byte) : Byte :=
  ((List.range 8).foldl (fun (s : Byte × Byte) i => (if b.getLsbD i then s.1 ^^^ s.2 else s.1, xtime s.2)) (0, a)).1

/-- The inverse in GF(2^8): the 254th power. -/
def gfInv (a : Byte) : Byte :=
  let p2 := gfMul a a
  let p3 := gfMul p2 a
  let p12 := gfMul (gfMul p3 p3) (gfMul p3 p3)
  let p15 := gfMul p12 p3
  let p240 := (List.range 4).foldl (fun x _ => gfMul x x) p15
  gfMul (gfMul p240 p12) p2

/-- The S-box. -/
def sbox (a : Byte) : Byte :=
  let x := gfInv a
  x ^^^ x.rotateLeft 1 ^^^ x.rotateLeft 2 ^^^ x.rotateLeft 3 ^^^ x.rotateLeft 4 ^^^ 0x63

/-- The S-box as a table, by its input. -/
def sboxTable : List Byte := (List.range 256).map fun i => sbox (BitVec.ofNat 8 i)

/-- One expanded word of the key schedule from the word eight and one places before it. -/
def keyWord (i : Nat) (rcon : Byte) (old prev : List Byte) : List Byte :=
  let t :=
    if i % 8 = 0 then ((prev.drop 1 ++ prev.take 1).map sbox).zipWith (· ^^^ ·) [rcon, 0, 0, 0]
    else if i % 8 = 4 then prev.map sbox
    else prev
  List.zipWith (· ^^^ ·) old t

/-- The key schedule: words expanded one after another, the last eight kept oldest first. -/
def keyExpand : Nat → Nat → Byte → List (List Byte) → List (List Byte)
  | 0, _, _, _ => []
  | n + 1, i, rcon, last =>
    let w := keyWord i rcon (last.headD []) ((last.drop 7).headD [])
    w :: keyExpand n (i + 1) (if i % 8 = 0 then xtime rcon else rcon) (last.tail ++ [w])

/-- Consecutive groups of `n`, `k` of them. -/
def groupsOf {α : Type} (n : Nat) : Nat → List α → List (List α)
  | 0, _ => []
  | k + 1, l => l.take n :: groupsOf n k (l.drop n)

/-- The fifteen round keys of AES-256, 16 bytes each. -/
def roundKeys (key : BitVec 256) : List (List Byte) :=
  let ws := groupsOf 4 8 (natBe 32 key.toNat)
  groupsOf 16 15 (ws ++ keyExpand 52 8 1 ws).flatten

/-- ShiftRows on the 16 bytes of a state, column by column. -/
def shiftRows (b : List Byte) : List Byte :=
  (List.range 16).map fun i => (b[(i + 4 * (i % 4)) % 16]?).getD 0

/-- MixColumns on one column. -/
def mixColumn (c : List Byte) : List Byte :=
  match c with
  | [a, b, c, d] =>
    let m := fun (p q r s : Byte) => xtime p ^^^ (xtime q ^^^ q) ^^^ r ^^^ s
    [m a b c d, m b c d a, m c d a b, m d a b c]
  | l => l

/-- Exclusive or of bytes. -/
def xorBytes (a b : List Byte) : List Byte := List.zipWith (· ^^^ ·) a b

/-- The rounds after the first key addition. -/
def aesRounds (tab : List Byte) : List (List Byte) → List Byte → List Byte
  | [], b => b
  | [k], b => xorBytes (shiftRows (b.map fun x => (tab[x.toNat]?).getD 0)) k
  | k :: ks, b =>
    aesRounds tab ks (xorBytes ((groupsOf 4 4 (shiftRows (b.map fun x => (tab[x.toNat]?).getD 0))).map mixColumn).flatten k)

/-- AES-256 of one block under expanded keys. -/
def aesBlock (tab : List Byte) (ks : List (List Byte)) (b : List Byte) : List Byte := aesRounds tab ks.tail (xorBytes b (ks.headD []))

/-! ## GCM -/

/-- One step of the multiplication in GF(2^128), bit 0 the most significant. -/
def ghashStep (z : Nat × Nat) (bit : Bool) : Nat × Nat :=
  (if bit then z.1 ^^^ z.2 else z.1, if z.2 % 2 = 1 then (z.2 / 2) ^^^ (0xE1 <<< 120) else z.2 / 2)

/-- Multiplication in GF(2^128). -/
def ghashMul (x y : Nat) : Nat := ((List.range 128).foldl (fun z i => ghashStep z (x.testBit (127 - i))) (0, y)).1

/-- Bytes in blocks of 16, the last filled with zeros. -/
def blocks16 (b : List Byte) : List (List Byte) :=
  groupsOf 16 ((b.length + 15) / 16) (b ++ List.replicate ((16 - b.length % 16) % 16) 0)

/-- GHASH of whole blocks. -/
def ghash (h : Nat) (bs : List (List Byte)) : Nat := bs.foldl (fun y b => ghashMul (y ^^^ beNat b) h) 0

/-- The key stream from counter block `j` on, and the exclusive or with the data. -/
def gctr (tab : List Byte) (ks : List (List Byte)) (iv : List Byte) : Nat → List (List Byte) → List Byte
  | _, [] => []
  | j, b :: r => xorBytes b (aesBlock tab ks (iv ++ natBe 4 j)) ++ gctr tab ks iv (j + 1) r

/-- AES-256-GCM with a 96-bit IV: the output text and the tag over the additional data and the ciphertext, which is the output when
`enc`, else the input. -/
def gcm (enc : Bool) (key : BitVec 256) (iv aad text : List Byte) : List Byte × List Byte :=
  let tab := sboxTable
  let ks := roundKeys key
  let out := (gctr tab ks iv 2 (groupsOf 16 ((text.length + 15) / 16) text)).take text.length
  let c := if enc then out else text
  let h := beNat (aesBlock tab ks (List.replicate 16 0))
  let s := ghash h (blocks16 aad ++ blocks16 c ++ [natBe 8 (8 * aad.length) ++ natBe 8 (8 * text.length)])
  (out, xorBytes (natBe 16 s) (aesBlock tab ks (iv ++ natBe 4 1)))

/-! ## AES key wrap -/

/-- The inverse S-box as a table, by its input. -/
def invSboxTable (tab : List Byte) : List Byte := (List.range 256).map fun i => BitVec.ofNat 8 (tab.findIdx fun x => x.toNat == i)

/-- The inverse of ShiftRows. -/
def invShiftRows (b : List Byte) : List Byte := (List.range 16).map fun i => (b[(i + 12 * (i % 4)) % 16]?).getD 0

/-- The inverse of MixColumns on one column. -/
def invMixColumn (c : List Byte) : List Byte :=
  match c with
  | [a, b, c, d] =>
    let m := fun (p q r s : Byte) => gfMul p 14 ^^^ gfMul q 11 ^^^ gfMul r 13 ^^^ gfMul s 9
    [m a b c d, m b c d a, m c d a b, m d a b c]
  | l => l

/-- The inverse rounds, by the round keys from the last but one down. -/
def aesInvRounds (inv : List Byte) : List (List Byte) → List Byte → List Byte
  | [], b => b
  | [k], b => xorBytes ((invShiftRows b).map fun x => (inv[x.toNat]?).getD 0) k
  | k :: ks, b =>
    aesInvRounds inv ks ((groupsOf 4 4 (xorBytes ((invShiftRows b).map fun x => (inv[x.toNat]?).getD 0) k)).map invMixColumn).flatten

/-- The inverse cipher on one block. -/
def aesInvBlock (inv : List Byte) (ks : List (List Byte)) (b : List Byte) : List Byte :=
  aesInvRounds inv ks.reverse.tail (xorBytes b (ks.reverse.headD []))

/-- The integrity check value of key wrap. -/
def wrapIcv : List Byte := List.replicate 8 0xA6

/-- One wrapping step, number `t`: the check value and the semiblocks, the one in turn first. -/
def wrapStep (tab : List Byte) (ks : List (List Byte)) (s : List Byte × List (List Byte)) (t : Nat) : List Byte × List (List Byte) :=
  let b := aesBlock tab ks (s.1 ++ s.2.headD [])
  (xorBytes (b.take 8) (natBe 8 t), s.2.tail ++ [b.drop 8])

/-- AES key wrap of whole semiblocks of 8 bytes. -/
def keyWrap (key : BitVec 256) (text : List Byte) : List Byte :=
  let n := text.length / 8
  let r := (List.range (6 * n)).foldl (fun s t => wrapStep sboxTable (roundKeys key) s (t + 1)) (wrapIcv, groupsOf 8 n text)
  r.1 ++ r.2.flatten

/-- One unwrapping step, number `t`: the semiblock in turn is the last. -/
def unwrapStep (inv : List Byte) (ks : List (List Byte)) (s : List Byte × List (List Byte)) (t : Nat) : List Byte × List (List Byte) :=
  let b := aesInvBlock inv ks (xorBytes s.1 (natBe 8 t) ++ s.2.getLastD [])
  (b.take 8, b.drop 8 :: s.2.dropLast)

/-- The inverse of key wrap: none where the check value is wrong. -/
def keyUnwrap (key : BitVec 256) (text : List Byte) : Option (List Byte) :=
  let n := text.length / 8 - 1
  let r := (List.range (6 * n)).foldl (fun s t => unwrapStep (invSboxTable sboxTable) (roundKeys key) s (6 * n - t))
    (text.take 8, groupsOf 8 n (text.drop 8))
  if r.1 = wrapIcv then some r.2.flatten else none

/-! ## SHAKE256 -/

/-- The round constants of Keccak-f[1600]. -/
def keccakConsts : List W64 :=
  [0x0000000000000001#64, 0x0000000000008082#64, 0x800000000000808A#64, 0x8000000080008000#64,
   0x000000000000808B#64, 0x0000000080000001#64, 0x8000000080008081#64, 0x8000000000008009#64] ++
  [0x000000000000008A#64, 0x0000000000000088#64, 0x0000000080008009#64, 0x000000008000000A#64,
   0x000000008000808B#64, 0x800000000000008B#64, 0x8000000000008089#64, 0x8000000000008003#64] ++
  [0x8000000000008002#64, 0x8000000000000080#64, 0x000000000000800A#64, 0x800000008000000A#64,
   0x8000000080008081#64, 0x8000000000008080#64, 0x0000000080000001#64, 0x8000000080008008#64]

/-- The rotations of the 25 lanes, lane x + 5y. -/
def keccakRot : List Nat := [0, 1, 62, 28, 27, 36, 44, 6, 55, 20, 3, 10, 43] ++ [25, 39, 41, 45, 15, 21, 8, 18, 2, 61, 56, 14]

/-- A lane of a state. -/
def lane (a : List W64) (x y : Nat) : W64 := (a[x % 5 + 5 * (y % 5)]?).getD 0

/-- A state of 25 lanes from its lanes by x and y. -/
def lanes (f : Nat → Nat → W64) : List W64 := (List.range 25).map fun i => f (i % 5) (i / 5)

/-- One round of Keccak-f[1600]. -/
def keccakRound (a : List W64) (rc : W64) : List W64 :=
  let c := fun (x : Nat) => lane a x 0 ^^^ lane a x 1 ^^^ lane a x 2 ^^^ lane a x 3 ^^^ lane a x 4
  let t := lanes fun x y => lane a x y ^^^ c (x + 4) ^^^ (c (x + 1)).rotateLeft 1
  let r := (t.zip keccakRot).map fun e => e.1.rotateLeft e.2
  let b := lanes fun x y => lane r (x + 3 * y) x
  lanes fun x y =>
    let v := lane b x y ^^^ (~~~(lane b (x + 1) y) &&& lane b (x + 2) y)
    if x = 0 ∧ y = 0 then v ^^^ rc else v

/-- A state takes one block of 136 bytes. -/
def absorb (a : List W64) (block : List Byte) : List W64 :=
  keccakConsts.foldl keccakRound (List.zipWith (· ^^^ ·) a ((groupsOf 8 17 block).map (fun w => BitVec.ofNat 64 (leNat w)) ++ List.replicate 8 0))

/-- A message padded to whole blocks of 136 bytes. -/
def shakePad (m : List Byte) : List Byte :=
  let z := 135 - m.length % 136
  if z = 0 then m ++ [0x9F] else m ++ [0x1F] ++ List.replicate (z - 1) 0 ++ [0x80]

/-- The first `n` bytes of SHAKE256 of a message, at most 136. -/
def shake256 (n : Nat) (m : List Byte) : List Byte :=
  let p := shakePad m
  (((groupsOf 136 (p.length / 136) p).foldl absorb (List.replicate 25 0)).flatMap fun w => natLe 8 w.toNat).take n

end Sys2Proof.Machine
end

