-- ==== Sys2Proof/Machine/Route.lean ====
section
/-! DEFINITION. Rotor time, the capacity of a matching, routes and their delivery estimates (R371 to R376), and the rotor term of a promise
(R377). Times are counted in units of 1/720,720 ns, in which a flit slot of every wavelength count is a whole number. -/

namespace Sys2Proof.Machine

/-- Units in a nanosecond. -/
def nsUnits : Nat := 720720

/-- Units in a core cycle of 0.8 ns. -/
def cycleUnits : Nat := 576576

/-- Units in a matching of 4 µs. -/
def matchUnits : Nat := 4000 * nsUnits

/-- A port of the package. -/
def State.port (s : State) (p : Nat) : Port := Tbl.getD s.ports p Port.reset

/-- Replaces a port. -/
def State.setPort (s : State) (p : Nat) (x : Port) : State := { s with ports := Tbl.put Port.reset s.ports p x }

/-- Rotor time of a port (R372, R373): units since a round start before device reset. `phase` is the time in ns from device reset to
a round start. -/
def State.rotorTime (s : State) (p : Nat) : Nat :=
  s.clk * cycleUnits + 128000 * nsUnits - (s.port p).phase % 128000 * nsUnits

/-- The wavelengths of a mask. -/
def wavelengths (m : BitVec 16) : Nat := (List.range 16).countP fun i => m.getLsbD i

/-- Flit slots of a matching (R371). -/
def slotsOf (w : Nat) (half : Bool) : Nat := if half then 1900 * w / 32 else 1900 * w / 16

/-- Units a flit takes: 16 beats of 2 or 4 ns over `w` wavelengths (R370). -/
def flitUnits (w : Nat) (half : Bool) : Nat := (if half then 64 else 32) * nsUnits / w

/-- The flits of a message of `b` bytes (R375). -/
def flitsOf (b : Nat) : Nat := (b + 32 + 223) / 224

/-- The relay share of `n` slots: slots 1 to this number (R371). -/
def relayShare (n : Nat) : Nat := (n - 2) / 4

/-- One matching of a port as a route sees it: the peer, the flit slots, the units of a flit, and the rotor time at which the port has sent what it
has taken up. -/
structure Meet where
  peer  : Nat
  slots : Nat
  flit  : Nat
  busy  : Nat
  deriving DecidableEq, Repr

/-- The rotor time of slot `k` of instance `a` (R371). -/
def Meet.slotAt (m : Meet) (a k : Nat) : Nat := a * matchUnits + 200 * nsUnits + k * m.flit

/-- What a port's table gives for a matching: none where it is not locked, disabled or meets nobody. -/
def Port.meet (x : Port) (m : Nat) : Option Meet :=
  let e := Tbl.getD x.ents (m % 32) RotEnt.reset
  let w := wavelengths (e.txm &&& x.txu)
  if x.lock && !x.dis && e.valid && w != 0 then some ⟨e.peer, slotsOf w e.rate, flitUnits w e.rate, x.txEnd⟩ else none

/-- The tables a package sends by: its ports, each with its matchings. -/
abbrev Tables := List (Nat × (Nat → Option Meet))

/-- The package's own tables. -/
def State.ownTables (s : State) : Tables := (List.range 32).map fun p => (p, (s.port p).meet)

/-- The tables a peer has published in its beacons (R374), at full width. -/
def State.tablesOf (s : State) (pkg : Nat) : Tables :=
  (s.peerSched.filter fun e => e.1 == pkg).map fun e => (e.2.1, fun m =>
    match e.2.2[m % 32]? with
    | some x => if x.valid then some ⟨x.peer, 1900, flitUnits 16 false, 0⟩ else none
    | none => none)

/-- Flits reserved at a port in an instance and not yet sent (R376). -/
def reservedAt (l : List (Route × Nat)) (p a : Nat) : Nat :=
  (l.filter fun e => e.1.port == p && e.1.slot == a).foldl (fun n e => n + e.2) 0

/-- A candidate: its delivery estimate, and its route. -/
abbrev Candidate := Nat × Route

/-- The first data slot of instance `a` that is still to come at time `t`. -/
def slotFrom (t a flit : Nat) : Nat := max 1 ((t - (a * matchUnits + 200 * nsUnits) + flit - 1) / flit)

/-- The first data slot of an instance that is still unreserved at time `t`. -/
def Meet.unreserved (m : Meet) (res : List (Route × Nat)) (p a t : Nat) : Nat := slotFrom (max t m.busy) a m.flit + reservedAt res p a

/-- The direct candidates at time `t` (R375): every instance of the next four rounds in which a port meets the target, from the one in
progress on, behind the flits reserved there. -/
def directRoutes (tab : Tables) (res : List (Route × Nat)) (target f t : Nat) : List Candidate :=
  tab.flatMap fun e => (List.range 128).filterMap fun k =>
    let a := t / matchUnits + k
    match e.2 a with
    | none => none
    | some m =>
      let slot := m.unreserved res e.1 a t
      if m.peer = target ∧ slot + f + 1 ≤ m.slots then some (m.slotAt a (slot + f), ⟨e.1, a, none⟩) else none

/-- The earliest end of `f` flits in an intermediate's relay share in a meeting with the target after time `t`, within two rounds (R375, R376):
at the start of the share, behind `ahead` flits of the same command. -/
def relayEnd (tab : Tables) (target ahead f t : Nat) : Option Nat :=
  (tab.flatMap fun e => (List.range 64).filterMap fun k =>
    let a := t / matchUnits + 1 + k
    match e.2 a with
    | none => none
    | some m =>
      if m.peer = target ∧ ahead + f ≤ relayShare m.slots then some (m.slotAt a (1 + ahead + f)) else none).min?

/-- The relay candidates at time `t`: every port now connected to a peer that meets the target later. `ahead` gives the flits of the same command
that an intermediate relays already. -/
def relayRoutes (tab : Tables) (via : Nat → Tables) (res : List (Route × Nat)) (ahead : Nat → Nat) (target f t : Nat) : List Candidate :=
  tab.filterMap fun e =>
    let a := t / matchUnits
    match e.2 a with
    | none => none
    | some m =>
      if m.peer = target then none
      else
        let slot := m.unreserved res e.1 a t
        if slot + f + 1 ≤ m.slots then
          (relayEnd (via m.peer) target (ahead m.peer) f (m.slotAt a (slot + f))).map fun x => (x, ⟨e.1, a, some m.peer⟩)
        else none

/-- The earlier of two candidates; of equal ones the first. -/
def better (a b : Candidate) : Candidate := if b.1 < a.1 then b else a

/-- The route of R375: the earliest estimate, ties to direct before relay, then the lower port, then the earlier instance. -/
def chooseRoute (tab : Tables) (via : Nat → Tables) (res : List (Route × Nat)) (ahead : Nat → Nat) (target f t : Nat) : Option Candidate :=
  match directRoutes tab res target f t ++ relayRoutes tab via res ahead target f t with
  | [] => none
  | c :: l => some (l.foldl better c)

/-- The instance of a matching that a port is in, numbered from a round start before device reset. -/
def State.instanceOf (s : State) (p : Nat) : Nat := s.rotorTime p / matchUnits

/-- Reservations with `n` flits more on a route: those that its instance has no data slot for are on the port's next instances of the same matching
(R371, R385). -/
def State.addFlits (s : State) : Nat → List (Route × Nat) → Route → Nat → List (Route × Nat)
  | 0, l, r, n => l ++ [(r, n)]
  | f + 1, l, r, n =>
    match (s.port r.port).meet r.slot with
    | none => l ++ [(r, n)]
    | some m =>
      let room := m.slots - 1 - slotFrom (max (s.rotorTime r.port) m.busy) r.slot m.flit - reservedAt l r.port r.slot
      if n ≤ room then l ++ [(r, n)] else s.addFlits f (l ++ [(r, room)]) { r with slot := r.slot + 32 } (n - room)

/-- The slots that are taken by the unsent flits of messages with a route, in the order of their reservations; a port's reduced set moves those that
exceed it at once (R376, R385). -/
def State.reserved (s : State) : List (Route × Nat) :=
  (sortBy Msg.rank (s.msgs.filter fun m => !m.acked && decide (0 < m.left))).foldl (fun l m => match m.route with
    | some r => s.addFlits 64 l r m.left
    | none => l) []

/-- The flits of some routed messages that go through an intermediate. -/
def flitsVia (l : List (Route × Nat)) (via : Nat) : Nat := (l.filter fun e => e.1.relay == some via).foldl (fun n e => n + e.2) 0

/-- The flits of the other messages of a message's command or request that an intermediate relays. -/
def State.aheadOf (s : State) (m : Msg) : Nat → Nat :=
  flitsVia (s.msgs.filterMap fun e => if e.id = m.id ∨ e.acked = true ∨ e.isCmd ≠ m.isCmd ∨ e.owner ≠ m.owner then none
    else e.route.map fun r => (r, e.flits))

/-- The rotor time at which routes are chosen: that of the lowest locked port. -/
def State.fabricTime (s : State) : Nat :=
  s.rotorTime (((List.range 32).find? fun p => (s.port p).lock).getD 0)

/-- The end of the fourth round after a time (R375). -/
def fourRounds (t : Nat) : Nat := (t / (32 * matchUnits) + 5) * (32 * matchUnits)

/-- The sizes of the messages that `n` bytes from address `a` to address `b` make: at most `most` each, cut where either side enters another page. -/
def pieceSizes (most : Nat) : Nat → Nat → Nat → Nat → List Nat
  | 0, _, _, _ => []
  | f + 1, a, b, n =>
    if n = 0 then []
    else
      let k := min (min n most) (min (4096 - a % 4096) (4096 - b % 4096))
      k :: pieceSizes most f (a + k) (b + k) (n - k)

/-- The sizes of the messages of `b` bytes (R375): at most 4 KiB each, cut at pages, and one even without data. -/
def messageSizes (most a b n : Nat) : List Nat := if n = 0 then [0] else pieceSizes most (3 * (n / most) + 3) a b n

/-- The sizes of the messages of `n` blocks of a reduction from a destination on: the blocks that end in its page, or one that does not. -/
def blockSizes : Nat → Nat → Nat → List Nat
  | 0, _, _ => []
  | f + 1, dst, n =>
    if n = 0 then []
    else
      let m := max 1 (min n ((4096 - dst % 4096) / 33))
      33 * m :: blockSizes f (dst + 33 * m) (n - m)

/-- The estimated end of the last of some messages at a target, routed one after another from time `t` (R377); `mine` holds the routes of those
before, `late` what a port adds. -/
def estimateEnd (tab : Tables) (via : Nat → Tables) (res : List (Route × Nat)) (late : Nat → Nat) (target t : Nat) :
    List (Route × Nat) → List Nat → Nat
  | _, [] => t
  | mine, b :: r =>
    let f := flitsOf b
    match chooseRoute tab via (mine ++ res) (flitsVia mine) target f t with
    | none => max (fourRounds t) (estimateEnd tab via res late target t mine r)
    | some c => max (c.1 + late c.2.port) (estimateEnd tab via res late target t ((c.2, f) :: mine) r)

/-- The rotor term of R377 in core cycles: ⌈1,250 × (Td + Ta)⌉ for messages of the sizes `out` toward a peer and completions of the sizes `back`
from it (log entry 60). -/
def State.rotorTerm (s : State) (peer : Nat) (out back : List Nat) : Nat :=
  let t := s.fabricTime
  let done := estimateEnd s.ownTables s.tablesOf s.reserved (fun _ => 0) peer t [] out
  let last := estimateEnd (s.tablesOf peer) s.tablesOf [] (Config.turnaround peer) Config.packageNumber.toNat done [] back
  (last - t + cycleUnits - 1) / cycleUnits

end Sys2Proof.Machine
end

