-- ==== Sys2Proof/Machine/Mesh.lean ====
section
/-! DEFINITION. The die links, and the path of a message between a cluster and a home slice (R2, R366 to R368). -/

namespace Sys2Proof.Machine

/-- A die link. -/
def State.link (s : State) (l : Nat) : Link := Tbl.getD s.links l Link.reset

/-- Replaces a die link. -/
def State.setLink (s : State) (l : Nat) (x : Link) : State := { s with links := Tbl.put Link.reset s.links l x }

/-- The links of a die: a compute die has two mesh links and its hub link, the hub die (4) its four hub links. -/
def dieLinks : Nat → List Nat
  | 0 => [0, 2, 4]
  | 1 => [0, 3, 5]
  | 2 => [1, 2, 6]
  | 3 => [1, 3, 7]
  | 4 => [4, 5, 6, 7]
  | _ => []

/-- The compute dies of a mesh link. -/
def linkDies (l : Nat) : List Nat := (List.range 4).filter fun d => decide (l < 4) && (dieLinks d).contains l

/-- The mesh link between two neighbours: none between a die and itself. -/
def meshLink (d e : Nat) : List Nat := if d = e then [] else ((List.range 4).filter fun l => (linkDies l).contains d && (linkDies l).contains e)

/-- The links from compute die `d` to compute die `e` on the x-first path (0), the y-first path (1), or the path through the hub die (2). -/
def diePath (code d e : Nat) : List Nat :=
  match code with
  | 0 => meshLink d (e % 2 + d / 2 * 2) ++ meshLink (e % 2 + d / 2 * 2) e
  | 1 => meshLink d (d % 2 + e / 2 * 2) ++ meshLink (d % 2 + e / 2 * 2) e
  | _ => if d = e then [] else [4 + d, 4 + e]

/-- The links from a cluster to a home slice on a path. -/
def pathLinks (code c slice : Nat) : List Nat := diePath code (c / 8) (slice / 3)

/-- Every link of a path is up. -/
def State.pathUp (s : State) (code c slice : Nat) : Bool := (pathLinks code c slice).all fun l => (s.link l).up

/-- The path in force from a cluster to a home slice: x-first until a change. -/
def State.pathOf (s : State) (c slice : Nat) : Nat := Tbl.getD s.dieRoutes (12 * c + slice) 0

/-- The path that the next message from a cluster to a home slice takes (R368): the one in force while its links are up, else the first of x-first,
y-first and hub whose links are; none where there is no such path, or while messages on the old one have not all been answered. -/
def State.nextPath (s : State) (c slice : Nat) (waits : Bool) : Option Nat :=
  if s.pathUp (s.pathOf c slice) c slice then some (s.pathOf c slice)
  else if waits then none
  else [0, 1, 2].find? fun k => s.pathUp k c slice

/-- A message from a cluster to a home slice takes a path, which is in force from then on. -/
def State.takePath (s : State) (c slice code : Nat) : State := { s with dieRoutes := Tbl.put 0 s.dieRoutes (12 * c + slice) code }

/-- The die crossings of the path in force, which a message took at its ingress and which is kept until it is answered (R368); unit 32, which is
Lamplighter, Snuffer or Lantern, sends from the die of the home slice. -/
def State.crossings (s : State) (c slice : Nat) : Nat := if c < 32 then (pathLinks (s.pathOf c slice) c slice).length else 0

end Sys2Proof.Machine
end

