-- ==== Sys2Proof/Machine/Translate.lean ====
section
/-! DEFINITION. The two-stage translation of R329 to R331: the walks over the tables in memory, the checks of R317, R330 and R379, and the
translation cache of a cluster (R314, R331). -/

namespace Sys2Proof.Machine

/-- A partition by number. -/
def State.part (s : State) (p : Nat) : Option Partition := Tbl.find s.parts p

/-- A change of a partition that exists. -/
def State.onPart (s : State) (p : Nat) (f : Partition → Partition) : State := { s with parts := Tbl.modify s.parts p f }

/-- A partition whose TDI takes register writes: its interface is locked or running, and no reset refuses requests (R365, R397). -/
def State.tdi (s : State) (p : Nat) : Option Partition :=
  match s.part p with
  | some q => if (q.tdisp = .locked ∨ q.tdisp = .run) ∧ q.refuse = false then some q else none
  | none => none

/-- A register write's change of a partition. -/
def State.onTdi (s : State) (p : Nat) (f : Partition → Partition) : State := if (s.tdi p).isSome then s.onPart p f else s

/-- PF0's register window answers (R400): after the boot, and not in recovery. -/
def State.mgmtOpen (s : State) : Bool := s.power && (s.mgmt.phase == 2 || s.mgmt.phase == 4)

/-- A KeyID's record (R233, R317): unlisted ones have no owner, CUR 0 and LAG 0. -/
def State.key (s : State) (k : Nat) : KeyRec := Tbl.getD s.keys k ⟨none, 0, 0⟩

/-! ## Pages and lines of a physical address (R318) -/

/-- The page of a 60-bit physical address, with its KeyID. -/
def pageOf (pa : Nat) : Nat := pa / 4096

/-- The page as the stack counts it, without the KeyID. -/
def stackPage (page : Nat) : Nat := page % 2 ^ 36

/-- The KeyID of a page. -/
def keyOf (page : Nat) : Nat := page / 2 ^ 36

/-- The line of a 60-bit physical address. -/
def lineOf (pa : Nat) : Nat := pa / 64

/-- The home slice of a page (R318). -/
def sliceOf (page : Nat) : Nat := stackPage page % 12

/-- A line is poisoned, alone or with its page (R322). -/
def State.poisoned (s : State) (line : Nat) : Bool :=
  s.poison.any fun e => e.1 == stackPage (line / 64) && (e.2 == none || e.2 == some (line % 64))

/-- Some line of a range is poisoned. -/
def State.poisonedIn (s : State) (pa n : Nat) : Bool :=
  (List.range (lineOf (pa + n - 1) + 1 - lineOf pa)).any fun k => s.poisoned (lineOf pa + k)

/-! ## Deadlines (R326, R328) -/

/-- The index of a miss counter. -/
def missIndex (slice part cls : Nat) : Nat := (slice * 16 + part) * 4 + cls

/-- A miss counter takes one miss with an overrun of `ns` (R328). -/
def missAdd (v : W64) (ns : Nat) : W64 :=
  BitVec.ofNat 64 (min (bits v.toNat 31 0 + 1) 0xFFFFFFFF + place (max (bits v.toNat 47 32) (min ns 0xFFFF)) 47 32)

/-- The budget of a class, in ns, as its gateway stamps it on a request: 0 counts as 1 (R326). -/
def Partition.budgetOf (q : Partition) (cls : Nat) : Nat := max 1 (bits q.memcls.toNat (16 * cls + 15) (16 * cls))

/-- The overrun of a request, in ns, and 0 where it meets its deadline D, which lies its budget less the transit allowance of its path after its
ingress (R326, R328). How long the home slice takes is free. `unit` is the sending cluster, 32 for Lamplighter, Snuffer and Lantern. -/
def State.overrunNs (s : State) (unit slice part cls : Nat) : Nat :=
  Config.choice s.free % 2 ^ 32 + Config.transit unit slice (s.crossings unit slice) - ((s.part part).map fun q => q.budgetOf cls).getD 1

/-- A request of class `cls` is done at a home slice: a miss is counted for its partition (R328). -/
def State.miss (s : State) (unit slice part cls : Nat) : State :=
  let o := s.overrunNs unit slice part cls
  let i := missIndex slice part cls
  { s with free := s.free + 1, misscnt := if o = 0 then s.misscnt else Tbl.put 0 s.misscnt i (missAdd (Tbl.getD s.misscnt i 0) o) }

/-- A request of class SYS for a page is done: a table walk, or a read or write of Lamplighter, Snuffer or Lantern (R326). -/
def State.sysMiss (s : State) (unit page : Nat) : State :=
  match (s.key (keyOf page)).owner with
  | some p => s.miss unit (sliceOf page) p 3
  | none => s

/-! ## Walks (R329, R330) -/

/-- The first address past the protected data space (R317, R318). -/
def dataEnd : Nat := 0x7E00000000

/-- The leaf of a walk: log2 of its size, its output address, its rights, its ORD, and for stage 2 its KeyID or peer and FAB. -/
structure Leaf where
  span : Nat
  oa   : Nat
  rd   : Bool
  wr   : Bool
  ord  : Nat
  hi   : Nat
  fab  : Bool
  deriving DecidableEq, Repr

/-- An entry that a walk reads is in order (R330): valid, no reserved bit above `top` or in [11:6], ORD below 3, no write right
alone, a table above level 3 only, a leaf below level 0 only and with no address bit below its size. -/
def entryOk (level top e : Nat) : Bool :=
  e.testBit 0 && (bits e 11 6 == 0) && (e >>> top == 0) && (bits e 5 4 != 3) && !(e.testBit 3 && !e.testBit 2) &&
    (if e.testBit 1 then level != 3 else level != 0 && bits e 47 12 * 4096 % 2 ^ (39 - 9 * level) == 0)

/-- The leaf an entry holds at a level. -/
def leafOf (level e : Nat) : Leaf :=
  ⟨39 - 9 * level, bits e 47 12 * 4096, e.testBit 2, e.testBit 3, bits e 5 4, bits e 59 48, e.testBit 60⟩

/-- The address of the entry for address `a` in a table at a level. -/
def entryAddr (table level a : Nat) : Nat := table + 8 * (a / 2 ^ (39 - 9 * level) % 512)

/-- Why a translation gives no place: a fault of stage 1 or 2 (R330), or poison in a table (R322). -/
inductive Miss where
  | stage (two : Bool)
  | poison (pa : Nat)
  deriving DecidableEq, Repr

/-- The entry of a table that serves an address: one that the translation cache holds, else the word in memory, which the walk has then read. -/
def State.readEnt (s : State) (c : List TableEnt) (p : Nat) (two : Bool) (level pre pa : Nat) : Except Miss Nat × List TableEnt :=
  match c.find? fun e => e.part == p && e.two == two && e.level == level && e.pre == pre with
  | some e => (.ok e.word, [])
  | none =>
    if s.poisoned (lineOf pa) then (.error (.poison pa), [])
    else let w := (Mem.word s.mem pa).toNat; (.ok w, [⟨p, two, level, pre, pa, w⟩])

/-- The stage-2 walk of a guest physical address from a table on, `fuel` levels above level 4 (R329, R330), with the entries that it read. The
tables lie under KeyID 0. -/
def State.walk2 (s : State) (c : List TableEnt) (p g : Nat) : Nat → Nat → Except Miss Leaf × List TableEnt
  | 0, _ => (.error (.stage true), [])
  | fuel + 1, table =>
    let level := 3 - fuel
    let r := s.readEnt c p true level (g / 2 ^ (39 - 9 * level)) (entryAddr table level g)
    match r.1 with
    | .error m => (.error m, r.2)
    | .ok e =>
      if entryOk level 61 e = false then (.error (.stage true), r.2)
      else if e.testBit 1 then let w := State.walk2 s c p g fuel (bits e 47 12 * 4096); (w.1, r.2 ++ w.2)
      else (.ok (leafOf level e), r.2)

/-- The KeyID of a leaf is the partition's and its address lies in the data space (R317); a fabric leaf names a peer. -/
def State.leafOwned (s : State) (p : Nat) (l : Leaf) : Bool :=
  l.fab || ((s.key l.hi).owner == some p && decide (l.oa + 2 ^ l.span ≤ dataEnd))

/-- The stage-2 leaf that Lantern has installed over a leased window (R230). -/
def State.leaseLeaf (s : State) (p g : Nat) : Option Leaf :=
  (s.leases.find? fun l => !l.lender && l.part == p && l.state == 0 && decide (l.base ≤ g) && decide (g < l.base + 4096 * l.pages)).map fun l =>
    ⟨12, l.fwin + (g - l.base) / 4096 * 4096, true, true, 0, l.peer, true⟩

/-- Stage 2 of a guest physical address of a partition with the access it needs, by the table entries `c` where they serve. -/
def State.stage2By (s : State) (c : List TableEnt) (p g : Nat) (rd wr : Bool) : Except Miss Leaf × List TableEnt :=
  match s.part p with
  | none => (.error (.stage true), [])
  | some q =>
    let r : Except Miss Leaf × List TableEnt := match s.leaseLeaf p g with
      | some l => (.ok l, [])
      | none => s.walk2 c p g 4 q.s2root
    match r.1 with
    | .error m => (.error m, r.2)
    | .ok l => (if s.leafOwned p l && (!rd || l.rd) && (!wr || l.wr) then .ok l else .error (.stage true), r.2)

/-- Stage 2 as the tables in memory now give it. -/
def State.stage2 (s : State) (p g : Nat) (rd wr : Bool) : Option Leaf := (s.stage2By [] p g rd wr).1.toOption

/-- The address a leaf gives. -/
def Leaf.addr (l : Leaf) (a : Nat) : Nat := l.oa + a % 2 ^ l.span

/-- The 60-bit physical address a local leaf gives (R317). -/
def Leaf.pa (l : Leaf) (a : Nat) : Nat := l.hi * 2 ^ 48 + l.addr a

/-- A stage-1 table entry: one that the translation cache holds, else read through stage 2 from local memory (R330). -/
def State.readEnt1 (s : State) (c : List TableEnt) (p level pre g : Nat) : Except Miss Nat × List TableEnt :=
  match c.find? fun e => e.part == p && !e.two && e.level == level && e.pre == pre with
  | some e => (.ok e.word, [])
  | none =>
    let t := s.stage2By c p g true false
    match t.1 with
    | .error m => (.error m, t.2)
    | .ok l => if l.fab then (.error (.stage true), t.2) else let r := s.readEnt c p false level pre (l.pa g); (r.1, t.2 ++ r.2)

/-- The stage-1 walk of a virtual address, with the table entries that it read. -/
def State.walk1 (s : State) (c : List TableEnt) (p va : Nat) : Nat → Nat → Except Miss Leaf × List TableEnt
  | 0, _ => (.error (.stage false), [])
  | fuel + 1, table =>
    let level := 3 - fuel
    let r := s.readEnt1 c p level (va / 2 ^ (39 - 9 * level)) (entryAddr table level va)
    match r.1 with
    | .error m => (.error m, r.2)
    | .ok e =>
      if entryOk level 48 e = false then (.error (.stage false), r.2)
      else if e.testBit 1 then let w := State.walk1 s c p va fuel (bits e 47 12 * 4096); (w.1, r.2 ++ w.2)
      else (.ok (leafOf level e), r.2)

/-- Stage 1 of a virtual address; with S1ROOT.EN = 0 it is the guest physical address (R332). -/
def State.stage1 (s : State) (c : List TableEnt) (p va : Nat) : Except Miss Leaf × List TableEnt :=
  match s.part p with
  | none => (.error (.stage true), [])
  | some q =>
    if q.s1root.toNat.testBit 0 then s.walk1 c p va 4 (bits q.s1root.toNat 47 12 * 4096)
    else (.ok ⟨48, 0, true, true, 0, 0, false⟩, [])

/-- Where stage 2 stops a stage-1 walk: the guest physical address, and whether a table lies there. -/
def State.stop1 (s : State) (p va : Nat) : Nat → Nat → Nat × Bool
  | 0, _ => (va, false)
  | fuel + 1, table =>
    let level := 3 - fuel
    let g := entryAddr table level va
    match s.stage2 p g true false with
    | none => (g, true)
    | some t =>
      if t.fab then (g, true)
      else
        let e := (Mem.word s.mem (t.pa g)).toNat
        if e.testBit 1 then State.stop1 s p va fuel (bits e 47 12 * 4096) else ((leafOf level e).addr va, false)

/-- Where stage 2 stops the walk of a virtual address (R440). -/
def State.stop2 (s : State) (p va : Nat) : Nat × Bool :=
  match s.part p with
  | none => (va, false)
  | some q => if q.s1root.toNat.testBit 0 then s.stop1 p va 4 (bits q.s1root.toNat 47 12 * 4096) else (va % 2 ^ 48, false)

/-- The stronger of two ORD values (R257). -/
def attrOf (a b : Nat) : Attr := if a = 1 ∨ b = 1 then .so else if a = 0 ∨ b = 0 then .rc else .uo

/-- The partition holds a trust domain for a peer (R379). -/
def Partition.hasPeer (q : Partition) (peer : Nat) : Bool := q.domains.any fun d => d.2.2 == some peer

/-- The translation of a virtual address for an access by the table entries `c` where they serve (R330, R331): the combined result for its page,
or why there is none; with the table entries read. -/
def State.walkBy (s : State) (c : List TableEnt) (p va : Nat) (rd wr : Bool) : Except Miss Trans × List TableEnt :=
  let r := s.stage1 c p va
  match r.1 with
  | .error m => (.error m, r.2)
  | .ok a =>
    if (rd && !a.rd) || (wr && !a.wr) then (.error (.stage false), r.2)
    else
      let g := a.addr va
      let t := s.stage2By c p g rd wr
      match t.1 with
      | .error m => (.error m, r.2 ++ t.2)
      | .ok b =>
        if b.fab != va.testBit 47 then (.error (.stage true), r.2 ++ t.2)
        else if b.fab && !(((s.part p).map fun q => q.hasPeer b.hi).getD false) then (.error (.stage true), r.2 ++ t.2)
        else
          let span := min a.span b.span
          let base := b.addr g
          (.ok ⟨p, va / 2 ^ span, span, a.span, ⟨b.fab, b.hi, base - base % 2 ^ span⟩, a.rd && b.rd, a.wr && b.wr, attrOf a.ord b.ord⟩, r.2 ++ t.2)

/-- The translation of a virtual address as the tables in memory now give it. -/
def State.walk (s : State) (p va : Nat) (rd wr : Bool) : Except Miss Trans := (s.walkBy [] p va rd wr).1

/-- Where a translated address lies. -/
def Trans.phys (t : Trans) (va : Nat) : Phys := ⟨t.pa.fab, t.pa.hi, t.pa.addr + va % 2 ^ t.span⟩

/-- The 60-bit physical address of a local place. -/
def Phys.pa (a : Phys) : Nat := a.hi * 2 ^ 48 + a.addr

/-- A cached result serves an access. -/
def Trans.serves (t : Trans) (p va : Nat) (rd wr : Bool) : Bool :=
  t.part == p && t.vpage == va / 2 ^ t.span && (!rd || t.rd) && (!wr || t.wr)

/-- Of some table entries those that the translation cache has not dropped, by free choice (R314). -/
def State.keepSome (s : State) : List TableEnt → List TableEnt × State
  | [] => ([], s)
  | e :: r =>
    let q := s.choose 2
    let k := q.2.keepSome r
    (if q.1 = 0 then e :: k.1 else k.1, k.2)

/-- The entries that a walk read and that the translation cache may serve again. -/
def validEnts (l : List TableEnt) : List TableEnt := l.filter fun e => entryOk e.level (if e.two then 61 else 48) e.word

/-- The translation unit of a cluster serves an access (R331): by a result that the translation cache holds, or by a walk, which uses and leaves
table entries there. Which results and entries the cache has dropped is a free choice. -/
def State.translate (s : State) (c p va : Nat) (rd wr : Bool) : Except Miss Trans × State :=
  let hit := (s.cluster c).trans.find? fun t => t.serves p va rd wr
  let q := s.choose 2
  match hit with
  | some t => if q.1 = 0 then (.ok t, q.2) else walked q.2
  | none => walked s
where
  /-- A walk, with what it leaves in the cache. -/
  walked (s : State) : Except Miss Trans × State :=
    let k := s.cluster c
    let e := s.keepSome k.ents
    let w := e.2.walkBy e.1 p va rd wr
    let trans := match w.1 with
      | .error _ => k.trans
      | .ok t => t :: k.trans.filter fun u => !(u.part == p && u.vpage == t.vpage && u.span == t.span)
    (w.1, w.2.foldl (fun (t : State) e => t.miss c (sliceOf (pageOf e.pa)) p 3)
      (e.2.setCluster c { k with trans := trans, ents := validEnts w.2 ++ e.1 }))

end Sys2Proof.Machine
end

