-- ==== Sys2Proof/Machine/Storage.lean ====
section
/-! DEFINITION. Storage behind the home slices: generations and counters (R233, R321, R324), poison (R322), the bytes a cluster sees
(R255, R315), the writes of the device itself, and the records of the event rings (R295, R361, R387). -/

namespace Sys2Proof.Machine

/-- The lines of a range. -/
def linesIn (pa n : Nat) : List Nat := (List.range ((pa + n + 63) / 64 - pa / 64)).map fun k => pa / 64 + k

/-! ## Counters (R233, R321) -/

/-- GEN of a page: CUR where the page is unwritten. -/
def State.gen (s : State) (page : Nat) : BitVec 16 :=
  match Tbl.find s.pages page with
  | some m => m.gen
  | none => (s.key (keyOf page)).cur

/-- The major counter that the stack holds for a page. -/
def State.major (s : State) (page : Nat) : Nat := Tbl.getD s.majors (stackPage page) 0

/-- The rewrite of a page in progress (R324). -/
def State.rewrite (s : State) (page : Nat) : Option Rewrite := Tbl.find s.rewrites page

/-- The minor counter of a line of a page: from the pointer of a rewrite on, the old one. -/
def State.minor (s : State) (page i : Nat) : BitVec 7 :=
  let new := (Tbl.find s.pages page).map fun m => Tbl.getD m.minors i 0
  match s.rewrite page with
  | some w => if i < w.line then new.getD 0 else Tbl.getD w.minors i 0
  | none => new.getD 0

/-- A page is written under CUR: its generation is CUR, its major counter one more, every minor counter 0 (R233). -/
def State.rekey (s : State) (page : Nat) : State :=
  let k := s.key (keyOf page)
  let lag := if s.gen page = k.cur then k.lag else k.lag - 1
  { s with
    majors := Tbl.insert s.majors (stackPage page) (s.major page + 1)
    pages := Tbl.insert s.pages page ⟨k.cur, []⟩
    keys := Tbl.put ⟨none, 0, 0⟩ s.keys (keyOf page) { k with lag := lag } }

/-- A rewrite of a page begins, unless one is in progress, which absorbs this cause (R324, R325). -/
def State.startRewrite (s : State) (page : Nat) (scrub : Bool) : State :=
  match s.rewrite page with
  | some _ => s
  | none =>
    let old := ((Tbl.find s.pages page).map PageMeta.minors).getD []
    { s.rekey page with rewrites := Tbl.insert s.rewrites page ⟨0, false, s.gen page, s.major page, old, scrub, none⟩ }

/-- An access to a line waits (R321, R324): the line is locked, or it is a write that finds the line's minor counter at 127 or the rewrite that such
a write began. -/
def State.lineWaits (s : State) (line : Nat) (write : Bool) : Bool :=
  ((s.rewrite (line / 64)).any fun w => (w.locked && w.line == line % 64) || (write && w.trig == some (line % 64))) ||
    (write && s.minor (line / 64) (line % 64) == 127)

/-- A write finds a minor counter at 127 and no rewrite of its page in progress: it starts one (R321, R325). -/
def State.overflows (s : State) (line : Nat) (write : Bool) : Bool :=
  write && s.minor (line / 64) (line % 64) == 127 && (s.rewrite (line / 64)).isNone

/-- A write that waits for a minor counter at 127 starts the rewrite of the page (R321). -/
def State.holdLine (s : State) (line : Nat) (write : Bool) : State :=
  if s.overflows line write then
    let t := s.startRewrite (line / 64) false
    { t with rewrites := Tbl.modify t.rewrites (line / 64) fun w => { w with trig := some (line % 64) } }
  else s

/-- An access of a request (false) or command waits for a line; where it starts the rewrite, its write is owed to the page. -/
def State.holdFor (s : State) (isCmd : Bool) (id line : Nat) (write : Bool) : State :=
  if s.overflows line write then
    let t := s.holdLine line write
    { t with owed := t.owed ++ [(line, isCmd, id)] }
  else s

/-- A page is owed a write: one that started a rewrite of it, and whose request or command has not ended, has still to be performed. No other
rewrite of the page begins before it (R321, R325). -/
def State.owes (s : State) (page : Nat) : Bool :=
  s.owed.any fun e => e.1 / 64 == page &&
    (if e.2.1 then s.cmds.any fun c => c.id == e.2.2 && c.fault.isNone else s.reqs.any fun r => r.id == e.2.2)

/-- One step of a page's rewrite (R324): the line at the pointer locks, or it is rewritten with minor counter 0 and unlocks; after line 63 the
rewrite is over. The lines that SCRUB writes move on with SCRUB. -/
def State.reencrypt (s : State) (page : Nat) : State :=
  match s.rewrite page with
  | none => s
  | some w =>
    if w.scrub then s
    else if w.locked = false then { s with rewrites := Tbl.insert s.rewrites page { w with locked := true } }
    else
      let t := s.sysMiss 32 page
      { t with
        pages := Tbl.modify t.pages page fun m => { m with minors := Tbl.erase m.minors w.line }
        rewrites := if w.line = 63 then Tbl.erase s.rewrites page else Tbl.insert s.rewrites page { w with line := w.line + 1, locked := false } }

/-- What an access from outside finds at a line that it must wait for: the rewrite of its page has ended; one that a SCRUB was making has been
finished without it. -/
def State.settleLine (s : State) (line : Nat) (write : Bool) : State :=
  if s.lineWaits line write then
    let t := s.holdLine line write
    (List.range 128).foldl (fun (t : State) _ => t.reencrypt (line / 64))
      { t with rewrites := Tbl.modify t.rewrites (line / 64) fun w => { w with scrub := false } }
  else s

/-- A line is written under a new minor counter (R321). The first write to a page puts the page under CUR (R233). -/
def State.bumpLine (s : State) (line : Nat) : State :=
  let page := line / 64
  let i := line % 64
  let up := fun (l : Tbl (BitVec 7)) => Tbl.put 0 l i (s.minor page i + 1)
  let s := { s with owed := s.owed.filter fun e => e.1 != line }
  match s.rewrite page with
  | some w =>
    if i < w.line then { s with pages := Tbl.modify s.pages page fun m => { m with minors := up m.minors } }
    else { s with rewrites := Tbl.insert s.rewrites page { w with minors := up w.minors } }
  | none =>
    let t := if (Tbl.find s.pages page).isNone then s.rekey page else s
    { t with pages := Tbl.modify t.pages page fun m => { m with minors := up m.minors } }

/-- No cluster but `keep` holds the lines of a range (R319). -/
def State.dropLines (s : State) (keep : Option Nat) (pa n : Nat) : State :=
  { s with clusters := s.clusters.map fun e =>
      if keep = some e.1 then e
      else (e.1, { e.2 with lines := e.2.lines.filter fun l => !(lineOf pa ≤ l.1 && l.1 ≤ lineOf (pa + n - 1)) }) }

/-- Bytes written to storage from a physical address on: a new minor counter for every line touched, no cached copy left but in `keep`. -/
def State.store (s : State) (keep : Option Nat) (pa : Nat) (b : List (Option Byte)) : State :=
  if b.isEmpty then s
  else
    let first := lineOf pa
    let t := (List.range (lineOf (pa + b.length - 1) + 1 - first)).foldl (fun t k => t.bumpLine (first + k)) s
    { t with mem := Mem.writeMasked t.mem pa b }.dropLines keep pa b.length

/-- Bytes written by an agent that is no strand: no cache keeps the lines. -/
def State.put (s : State) (pa : Nat) (b : List Byte) : State := s.store none pa (b.map some)

/-! ## Poison (R322) -/

/-- The pages beneath a tree node `k` levels above a page's counter block (R323): those of one stack whose number shares all but the
low 3k bits. -/
def pagesBeneath (page k : Nat) : List Nat :=
  let st := stackPage page % 12
  let sp := stackPage page / 12
  (List.range (8 ^ k)).map fun j => 12 * (sp - sp % 8 ^ k + j) + st

/-- A check that failed twice poisons the line, if the access reads it, or the counter block or tree node that failed and every page beneath it
(R322); which of them failed is free. -/
def State.spoil (s : State) (line : Nat) (lineToo : Bool) : State :=
  let q := s.choose 9
  let page := line / 64
  let l := match if lineToo then q.1 else q.1 % 8 + 1 with
    | 0 => [(stackPage page, some (line % 64))]
    | k + 1 => (pagesBeneath page k).map fun p => (p, none)
  { q.2 with poison := q.2.poison ++ l.filter fun e => !q.2.poison.contains e }

/-- A page every line of which SCRUB or Snuffer has written is sound again (R322). -/
def State.mend (s : State) (page : Nat) : State := { s with poison := s.poison.filter fun e => e.1 != stackPage page }

/-- A page zeroed as a whole by Snuffer, under new counters and without reading the old lines (R322, R324); a rewrite in progress ends with it. -/
def State.zeroPage (s : State) (page : Nat) : State :=
  let u := { s with mem := Mem.zero s.mem (page * 4096) 4096, rewrites := Tbl.erase s.rewrites page }.rekey page
  ((u.dropLines none (page * 4096) 4096).mend page).sysMiss 32 page

/-- A run of whole lines that the device writes itself: the rewrites that it would wait for have ended first (R321); lost where one of its lines is
poisoned, of which Lantern receives its record (R322). -/
def State.putRun (s : State) (p pa : Nat) (b : List Byte) : State :=
  let ls := linesIn pa b.length
  if ls.any s.poisoned then { s with lantern := s.lantern ++ [.poison p pa] }
  else
    let t := ls.foldl (fun (t : State) l => (t.settleLine l true).bumpLine l) s
    ({ t with mem := Mem.splice t.mem pa b }.dropLines none pa b.length).sysMiss 32 (pageOf pa)

/-! ## What a cluster sees (R255, R315) -/

/-- The bytes at `a` on, changed by the bytes `b` that begin at `q`. -/
def patch (a : Nat) (base : List Byte) (q : Nat) (b : List (Option Byte)) : List Byte :=
  base.zipIdx.map fun e =>
    let i := a + e.2
    if q ≤ i then ((b[i - q]?).bind id).getD e.1 else e.1

/-- A store piece that the gateway has accepted and its home slice has not performed. -/
def Piece.waiting (p : Piece) : Bool := !p.done && ((p.pa.map fun a => !a.fab).getD false)

/-- The store pieces that a cluster's gateway has accepted and that are not performed, with their requests, in order of acceptance. -/
def State.acceptedStores (s : State) (c : Nat) : List (Req × Piece) :=
  sortBy (fun (e : Req × Piece) => e.2.acc.getD 0) ((s.reqs.filter fun r => r.kind == .store && clusterOf r.strand == c).flatMap fun r =>
    (r.pieces.filter fun p => p.acc.isSome && p.waiting).map fun p => (r, p))

/-- The bytes a cluster sees at `pa` on: storage, with the bytes of accepted stores over it, but those `skip` names. -/
def State.clusterBytes (s : State) (c : Nat) (skip : Req → Bool) (pa n : Nat) : List Byte :=
  ((s.acceptedStores c).filter fun e => !skip e.1).foldl (fun b e => patch pa b ((e.2.pa.map Phys.pa).getD 0) e.2.bytes)
    (Mem.readN s.mem pa n)

/-- The bytes an engine of a cluster reads. -/
def State.engineBytes (s : State) (c pa n : Nat) : List Byte := s.clusterBytes c (fun _ => false) pa n

/-! ## Records (R295, R361, R387) -/

/-- The bytes of words. -/
def wordBytes (l : List Nat) : List Byte := l.flatMap (natLe 8)

/-- A record of the event rings (R361). -/
def eventBytes (type part strand seq w1 w2 w3 : Nat) : List Byte :=
  wordBytes [place type 15 0 + place part 19 16 + place strand 28 20 + place seq 63 32, w1, w2, w3]

/-- STRAND of a record that names none. -/
def noStrand : Nat := 0x1FF

/-- The log2 record count of a partition's event ring and of its page-request ring (R334). -/
def Partition.evLsz (q : Partition) : Nat := bits ((q.desc[5]?).getD 0).toNat 51 48
/-- The log2 record count of the page-request ring. -/
def Partition.prqLsz (q : Partition) : Nat := bits ((q.desc[4]?).getD 0).toNat 51 48
/-- Base of the event ring, a guest physical address. -/
def Partition.evBase (q : Partition) : Nat := bits ((q.desc[5]?).getD 0).toNat 47 12 * 4096
/-- Base of the page-request ring. -/
def Partition.prqBase (q : Partition) : Nat := bits ((q.desc[4]?).getD 0).toNat 47 12 * 4096

/-- A ring has room (R295). -/
def ringRoom (prod cons : BitVec 32) (lsz : Nat) : Bool := decide ((prod - cons).toNat < 2 ^ lsz)

/-- The index of an event ring or page-request ring takes a written consumer index (R295): at most PROD, and at most 2^LSZ below it. -/
def consOk (prod new : BitVec 32) (lsz : Nat) : Bool := decide ((prod - new).toNat ≤ 2 ^ lsz)

/-- Where record `k` of a ring of a partition lies, if stage 2 maps it for writing (R295). -/
def State.ringSlot (s : State) (p base : Nat) (k : BitVec 32) (lsz : Nat) : Option Nat :=
  let g := base + 32 * (k.toNat % 2 ^ lsz)
  match s.stage2 p g false true with
  | some l => if l.fab then none else some (l.pa g)
  | none => none

/-- What becomes of a record: it is written, it is lost, or it waits for the re-encryption of its page. -/
inductive Fate where
  | written | lost | waits
  deriving DecidableEq, Repr

/-- Writes a record of four words at a place (R295): held while its line waits (R321), lost where the line is poisoned, of which Lantern receives its
record (R322). -/
def State.putRecord (s : State) (p a : Nat) (b : List Byte) : Fate × State :=
  if s.poisoned (lineOf a) then (.lost, { s with lantern := s.lantern ++ [.poison p a] })
  else if s.lineWaits (lineOf a) true then (.waits, s.holdLine (lineOf a) true) else (.written, (s.put a b).sysMiss 32 (pageOf a))

/-- A record of a partition's event ring (R361): type, strand and three words. -/
abbrev EvRec := Nat × Nat × Nat × Nat × Nat

/-- Writes one record to a partition's event ring; it is lost when the ring is full or not mapped. -/
def State.writeEvent (s : State) (p : Nat) (r : EvRec) : Fate × State :=
  match s.part p with
  | none => (.lost, s)
  | some q =>
    if ringRoom q.evProd q.evCons q.evLsz then
      match s.ringSlot p q.evBase q.evProd q.evLsz with
      | none => (.lost, s)
      | some a =>
        let t := s.putRecord p a (eventBytes r.1 p r.2.1 q.evSeq.toNat r.2.2.1 r.2.2.2.1 r.2.2.2.2)
        (t.1, if t.1 = .written then t.2.onPart p fun q => { q with evProd := q.evProd + 1, evSeq := q.evSeq + 1 } else t.2)
    else (.lost, s)

/-- One more record is counted as lost (R361). -/
def State.loseEvent (s : State) (p : Nat) : State := s.onPart p fun q => { q with evLost := q.evLost + 1 }

/-- The records that wait are written in order, up to one that waits on. -/
def State.flushWait (s : State) (p : Nat) : List EvRec → State
  | [] => s.onPart p fun q => { q with evWait := [] }
  | r :: l =>
    let t := s.writeEvent p r
    match t.1 with
    | .written => t.2.flushWait p l
    | .lost => (t.2.loseEvent p).flushWait p l
    | .waits => t.2.onPart p fun q => { q with evWait := r :: l }

/-- The records that come first: those that wait, and once room returns the OVERFLOW record with the count of lost ones (R361). -/
def State.flushLost (s : State) (p : Nat) : State :=
  let t := match s.part p with
    | none => s
    | some q => if q.evWait = [] then s else s.flushWait p q.evWait
  match t.part p with
  | none => t
  | some q =>
    if q.evLost = 0 ∨ q.evWait ≠ [] then t
    else
      let u := t.writeEvent p (11, noStrand, q.evLost, 0, 0)
      if u.1 = .written then u.2.onPart p fun q => { q with evLost := 0 } else u.2

/-- A record for a partition's event ring: written, held behind one that waits, or dropped and counted (R321, R361, R295). -/
def State.event (s : State) (p type strand w1 w2 w3 : Nat) : State :=
  let t := s.flushLost p
  let r : EvRec := (type, strand, w1, w2, w3)
  let wait := fun (u : State) => u.onPart p fun q => { q with evWait := q.evWait ++ [r] }
  match t.part p with
  | none => t
  | some q =>
    if q.evWait ≠ [] then wait t
    else if q.evLost ≠ 0 then t.loseEvent p
    else
      let u := t.writeEvent p r
      match u.1 with
      | .written => u.2
      | .lost => u.2.loseEvent p
      | .waits => wait u.2

/-- The log2 record count of the host's fabric event ring (R405); outside 4 to 12 there is no ring. -/
def Mgmt.fevLsz (g : Mgmt) : Nat := bits g.fevBase.toNat 51 48

/-- Writes one record to the host's fabric event ring; none when it is full or not set up. -/
def State.writeFabricEvent (s : State) (type w1 w2 w3 : Nat) : Option State :=
  let g := s.mgmt
  if 4 ≤ g.fevLsz ∧ g.fevLsz ≤ 12 ∧ ringRoom g.fevProd g.fevCons g.fevLsz = true then
    let a := bits g.fevBase.toNat 47 12 * 4096 + 32 * (g.fevProd.toNat % 2 ^ g.fevLsz)
    some { s with
      hostMem := Mem.writeN s.hostMem a (eventBytes type 0 noStrand g.fevSeq.toNat w1 w2 w3)
      mgmt := { g with fevProd := g.fevProd + 1, fevSeq := g.fevSeq + 1 } }
  else none

/-- A record for the host's fabric event ring (R387), an OVERFLOW record first where records were lost. -/
def State.fabricEvent (s : State) (type w1 w2 w3 : Nat) : State :=
  let t := if s.mgmt.fevLost = 0 then s
    else match s.writeFabricEvent 11 s.mgmt.fevLost 0 0 with
      | some u => { u with mgmt := { u.mgmt with fevLost := 0 } }
      | none => s
  let lost := { t with mgmt := { t.mgmt with fevLost := t.mgmt.fevLost + 1 } }
  if t.mgmt.fevLost = 0 then (t.writeFabricEvent type w1 w2 w3).getD lost else lost

end Sys2Proof.Machine
end

