-- ==== Sys2Proof/Machine/Requests.lean ====
section
/-! DEFINITION. The memory queue of a strand: requests and their pieces (R208, R253, R261), the region buffer (R203, R300), the order of
departure (R212, R258 to R266, R275), flag posts (R64, R120, R218), and the acceptance and completion of engine commands (R220, R222,
R236, R377). -/

namespace Sys2Proof.Machine

/-! ## Requests -/

/-- A piece of `n` bytes at a virtual address, for a load. -/
def Piece.read (va n off : Nat) (held : List (Option Byte)) : Piece := ⟨va, n, off, held, none, .rc, none, false, false, []⟩

/-- A piece that stores bytes at a virtual address. -/
def Piece.store (va : Nat) (b : List (Option Byte)) : Piece := ⟨va, b.length, 0, b, none, .rc, none, false, false, []⟩

/-- A new request of the strand in issue, in its memory queue; `wait` holds the entry of a trap until it is accepted (R283). -/
def State.addReq (s : State) (wait : Bool) (k : ReqKind) (ps : List Piece) : Nat × State :=
  let f := s.fresh
  let x := s.me
  let r : Req := ⟨f.1, none, f.1, s.cur, x.gtag, x.sidx, x.part, x.iss.handler, k, .queued, none, ps⟩
  let t := { f.2 with reqs := f.2.reqs ++ [r] }
  (f.1, if wait then t.onMe fun x => { x with iss := { x.iss with await := f.1 :: x.iss.await } } else t)

/-- A request by number. -/
def State.req (s : State) (id : Nat) : Option Req := s.reqs.find? fun r => r.id == id

/-- A change of one request. -/
def State.onReq (s : State) (id : Nat) (f : Req → Req) : State :=
  { s with reqs := s.reqs.map fun r => if r.id == id then f r else r }

/-- A request that has ended. -/
def State.dropReq (s : State) (id : Nat) : State := { s with reqs := s.reqs.filter fun r => r.id != id }

/-- A request reads memory and returns a value. -/
def Req.returns (r : Req) : Bool :=
  match r.kind with
  | .load | .kqry _ => true
  | .atomic _ _ _ _ ret => ret
  | _ => false

/-- A request writes memory. -/
def Req.writes (r : Req) : Bool :=
  match r.kind with
  | .store | .atomic .. => true
  | _ => false

/-- A request is a fence. -/
def Req.isFence (r : Req) : Bool :=
  match r.kind with
  | .fence .. => true
  | _ => false

/-- The rights a request needs (R330): an atomic or RED both. -/
def Req.needs (r : Req) : Bool × Bool :=
  match r.kind with
  | .store => (false, true)
  | .atomic .. => (true, true)
  | _ => (true, false)

/-! ## The region buffer (R203, R265, R300) -/

/-- Every held line released, in the order in which it was first written, and the region closed (R112). -/
def State.closeRegion (s : State) : State :=
  if s.me.regOpen then
    let t := s.me.held.foldl (fun t h => (t.addReq false .store [Piece.store h.addr h.bytes]).2) s
    t.onMe fun x => { x with regOpen := false, held := [], snap := none }
  else s

/-- The bytes the region buffer holds of `n` bytes from a virtual address on (R300). -/
def Strand.heldBytes (x : Strand) (va n : Nat) : List (Option Byte) :=
  (List.range n).map fun k =>
    (x.held.find? fun h => h.addr == (va + k) / 64 * 64).bind fun h => (h.bytes[(va + k) % 64]?).bind id

/-- Bytes merged into a line: the later ones prevail. -/
def mergeBytes (old new : List (Option Byte)) : List (Option Byte) := List.zipWith (fun o n => n <|> o) old new

/-- A piece as a whole line with its byte mask. -/
def lineMask (p : Piece) : List (Option Byte) :=
  (List.range 64).map fun k => if p.va % 64 ≤ k then (p.bytes[k - p.va % 64]?).bind id else none

/-- A store piece merges into a held line, or is held as a new one. -/
def holdPiece (l : List HeldLine) (p : Piece) : List HeldLine :=
  let a := p.va / 64 * 64
  if l.any fun h => h.addr == a then l.map fun h => if h.addr == a then { h with bytes := mergeBytes h.bytes (lineMask p) } else h
  else l ++ [⟨a, lineMask p⟩]

/-- A global store of the strand in issue: held while a region is open, unless it would need a 65th line, which first closes the region
(R203, R300). -/
def State.globalStore (s : State) (ps : List Piece) : State :=
  let l := ps.foldl holdPiece s.me.held
  if s.me.regOpen = true ∧ l.length ≤ 64 then s.onMe fun x => { x with held := l }
  else (s.closeRegion.addReq true .store ps).2

/-- A region opened by bundle `b` that issued as strand bundle `n` and has completed; the snapshot holds the state as the bundle after REGION
sees it (R112, R301). -/
def Strand.openRegion (x : Strand) (b n : Nat) : Strand :=
  let y := x.settle false (n + 1)
  { x with
    regOpen := true
    regStart := b
    held := []
    snap := some ⟨b + 1, n + 1, y.fmt, b, x.epc, x.tcause, x.tval, y.sreg, y.preg, x.q, x.fov, x.rings, x.loops⟩ }

/-- What the REGION (true) or ENDREG of a bundle does once the bundle has completed: the slot D of the bundle itself stands before it, and
REGION first closes an open region (R112). -/
def State.regionOp (s : State) (b n : Nat) : Option Bool → State
  | none => s
  | some false => s.closeRegion
  | some true => s.closeRegion.onMe fun x => x.openRegion b n

/-- REGION. -/
def execRegion (s : State) : Out := s.slot 0 fun x => { x with iss := { x.iss with regOp := some true } }

/-- ENDREG. -/
def execEndreg (s : State) : Out := s.slot 0 fun x => { x with iss := { x.iss with regOp := some false } }

/-- The strand in issue returns from its trap; where every slot of the bundle at EPC has performed, that bundle's REGION or ENDREG acts
(R112, R287). -/
def State.ret (s : State) : State :=
  let x := s.me
  let op := match x.replay with
    | some r => if r.idx = x.epc.toNat ∧ perfOf x.tcause = 0xF then r.regOp else none
    | none => none
  (s.setMe x.ret).regionOp x.epc.toNat x.sbn op

/-- ERET (R123). In a bundle another slot of which has trapped, the return follows the bundle's completion. -/
def execEret (s : State) : Out :=
  let t := (s.closeGathers s.cur (fun _ => false) fun _ => true).onMe fun x => x.performed 0
  .next (if t.me.iss.trapped.isSome then t.onMe fun x => { x with iss := { x.iss with eret := true } } else t.ret)

/-! ## Places of pieces (R257, R261) -/

/-- A piece lies in the fabric half. -/
def Piece.fabric (p : Piece) : Bool := p.va.testBit 47

/-- A piece as translation now gives it: its place and attribute (R257). -/
def State.pieceNow (s : State) (r : Req) (p : Piece) : Option (Phys × Attr) :=
  match p.pa with
  | some a => some (a, p.attr)
  | none =>
    match s.walk r.part p.va r.needs.1 r.needs.2 with
    | .ok t => some (t.phys p.va, t.attr)
    | .error _ => none

/-- The attribute of a piece's page, if it translates. -/
def State.attrNow (s : State) (r : Req) (p : Piece) : Option Attr := (s.pieceNow r p).map Prod.snd

/-! ## Fences (R212, R260, R263 to R266) -/

/-- A piece counts no more for a fence of a kind at a scope: it has bound or is performed, or is visible at the scope (R255), or the fence does
not count it (R260, R263). What retired into the side log counts whatever its page: an acquire waits until it has replayed, any other fence
until it is visible (R264). -/
def State.pieceFenced (s : State) (r : Req) (scope : Scope) (kind : FenceKind) (p : Piece) : Bool :=
  p.done || (p.fabric && scope != .fabric) ||
    (r.log.isNone && kind != .full && s.attrNow r p == some .uo) ||
    (r.log.isSome && kind == .acq && p.acc.isSome) ||
    (r.kind == .store && p.acc.isSome && scope != .package && scope != .fabric)

/-- An earlier request holds a fence back no more. -/
def State.reqFenced (s : State) (r : Req) (scope : Scope) (kind : FenceKind) : Bool :=
  r.isFence || (r.log.isNone && r.writes && kind == .acq && !r.returns) || r.pieces.all (s.pieceFenced r scope kind)

/-- The condition of a fence holds (R263). -/
def State.fenceHolds (s : State) (f : Req) : Bool :=
  match f.kind with
  | .fence scope kind => s.reqs.all fun r => r.strand != f.strand || r.id ≥ f.id || s.reqFenced r scope kind
  | _ => true

/-- A fence covers a later request, by whether that writes, posts or starts an engine (R212) and whether it lies on a UO page (R260). -/
def Req.covers (f : Req) (writes uo : Bool) : Bool :=
  match f.kind with
  | .fence _ .rel => writes && !uo
  | .fence _ .acq => !uo
  | .fence _ .full => true
  | _ => false

/-- Every fence of a strand below a number that covers a request, or for a post only those of kind .rel and .full, has its condition. -/
def State.fencesDone (s : State) (k id : Nat) (writes post uo : Bool) : Bool :=
  s.reqs.all fun f =>
    f.strand != k || f.id ≥ id || !f.covers writes uo || (post && (match f.kind with | .fence _ .acq => true | _ => false)) || s.fenceHolds f

/-! ## The order of departure (R204, R256 to R262, R275) -/

/-- What an SO access waits for has ended for an earlier request (R259): loads and atomics have bound, stores are performed, side-log entries
too, whatever their page. -/
def State.clearOfSO (s : State) (fabricToo : Bool) (r : Req) : Bool :=
  r.isFence || r.pieces.all fun p =>
    p.done || (r.log.isNone && (s.attrNow r p == some .uo || (!r.returns && p.fabric && !fabricToo)))

/-- The bytes of an atomic's word (R70). -/
def asBytes : As → Nat
  | .i32 | .n32 => 4
  | .i64 | .n64 => 8

/-- The global ranges that a command reads and writes but for mapped pages (R261). -/
def CmdKind.ranges : CmdKind → List (Nat × Nat)
  | .cpy src dst len => [(src, len), (dst, len)]
  | .rst a b => [(a, b.length)]
  | .ratm _ sz a _ _ ret => [(a, asBytes sz), (ret, if ret = 0 then 0 else asBytes sz)]
  | .xred _ src dst n => [(src, 4 * n), (dst, n / 32 * 33)]
  | .lease _ _ _ a | .lrecl _ a => [(a, 8)]
  | .krot _ _ _ r => [(r, 16)]
  | .seal sp src len ckpt _ r => [(src, if sp then 0 else len), (ckpt, 4096 + len), (r, 16)]
  | .unseal sp dst cap ckpt r => [(dst, if sp then 0 else cap), (ckpt, 4096 + cap), (r, 16)]
  | .scrub k a n => [(a, if k = 3 then n else 0)]
  | .meas a n out => [(a, n), (out, if out = 0 then 0 else 48)]
  | .slot _ _ a _ size => [(a, size)]
  | .wbr .. | .fill .. => []

/-- The global ranges of a command, with the mapped pages that it fills or writes back. -/
def State.cmdRanges (s : State) (c : Cmd) : List (Nat × Nat) :=
  let maps := (s.strand c.strand).maps
  match c.kind with
  | .wbr off size => maps.flatMap fun e => (e.dirty.filter fun p => decide (off ≤ e.off + 4096 * p) && decide (e.off + 4096 * p < off + size)).map fun p => (e.addr + 4096 * p, 4096)
  | .fill i p => (maps.filter fun e => e.index == i).map fun e => (e.addr + 4096 * p, 4096)
  | k => k.ranges

/-- A command has a part on an SO page, and is not all read and written (R261). -/
def State.cmdSO (s : State) (c : Cmd) : Bool :=
  !c.written && (s.cmdRanges c).any fun e =>
    (List.range ((e.1 + e.2 + 4095) / 4096 - e.1 / 4096)).any fun i =>
      e.2 != 0 && (match s.walk c.part ((e.1 / 4096 + i) * 4096) false false with
        | .ok t => t.attr == .so
        | .error _ => false)

/-- The rule of SO pages holds for a later access of strand `k` numbered `id`, which lies on an SO page, on a UO page or on neither (R259,
R260); the parts of the strand's commands on SO pages count with its other accesses (R261). -/
def State.soDone (s : State) (k id : Nat) (so uo fabricToo : Bool) : Bool :=
  (s.reqs.all fun r =>
    r.strand != k || r.id ≥ id ||
      ((!so || s.clearOfSO fabricToo r) && (uo || r.pieces.all fun p => p.done || s.attrNow r p != some .so))) &&
    (uo || s.cmds.all fun c => c.strand != k || c.id ≥ id || !s.cmdSO c)

/-- Two byte ranges meet. -/
def meets (a n b m : Nat) : Bool := decide (a < b + m) && decide (b < a + n)

/-- A request accesses byte `k` of its piece: all of them, but a store with a byte mask only those it names. -/
def Piece.uses (p : Piece) (r : Req) (k : Nat) : Bool := decide (k < p.len) && (r.kind != .store || ((p.bytes[k]?).bind id).isSome)

/-- Two pieces that begin at addresses `a` and `b` access a common byte. -/
def meetsAt (r : Req) (p : Piece) (a : Nat) (e : Req) (q : Piece) (b : Nat) : Bool :=
  meets a p.len b q.len && (List.range p.len).any fun k => p.uses r k && decide (b ≤ a + k) && q.uses e (a + k - b)

/-- Two pieces of one strand access a common byte, under one address or under two of the same storage (R204, R262). -/
def State.touch (s : State) (r : Req) (p : Piece) (e : Req) (q : Piece) : Bool :=
  meetsAt r p p.va e q q.va ||
    (match s.pieceNow r p, s.pieceNow e q with
     | some (a, _), some (b, _) => a.fab == b.fab && a.hi == b.hi && meetsAt r p a.addr e q b.addr
     | _, _ => false)

/-- Two pieces touch a common line. -/
def sameLine (p p' : Piece) : Bool := meets (p.va / 64) ((p.va + p.len - 1) / 64 + 1 - p.va / 64) (p'.va / 64) ((p'.va + p'.len - 1) / 64 + 1 - p'.va / 64)

/-- A side-log entry comes before a request: it is of an earlier request, or, of two entries, it retired earlier (R275, R292). -/
def Req.logsBefore (e r : Req) : Bool :=
  match e.log, r.log with
  | some a, some b => decide (a < b)
  | _, _ => decide (e.id < r.id)

/-- A piece lies on a line of a side-log entry that comes before its request (R275). -/
def State.pieceLogged (s : State) (r : Req) (p : Piece) : Bool :=
  s.reqs.any fun e => e.strand == r.strand && e.logsBefore r && e.stage == .sideLog && e.pieces.any (sameLine p)

/-- A request waits behind a side-log entry of its strand that touches a line of it (R275). -/
def State.behindLog (s : State) (r : Req) : Bool := r.pieces.any fun p => p.acc.isNone && s.pieceLogged r p

/-- An earlier piece `q` of request `e` lets a piece of `r` be accepted: it has been accepted, and a load that a store would else be visible to has
bound its value (R204, R255, R256). -/
def Piece.lets (e r : Req) (q : Piece) : Bool := q.acc.isSome && (q.done || r.kind != .store || e.kind != .load)

/-- Two ranges touch a common 64-byte line. -/
def lineMeets (a n b m : Nat) : Bool := n != 0 && m != 0 && decide (a / 64 ≤ (b + m - 1) / 64) && decide (b / 64 ≤ (a + n - 1) / 64)

/-- Piece `i` of a request keeps its place among the strand's accesses to its bytes, the earlier pieces of the request among them, and on an
SO page among the request's pieces on SO pages (R204, R256, R261). -/
def State.pieceInOrder (s : State) (r : Req) (i : Nat) (p : Piece) : Bool :=
  (r.pieces.zipIdx.all fun e =>
    decide (i ≤ e.2) ||
      ((e.1.acc.isSome || !s.touch r p r e.1) && (e.1.done || !(s.attrNow r p == some .so && s.attrNow r e.1 == some .so)))) &&
    s.reqs.all fun e => e.strand != r.strand || e.id ≥ r.id || e.pieces.all fun q => Piece.lets e r q || !s.touch r p e q

/-- The fabric range that a command writes, as virtual addresses (R278). -/
def CmdKind.fabricWrite : CmdKind → Option (Nat × Nat)
  | .cpy _ dst len => if dst.testBit 47 then some (dst, len) else none
  | .rst a b => some (a, b.length)
  | .ratm _ sz a _ _ _ => some (a, asBytes sz)
  | .xred _ _ dst n => if dst.testBit 47 then some (dst, n / 32 * 33) else none
  | .seal _ _ len ckpt _ _ => if ckpt.testBit 47 then some (ckpt, 4096 + len) else none
  | _ => none

/-- A range of virtual addresses cut at 4 KiB pages: start and length. -/
def spans : Nat → Nat → Nat → List (Nat × Nat)
  | 0, _, _ => []
  | f + 1, va, n => if n = 0 then [] else (va, min n (4096 - va % 4096)) :: spans f (va + min n (4096 - va % 4096)) (n - min n (4096 - va % 4096))

/-- A fabric piece of a request and a fabric range of its partition touch a common line, under one address or as they translate (R278). -/
def State.fabricMeets (s : State) (r : Req) (p : Piece) (a n : Nat) : Bool :=
  p.fabric && (lineMeets p.va p.len a n ||
    (match s.pieceNow r p with
     | some (b, _) => (spans (n / 4096 + 2) a n).any fun e => match s.walk r.part e.1 false false with
       | .ok t => (t.phys e.1).fab && (t.phys e.1).hi == b.hi && lineMeets b.addr p.len (t.phys e.1).addr e.2
       | .error _ => false
     | none => false))

/-- A load of the fabric half follows the strand's earlier commands that write its lines there: the target applies a strand's requests to a byte in
issue order (R278). -/
def State.behindCommand (s : State) (r : Req) (p : Piece) : Bool :=
  s.cmds.any fun c => c.strand == r.strand && decide (c.id < r.id) && !c.written &&
    (c.kind.fabricWrite.map fun e => s.fabricMeets r p e.1 e.2).getD false

/-- A write of a command to `n` bytes of the fabric half follows the strand's earlier loads of its lines that have not set out (R278). -/
def State.behindLoad (s : State) (c : Cmd) (a n : Nat) : Bool :=
  s.reqs.any fun r => r.strand == c.strand && decide (r.id < c.id) && r.pieces.any fun p => p.acc.isNone && s.fabricMeets r p a n

/-- Piece `i` of a request may depart: fences, SO pages, the side log and its own strand's earlier accesses let it (R258, R263, R275). -/
def State.admits (s : State) (r : Req) (i : Nat) (p : Piece) : Bool :=
  let so := s.attrNow r p == some .so
  let uo := s.attrNow r p == some .uo
  p.acc.isNone && s.fencesDone r.strand r.id r.writes false uo && s.soDone r.strand r.id so uo p.fabric && !s.pieceLogged r p &&
    s.pieceInOrder r i p && !s.behindCommand r p

/-- A request may depart: some piece of it may. -/
def State.mayDepart (s : State) (r : Req) : Bool := r.pieces.isEmpty || r.pieces.zipIdx.any fun e => s.admits r e.2 e.1

/-- A command of strand `k` numbered `id` may be accepted (R212, R259, R271). -/
def State.commandFree (s : State) (k id : Nat) : Bool := s.fencesDone k id true false false && s.soDone k id false false false

/-! ## Flag posts (R64, R120, R218) -/

/-- A header post or FLADD of the strand in issue: it reaches the flag file in the second cluster cycle, or in the second after the last
fence that holds it (R212). -/
def State.addPost (s : State) (flag count : Nat) : State :=
  let f := s.fresh
  let free := s.fencesDone s.cur f.1 true true false
  { f.2 with posts := f.2.posts ++
      [⟨f.1, s.me.part, s.me.gtag, s.cur, flag, count, if free then some (s.clk + 2) else none, none, none⟩] }

/-- sync.post (R64): CNT codes 1 to 8 counts. -/
def execSyncPost (f : BitVec 5) (c : BitVec 3) (s : State) : Out := .next (s.addPost f.toNat (syncCount c))

/-- FLADD: a count of 0 has no effect. -/
def execFladd (f : BitVec 5) (a : BitVec 6) (s : State) : Out :=
  let c := (s.me.s a).toNat % 2 ^ 32
  (if c = 0 then s else s.addPost f.toNat c).slot 0 id

/-- Header posts that a fence held start their two cycles once its condition holds (R212). -/
def State.freePosts (s : State) : State :=
  { s with posts := s.posts.map fun p =>
      if p.due.isNone ∧ p.cmd.isNone ∧ p.fd.isNone ∧ s.fencesDone p.strand p.id true true false = true then { p with due := some (s.clk + 2) } else p }

/-! ## Engine commands (R201, R217 to R222, R236) -/

/-- A command by number. -/
def State.cmd (s : State) (id : Nat) : Option Cmd := s.cmds.find? fun c => c.id == id

/-- A change of one command. -/
def State.onCmd (s : State) (id : Nat) (f : Cmd → Cmd) : State :=
  { s with cmds := s.cmds.map fun c => if c.id == id then f c else c }

/-- A command that has ended. -/
def State.dropCmd (s : State) (id : Nat) : State := { s with cmds := s.cmds.filter fun c => c.id != id }

/-- A command of the program, not a stream slot or page fill. -/
def CmdKind.counted : CmdKind → Bool
  | .slot .. | .fill .. => false
  | _ => true

/-- The engine commands a strand has outstanding, each bound stream counting as one (R201, R215). -/
def State.outstanding (s : State) (k : Nat) : Nat :=
  (s.cmds.filter fun c => c.strand == k && c.kind.counted).length + (s.strand k).streams.length

/-- The copy engine of a strand (R219): 16d + 2c + e. -/
def copyEngine (strand : Nat) : Nat := 2 * clusterOf strand + coreOf strand % 2

/-- The Snuffer port of a strand's core (R236). -/
def snufferPort (strand : Nat) : Nat := 64 + coreOf strand

/-- The engine that serves a command (R219, R236). -/
def CmdKind.engine (strand : Nat) : CmdKind → Nat
  | .scrub 3 _ _ => copyEngine strand
  | .scrub .. | .meas .. => snufferPort strand
  | _ => copyEngine strand

/-- A number divided upward. -/
def ceilDiv (a b : Nat) : Nat := (a + b - 1) / b

/-! ## Messages (R375) -/

/-- The data bytes a message carries (R375, R378). -/
def opBytes : RemoteOp → Nat
  | .write b => b.length
  | .xred _ _ b => b.length
  | .answer _ _ _ _ _ b => b.length
  | .mgmt (.agreement _ _ _ _ b g _) => b.length + g.length
  | _ => 0

/-- A message to a peer (R375), not yet routed: for a command, for a piece of a request, or for neither. -/
def State.sendMsg (s : State) (isCmd : Bool) (owner piece peer fia : Nat) (op : RemoteOp) : State :=
  let f := s.fresh
  let n := flitsOf (opBytes op)
  { f.2 with msgs := f.2.msgs ++
      [{ id := f.1, isCmd := isCmd, owner := owner, piece := piece, peer := peer, fia := fia, op := op, flits := n, left := n,
         route := none, acked := false, relayed := false, tried := 0, rank := 0, seq := 0, post := none }] }

/-- A management message to a peer, routed under R375. -/
def State.sendMgmt (s : State) (peer : Nat) (m : PeerMsg) : State := s.sendMsg false 0 0 peer 0 (.mgmt m)

/-- The first address of the fabric end of a command, and the rights that the command needs there, if it has one. -/
def CmdKind.fabricEnd : CmdKind → Option (Nat × Bool × Bool)
  | .cpy src dst _ => if dst.testBit 47 then some (dst, false, true) else if src.testBit 47 then some (src, true, false) else none
  | .rst a _ => some (a, false, true)
  | .ratm _ _ a _ _ _ => some (a, true, true)
  | .xred _ _ dst _ => if dst.testBit 47 then some (dst, true, true) else none
  | .seal _ _ _ ckpt _ _ => if ckpt.testBit 47 then some (ckpt, false, true) else none
  | .unseal _ _ _ ckpt _ => if ckpt.testBit 47 then some (ckpt, true, false) else none
  | _ => none

/-- The local term of a promise: F + U × u (R220, R236, R377). -/
def CmdKind.term : CmdKind → Nat
  | .cpy _ _ len => 200 + ceilDiv len 256
  | .rst _ b => 200 + ceilDiv b.length 256
  | .ratm _ sz .. => 200 + ceilDiv (asBytes sz) 256
  | .xred _ _ _ n => 200 + ceilDiv (n / 32 * 33) 256
  | .wbr _ size => 200 + ceilDiv size 256
  | .lease .. => 400 + 320000
  | .lrecl .. => 400 + 250000
  | .krot _ n .. => 400 + 600 * n
  | .seal _ _ len .. => 400 + 400 * (len / 4096)
  | .unseal _ _ cap .. => 400 + 800 * (cap / 4096)
  | .scrub 0 _ len => 16 + ceilDiv len 2048
  | .scrub 1 _ len => 16 + len
  | .scrub 2 _ len => 16 + ceilDiv len 64
  | .scrub _ _ len => 200 + ceilDiv len 256
  | .meas _ len _ => 200 + ceilDiv len 64
  | .slot .. | .fill .. => 0

/-- The sizes of the messages that a command sends over the fabric, and of what completes them: an RST sends writes of 256 bytes (R378), and what is
read comes back as data. -/
def CmdKind.messages : CmdKind → List Nat × List Nat
  | .cpy src dst len =>
    if dst.testBit 47 then (messageSizes 4096 dst dst len, [0]) else let l := messageSizes 4096 src dst len; (l.map fun _ => 0, l)
  | .rst a b => (messageSizes 256 a a b.length, [0])
  | .ratm _ z .. => ([0], [asBytes z])
  | .xred _ _ dst n => (if n / 32 = 0 then [0] else blockSizes (n / 32) dst (n / 32), [0])
  | .seal _ _ len _ _ _ => (List.replicate (len / 4096 + 1) 4096, [0])
  | .unseal _ _ cap _ _ => (List.replicate (cap / 4096 + 1) 0, List.replicate (cap / 4096 + 1) 4096)
  | _ => ([0], [0])

/-- A key operation keeps its own term beside the rotor term; a transfer has 400 in its place (R377). -/
def CmdKind.sealing : CmdKind → Bool
  | .seal .. | .unseal .. => true
  | _ => false

/-- The term of a command's promise: with a fabric end whose first page translates, the rotor term of R377. -/
def State.promiseTerm (s : State) (part : Nat) (k : CmdKind) : Nat :=
  match k.fabricEnd with
  | none => k.term
  | some (a, rd, wr) =>
    match s.walk part a rd wr with
    | .error _ => k.term
    | .ok t => (if k.sealing then k.term else 400) + s.rotorTerm t.pa.hi k.messages.1 k.messages.2

/-- The latest promise an engine still holds, in cycles since device reset (R220). -/
def State.lastPromise (s : State) (e : Nat) : Nat :=
  s.cmds.foldl (fun m c => if c.engine = e ∧ c.accepted.isSome ∧ c.kind.counted then max m (c.promise - (s.core c.core).skew) else m) 0

/-- A landing's writes take a value once its request or command has its data (R200, R206). -/
def fillLanding (id : Nat) (f : Target → Target) (l : List Write) : List Write :=
  l.map fun w => if w.land = some id then { w with ready := true, faulted := false, tgt := f w.tgt } else w

/-- The requests of a cluster on their way to a home slice, not yet answered. -/
def State.sentTo (s : State) (c slice : Nat) : Bool :=
  s.reqs.any fun e => clusterOf e.strand == c && e.pieces.any fun q => q.via && !q.done &&
    (q.pa.map fun a => !a.fab && sliceOf (pageOf a.pa) == slice).getD false

/-- The path that the next message of a cluster to a home slice takes, if it may be sent now (R368). -/
def State.wayTo (s : State) (c slice : Nat) : Option Nat := s.nextPath c slice (s.sentTo c slice)

/-- An access of a cluster's engine sets out for a home slice, on another path where it may and must change (R368). -/
def State.travel (s : State) (c slice : Nat) : State :=
  if s.pathUp (s.pathOf c slice) c slice then s
  else match s.wayTo c slice with
    | some k => s.takePath c slice k
    | none => s

/-- A strand's landing takes its data. -/
def State.fillLand (s : State) (k id : Nat) (f : Target → Target) : State :=
  let x := s.strand k
  s.setStrand k { x with pend := fillLanding id f x.pend, pendH := fillLanding id f x.pendH }

/-- The scalar value of a landing. -/
def landScalar (v : W64) : Target → Target
  | .s r _ => .s r v
  | t => t

/-- The group of a flag descriptor is posted to, or the flag word (R217). -/
def flagKind (fd1 : W64) : Nat := bits fd1.toNat 1 0

/-- A dropped post is reported to the issuing partition (R218, R361). -/
def State.dropPost (s : State) (c : Cmd) (fd0 fd1 : W64) : State :=
  s.event c.part 3 noStrand (s.grp c.gtag).wid.toNat fd0.toNat fd1.toNat

/-- All that a command writes is written (R218, R220, R237): with a flag its post sets out, unless the target has made it (R382), without one the
command is complete. -/
def State.commandDone (s : State) (id : Nat) : State :=
  match s.cmd id with
  | none => s
  | some c =>
    if flagKind c.fd1 = 0 then s.dropCmd id
    else match c.net.carried with
    | some dropped => (if dropped then s.dropPost c c.fd0 c.fd1 else s).dropCmd id
    | none =>
      let f := s.fresh
      let t := f.2.onCmd id fun c => { c with written := true }
      { t with posts := t.posts ++
          [⟨f.1, c.part, bits c.fd0.toNat 37 14, bits c.fd0.toNat 8 0, bits c.fd0.toNat 13 9, bits c.fd1.toNat 47 32, none,
            some (c.fd0, c.fd1), some id⟩] }

/-- An engine accepts a command (R200, R202, R220): its promise is fixed, counted from its issue cycle unless the memory queue delayed
it, and lands in sd; a copy of no bytes posts its flag at once (R219). A SEAL takes the trust domain that TDXID names now (R418). -/
def State.acceptNow (s : State) (c : Cmd) : State :=
  let t := c.issued.getD s.clk
  let p := max t (s.lastPromise c.engine) + s.promiseTerm c.part c.kind + (s.core c.core).skew
  let f := s.fresh
  let td := ((s.part c.part).map fun q => q.tdx.tdid).getD 0
  let u := (f.2.onCmd c.id fun c => { c with accepted := some s.clk, order := f.1, promise := p, tdid := td }).fillLand c.strand c.id
    (landScalar (BitVec.ofNat 64 p))
  match c.kind with
  | .cpy _ _ 0 => u.commandDone c.id
  | _ => u

/-- The command of a number is accepted. -/
def State.acceptCmd (s : State) (id : Nat) : State :=
  match s.cmd id with
  | none => s
  | some c => s.acceptNow c

/-- An engine command of the strand in issue: the open region closes first (R203), then the engine accepts it at once unless a fence, an
SO access or an earlier command in the memory queue delays it. Its promise lands in sd at n + 4 (R200); without a destination it stays
in the engine (R222). -/
def State.issueCmd (s : State) (d : BitVec 6) (k : CmdKind) (fd0 fd1 : W64) : State :=
  let t := s.closeRegion
  let f := t.fresh
  let x := t.me
  let free := t.commandFree t.cur f.1 && !(t.cmds.any fun c => c.strand == t.cur && c.kind.counted && c.accepted.isNone)
  let c : Cmd :=
    { id := f.1, strand := t.cur, gtag := x.gtag, sidx := x.sidx, part := x.part, core := coreOf t.cur, kind := k, fd0 := fd0, fd1 := fd1,
      engine := k.engine t.cur, issued := if free then some t.clk else none, accepted := none, order := 0, promise := 0, raised := false,
      stop := false, progress := 0, fault := none, data := [], written := false, phase := 0, nonce := 0, measure := none, tdid := 0, hnd := x.iss.handler, net := .none }
  let u := { f.2 with cmds := f.2.cmds ++ [c] }.onMe fun x =>
    { (if d = 0 then x else x.land false 4 f.1 (.s d.toNat 0)) with iss := { x.iss with await := f.1 :: x.iss.await } }
  let v := if free then u.acceptNow c else u
  v.onMe fun x => if free then { x with iss := { x.iss with await := x.iss.await.filter fun i => i != f.1 } } else x

end Sys2Proof.Machine
end

