-- ==== Sys2Proof/Machine/MemSlot.lean ====
section
/-! DEFINITION. Slot D at issue (R199 to R203, R205 to R252): the guard, the checks in the order of R232, and what each instruction hands to
the memory queue, to its engine or to the core. The holds of R201 are tested where a bundle is presented. -/

namespace Sys2Proof.Machine

/-! ## The guard and the checks -/

/-- A check at issue: whether it fails, and the trap it then takes. -/
abbrev Check := Bool × Cause × Nat

/-- Slot D (R66, R199, R232): guarded off it performs nothing; else the first check that fails is its trap; else it performs. -/
def State.slotD (s : State) (gd : BitVec 4) (cs : List Check) (run : State → State) : Out :=
  if (s.me.p gd.toNat).getLsbD 0 = false then s.slot 3 id
  else match cs.find? Prod.fst with
    | some (_, c, v) => s.trapSlot 3 c (BitVec.ofNat 64 v)
    | none => .next ((run s).onMe fun x => x.performed 3)

/-- An address outside the local half (R199). -/
def notLocal (a : Nat) : Check := (decide (2 ^ 47 ≤ a), .bounds, a)

/-- An address outside the fabric half. -/
def notFabric (a : Nat) : Check := (decide (a < 2 ^ 47) || decide (2 ^ 48 ≤ a), .bounds, a)

/-- An address in neither half. -/
def notGlobal (a : Nat) : Check := (decide (2 ^ 48 ≤ a), .bounds, a)

/-- An address not aligned to `n` bytes. -/
def misaligned (a n : Nat) : Check := (a % n != 0, .bounds, a)

/-- A right that the group lacks (R235). -/
def lacksRight (s : State) (bit : Nat) : Check := (!s.myGrp.rights.getLsbD bit, .key, 1)

/-- A KEY condition. -/
def keyBad (bad : Bool) (tval : Nat) : Check := (bad, .key, tval)

/-- An ENGINE condition. -/
def engineBad (bad : Bool) (tval : Nat) : Check := (bad, .engine, tval)

/-- The rules of a flag descriptor (R217). -/
def fdOk (fd0 fd1 : W64) : Bool :=
  let a := fd0.toNat
  let b := fd1.toNat
  match bits b 1 0 with
  | 0 => a == 0 && b == 0
  | 3 => false
  | k =>
    let sc := bits b 4 2
    bits b 31 5 == 0 && bits b 63 48 == 0 && decide (2 ≤ sc) && decide (sc ≤ 4) && bits b 47 32 != 0 &&
      (if k = 1 then bits a 63 38 == 0 else bits a 63 48 == 0 && bits a 1 0 == 0)

/-- A bad flag descriptor. -/
def fdBad (fd0 fd1 : W64) : Check := engineBad (!fdOk fd0 fd1) 1

/-! ## Tile and scalar accesses (R205 to R208) -/

/-- An address with its low bits cleared. -/
def lineBase (a : Nat) : Nat := a - a % 64

/-- The lines of a contiguous access of `n` bytes, modulo 2^64: address, length, place in the group. -/
def runLines (a n : Nat) : List (Nat × Nat × Nat) :=
  (List.range ((n + 63) / 64)).map fun j => ((a + 64 * j) % 2 ^ 64, min 64 (n - 64 * j), 64 * j)

/-- The lines of a strided access of `g` registers. -/
def stridedLines (a g : Nat) (d : W64) : List (Nat × Nat × Nat) :=
  let st := (d &&& ~~~(63#64)).toNat
  (List.range (8 * g)).map fun j => ((a + j * st) % 2 ^ 64, 64, 64 * j)

/-- The pieces of a scalar access of `n` bytes: one where they lie in one unit of their size, else one for each byte (R208). -/
def scalarPieces (a n : Nat) : List (Nat × Nat × Nat) :=
  if a % n = 0 then [(a, n, 0)] else (List.range n).map fun k => ((a + k) % 2 ^ 64, 1, k)

/-- A direct load from address `a` on (R199, R205, R206): a landing at n + ARR, and a request for the pieces, with the bytes that the region
buffer holds. -/
def State.load (s : State) (gd : BitVec 4) (half : Nat → Check) (a : Nat) (arr : BitVec 10) (t : Target) (ps : List (Nat × Nat × Nat)) : Out :=
  s.slotD gd (half a :: ps.map fun p => half p.1) fun s =>
    let r := s.addReq true .load (ps.map fun p => Piece.read p.1 p.2.1 p.2.2 (s.me.heldBytes p.1 p.2.1))
    r.2.onMe fun x => x.land true arr.toNat r.1 t

/-- A landing into a group. -/
def groupTarget (v : BitVec 7) (g : Grp) : Target := .group v.toNat (List.replicate g.size 0)

/-- A landing into a scalar register; s0 takes nothing. -/
def scalarTarget (d : BitVec 6) : Target := if d = 0 then .nothing else .s d.toNat 0

/-- TLD. -/
def execTld (gd : BitVec 4) (g : Grp) (v : BitVec 7) (a : BitVec 6) (arr : BitVec 10) (s : State) : Out :=
  s.load gd notLocal (lineBase (s.me.s a).toNat) arr (groupTarget v g) (runLines (lineBase (s.me.s a).toNat) (512 * g.size))

/-- TLDS. -/
def execTlds (gd : BitVec 4) (g : Grp) (v : BitVec 7) (a : BitVec 6) (arr : BitVec 10) (s : State) : Out :=
  s.load gd notLocal (lineBase (s.me.s a).toNat) arr (groupTarget v g) (stridedLines (lineBase (s.me.s a).toNat) g.size (s.me.runAt a 1))

/-- TLDM. -/
def execTldm (gd : BitVec 4) (g : Grp) (v : BitVec 7) (a : BitVec 6) (arr : BitVec 10) (s : State) : Out :=
  s.load gd notLocal (lineBase (s.me.s a).toNat) arr (groupTarget v g) (runLines (lineBase (s.me.s a).toNat) (min (s.me.runN a 1) (512 * g.size)))

/-- SLDG. -/
def execSldg (gd : BitVec 4) (z : Sz) (d a : BitVec 6) (arr : BitVec 10) (s : State) : Out :=
  s.load gd notLocal (s.me.s a).toNat arr (scalarTarget d) (scalarPieces (s.me.s a).toNat z.bytes)

/-- Pieces that store the bytes of a number. -/
def storePieces (val : Nat) (ps : List (Nat × Nat × Nat)) : List Piece :=
  ps.map fun p => Piece.store p.1 ((natLe p.2.1 (val >>> (8 * p.2.2))).map some)

/-- A direct store. -/
def State.directStore (s : State) (gd : BitVec 4) (val : Nat) (ps : List (Nat × Nat × Nat)) : Out :=
  s.slotD gd (ps.map fun p => notLocal p.1) fun s => s.globalStore (storePieces val ps)

/-- TST. -/
def execTst (gd : BitVec 4) (g : Grp) (v : BitVec 7) (a : BitVec 6) (s : State) : Out :=
  s.directStore gd (s.me.group v.toNat g.size) (runLines (lineBase (s.me.s a).toNat) (512 * g.size))

/-- TSTS. -/
def execTsts (gd : BitVec 4) (g : Grp) (v : BitVec 7) (a : BitVec 6) (s : State) : Out :=
  s.directStore gd (s.me.group v.toNat g.size) (stridedLines (lineBase (s.me.s a).toNat) g.size (s.me.runAt a 1))

/-- SSTG. -/
def execSstg (gd : BitVec 4) (z : Sz) (d a : BitVec 6) (s : State) : Out :=
  s.directStore gd (s.me.s d).toNat (scalarPieces (s.me.s a).toNat z.bytes)

/-- PREF: no architected effect (R226). -/
def execPref (_gd : BitVec 4) (_a : BitVec 6) (s : State) : Out := s.slot 3 id

/-! ## Atomics and fences (R209, R212) -/

/-- The low bytes of an operand as its size takes it. -/
def asOperand (z : As) (v : W64) : W64 := if asBytes z = 4 then v &&& 0xFFFFFFFF#64 else v

/-- An atomic (R209): with sd ≠ 0 the old value lands at n + 16 + 32 × AQ, else nothing returns. -/
def State.atomic (s : State) (gd : BitVec 4) (op : AtomOp) (z : As) (d a b : BitVec 6) (aq : BitVec 5) : Out :=
  let q := (s.me.s a).toNat
  let ret : Bool := d != 0
  s.slotD gd [notLocal q, misaligned q (asBytes z)] fun s =>
    let k := ReqKind.atomic op z (asOperand z (s.me.s b)) (asOperand z (s.me.runAt b 1)) ret
    let r := s.closeRegion.addReq true k [Piece.read q (asBytes z) 0 []]
    if ret then r.2.onMe fun x => x.land true (16 + 32 * aq.toNat) r.1 (scalarTarget d) else r.2

/-- ATADD. -/
def execAtadd (gd : BitVec 4) (z : As) (d a b : BitVec 6) (aq : BitVec 5) (s : State) : Out := s.atomic gd .add z d a b aq
/-- ATFADD. -/
def execAtfadd (gd : BitVec 4) (z : As) (d a b : BitVec 6) (aq : BitVec 5) (s : State) : Out := s.atomic gd .fadd z d a b aq
/-- ATMIN. -/
def execAtmin (gd : BitVec 4) (z : As) (d a b : BitVec 6) (aq : BitVec 5) (s : State) : Out := s.atomic gd .min z d a b aq
/-- ATMAX. -/
def execAtmax (gd : BitVec 4) (z : As) (d a b : BitVec 6) (aq : BitVec 5) (s : State) : Out := s.atomic gd .max z d a b aq
/-- ATAND. -/
def execAtand (gd : BitVec 4) (z : As) (d a b : BitVec 6) (aq : BitVec 5) (s : State) : Out := s.atomic gd .and z d a b aq
/-- ATOR. -/
def execAtor (gd : BitVec 4) (z : As) (d a b : BitVec 6) (aq : BitVec 5) (s : State) : Out := s.atomic gd .or z d a b aq
/-- ATXOR. -/
def execAtxor (gd : BitVec 4) (z : As) (d a b : BitVec 6) (aq : BitVec 5) (s : State) : Out := s.atomic gd .xor z d a b aq
/-- ATSWP. -/
def execAtswp (gd : BitVec 4) (z : As) (d a b : BitVec 6) (aq : BitVec 5) (s : State) : Out := s.atomic gd .swp z d a b aq
/-- ATCAS. -/
def execAtcas (gd : BitVec 4) (z : As) (d a b : BitVec 6) (aq : BitVec 5) (s : State) : Out := s.atomic gd .cas z d a b aq

/-- The atomic operation of a RED. -/
def RedOp.atom : RedOp → AtomOp
  | .add => .add
  | .fadd => .fadd
  | .min => .min
  | .max => .max
  | .and => .and
  | .or => .or
  | .xor => .xor

/-- RED. -/
def execRed (gd : BitVec 4) (op : RedOp) (z : As) (a b : BitVec 6) (s : State) : Out := s.atomic gd (RedOp.atom op) z 0 a b 0

/-- FENCE. -/
def execFence (gd : BitVec 4) (scope : Scope) (kind : FenceKind) (s : State) : Out :=
  s.slotD gd [] fun s => (s.addReq false (.fence scope kind) []).2

/-- VJOIN: the bundle was held until every earlier SPAD access had completed; the gathers in flight see no later store, and accesses in either
view now see the earlier ones (R192, R213). It stands before slot B of its own bundle. -/
def execVjoin (gd : BitVec 4) (s : State) : Out :=
  s.slotD gd [] fun s => (s.closeGathers s.cur (fun _ => true) fun _ => true).onMe fun x => { x with spadLog := [] }

/-! ## Streams (R214, R216) -/

/-- The binding of a stream is accepted (R214). -/
def streamOk (r : Ring) (counts : List Nat) : Bool := r.en && r.bind == 0 && r.infl == 0 && counts.all fun c => decide (c ≤ 65535)

/-- The total of a stream. -/
def streamTotal (counts : List Nat) : Nat := counts.foldl (· * ·) 1

/-- Binds a stream to a ring (R214); with a total of 0 the binding ends at once. -/
def Strand.bindStream (x : Strand) (h : Nat) (drain : Bool) (base : Nat) (counts : List Nat) (strides : List Int) (after now : Nat) : Strand :=
  if streamTotal counts = 0 then x
  else
    { x.setRing h { x.ring h with bind := if drain then 2 else 1 } with
      streams := x.streams ++ [⟨h, drain, base, counts, strides, 0, 0, false, after, now⟩] }

/-- STRM. -/
def execStrm (gd : BitVec 4) (d a b : BitVec 6) (h : BitVec 4) (drain : Bool) (s : State) : Out :=
  let x := s.me
  let base := x.runN a 0
  let counts := (List.range 4).map fun k => x.runN a (k + 1)
  let strides := (List.range 4).map fun k => (x.runAt b k).toInt
  s.slotD gd [notLocal base, (!streamOk (x.ring h.toNat) counts, .ring, h.toNat)] fun s =>
    let t := s.closeRegion
    t.onMe fun x => (x.bindStream h.toNat drain base counts strides t.nextId t.clk).pushS 4 d (BitVec.ofNat 64 (streamTotal counts))

/-- STRMX: the bundle was held until the slots in INFL completed; the stream is unbound, and sd receives the slots it completed. BIND is tested
at issue: a stream whose last slot completed during the hold is unbound by then, and sd receives 0 (DEDUCED, log entry 85). -/
def execStrmx (gd : BitVec 4) (d : BitVec 6) (h : BitVec 4) (s : State) : Out :=
  let r := s.me.ring h.toNat
  let n := ((s.me.streams.find? fun t => t.ring == h.toNat).map Stream.done).getD 0
  s.slotD gd [(!r.en, .ring, h.toNat)] fun s => s.onMe fun x =>
    ({ x.setRing h.toNat { r with bind := 0 } with streams := x.streams.filter fun t => t.ring != h.toNat }).pushS 4 d (BitVec.ofNat 64 n)

/-! ## Copies and remote operations (R219 to R225, R230, R231) -/

/-- CPY. -/
def execCpy (gd : BitVec 4) (d a b : BitVec 6) (s : State) : Out :=
  let x := s.me
  let src := x.runN a 0
  let dst := x.runN a 1
  let len := x.runN a 2
  let f0 := x.runAt b 0
  let f1 := x.runAt b 1
  s.slotD gd
    [notGlobal src, notGlobal dst, fdBad f0 f1, engineBad (src.testBit 47 && dst.testBit 47) 3, engineBad (decide (2 ^ 32 < len)) 5]
    fun s => s.issueCmd d (.cpy src dst len) f0 f1

/-- RST. -/
def execRst (gd : BitVec 4) (g : Grp) (v : BitVec 7) (a : BitVec 6) (s : State) : Out :=
  let x := s.me
  let q := lineBase (x.runN a 0)
  let f0 := x.runAt a 1
  let f1 := x.runAt a 2
  s.slotD gd (((runLines q (512 * g.size)).map fun p => notFabric p.1) ++ [fdBad f0 f1, engineBad (flagKind f1 == 0) 2]) fun s =>
    s.issueCmd 0 (.rst q (natLe (512 * g.size) (s.me.group v.toNat g.size))) f0 f1

/-- RLD. -/
def execRld (gd : BitVec 4) (g : Grp) (v : BitVec 7) (a : BitVec 6) (arr : BitVec 10) (s : State) : Out :=
  s.load gd notFabric (lineBase (s.me.s a).toNat) arr (groupTarget v g) (runLines (lineBase (s.me.s a).toNat) (512 * g.size))

/-- RATM. -/
def execRatm (gd : BitVec 4) (op : AtomOp) (z : As) (d a b : BitVec 6) (s : State) : Out :=
  let x := s.me
  let q := x.runN a 0
  let back := x.runN a 3
  let f0 := x.runAt b 0
  let f1 := x.runAt b 1
  s.slotD gd [notFabric q, misaligned q (asBytes z), (back != 0 && (notLocal back).1, .bounds, back), fdBad f0 f1] fun s =>
    s.issueCmd d (.ratm op z q (asOperand z (x.runAt a 1)) (asOperand z (x.runAt a 2)) back) f0 f1

/-- XRED. -/
def execXred (gd : BitVec 4) (e5m2 : Bool) (d a b : BitVec 6) (s : State) : Out :=
  let x := s.me
  let src := x.runN a 0
  let dst := x.runN a 1
  let n := x.runN a 2
  let f0 := x.runAt b 0
  let f1 := x.runAt b 1
  s.slotD gd
    [notLocal src, misaligned src 4, notGlobal dst, fdBad f0 f1, engineBad (n % 32 != 0 || decide (n < 32) || decide (2 ^ 24 < n)) 4]
    fun s => s.issueCmd d (.xred e5m2 src dst n) f0 f1

/-- LEASE. -/
def execLease (gd : BitVec 4) (d a b : BitVec 6) (s : State) : Out :=
  let x := s.me
  let size := x.runN a 1
  let win := x.runN a 2
  let st := x.runN a 3
  let f0 := x.runAt b 0
  let f1 := x.runAt b 1
  s.slotD gd
    [notFabric win, notLocal st, fdBad f0 f1, engineBad (size == 0 || size % 2 ^ 21 != 0 || win % 2 ^ 21 != 0 || st % 8 != 0) 8]
    fun s => s.issueCmd d (.lease (x.runN a 0) size win st) f0 f1

/-- LRECL. -/
def execLrecl (gd : BitVec 4) (d a b : BitVec 6) (s : State) : Out :=
  let x := s.me
  let st := x.runN a 1
  let f0 := x.runAt b 0
  let f1 := x.runAt b 1
  s.slotD gd [notLocal st, fdBad f0 f1] fun s => s.issueCmd d (.lrecl (x.runN a 0) st) f0 f1

/-! ## Mapped regions (R227 to R229) -/

/-- Two SPAD ranges meet. -/
def rangesMeet (a n b m : Nat) : Bool := meets a n b m

/-- The lowest map index in no use. -/
def freeMap (l : List MapEnt) : Option Nat := (List.range 4).find? fun i => !(l.any fun e => e.index == i)

/-- The conditions of R227 for a map of a range. -/
def maprOk (x : Strand) (off size addr : Nat) : Bool :=
  off % 65536 == 0 && size % 65536 == 0 && decide (off + size ≤ x.spadSize) && addr % 65536 == 0 &&
    !(x.maps.any fun e => rangesMeet off size e.off e.size) &&
    !(x.rings.any fun r => r.2.en && rangesMeet off size r.2.base (64 * r.2.slsz * r.2.nslot)) && (freeMap x.maps).isSome

/-- The fills in progress of some pages of a strand's maps end: what they have read is for nothing (R228, R229, log entry 100). -/
def State.dropFills (s : State) (x : Strand) (f : Nat → Nat → Bool) : State :=
  { s with cmds := s.cmds.filter fun c => !(c.gtag == x.gtag && c.sidx == x.sidx && (match c.kind with
    | .fill i p => f i p
    | _ => false)) }

/-- A page of a map lies in a range. -/
def MapEnt.inRange (e : MapEnt) (off size p : Nat) : Bool := rangesMeet (e.off + 4096 * p) 4096 off size

/-- MAPR: maps a range; a size of 0 releases the map whose offset is given, and its fills in progress end. -/
def execMapr (gd : BitVec 4) (d a : BitVec 6) (s : State) : Out :=
  let x := s.me
  let off := x.runN a 0
  let size := x.runN a 1
  let addr := x.runN a 2
  if size = 0 then
    match x.maps.find? fun e => e.off == off with
    | some e => s.slotD gd [] fun s => (s.closeRegion.dropFills x fun i _ => i == e.index).onMe fun x =>
        ({ x with maps := x.maps.filter fun m => m.index != e.index }).pushS 4 d (BitVec.ofNat 64 e.index)
    | none => s.slotD gd [engineBad true 6] id
  else
    s.slotD gd [notLocal addr, engineBad (!maprOk x off size addr) 6] fun s =>
      let t := s.closeRegion
      let i := (freeMap x.maps).getD 0
      t.onMe fun x => ({ x with maps := x.maps ++ [MapEnt.mk i off size addr [] [] t.nextId []] }).pushS 4 d (BitVec.ofNat 64 i)

/-- The map that holds a range of whole pages (R229). -/
def mapOf (x : Strand) (off size : Nat) : Option MapEnt :=
  if off % 4096 = 0 ∧ size % 4096 = 0 then x.maps.find? fun e => decide (e.off ≤ off) && decide (off + size ≤ e.off + e.size) else none

/-- WBR. -/
def execWbr (gd : BitVec 4) (d a : BitVec 6) (s : State) : Out :=
  let x := s.me
  let off := x.runN a 0
  let size := x.runN a 1
  s.slotD gd [engineBad (mapOf x off size).isNone 7] fun s => s.issueCmd d (.wbr off size) 0 0

/-- Pages of a map become unfilled and clean. -/
def MapEnt.forget (e : MapEnt) (off size : Nat) : MapEnt :=
  let out := fun p => !e.inRange off size p
  { e with filled := e.filled.filter out, dirty := e.dirty.filter out }

/-- The pages of a map that lie in a range are filled again only after the fences below `n` (R212). -/
def MapEnt.refill (e : MapEnt) (off size n : Nat) : MapEnt :=
  { e with again := (List.range (e.size / 4096)).foldl (fun t p => if e.inRange off size p then Tbl.insert t p n else t) e.again }

/-- Fills in progress of pages in a range end. -/
def State.dropRange (s : State) (x : Strand) (off size : Nat) : State :=
  s.dropFills x fun i p => x.maps.any fun e => e.index == i && e.inRange off size p

/-- INVR: the range becomes unfilled without write-back, also where a fill is in progress. -/
def execInvr (gd : BitVec 4) (a : BitVec 6) (s : State) : Out :=
  let off := s.me.runN a 0
  let size := s.me.runN a 1
  s.slotD gd [engineBad (mapOf s.me off size).isNone 7] fun s =>
    let t := s.closeRegion.dropRange s.me off size
    t.onMe fun x => { x with maps := x.maps.map fun e => (e.forget off size).refill off size t.nextId }

/-! ## Keys, checkpoints, scrubs and measurements (R241 to R252) -/

/-- KROT. -/
def execKrot (gd : BitVec 4) (d a b : BitVec 6) (s : State) : Out :=
  let x := s.me
  let start := x.runN a 0
  let n := x.runN a 1
  let tgt := x.runN a 2
  let rec' := x.runN a 3
  let f0 := x.runAt b 0
  let f1 := x.runAt b 1
  s.slotD gd
    [lacksRight s 0, notLocal start, notLocal rec',
      keyBad (n == 0 || decide (65536 < n) || decide (65536 ≤ tgt) || start % 4096 != 0 || rec' % 16 != 0) 2, fdBad f0 f1]
    fun s => s.issueCmd d (.krot start n tgt rec') f0 f1

/-- KQRY.group: effective rights and extensions (R244). -/
def groupReport (g : Group) : W64 := BitVec.ofNat 64 (g.rights.toNat + place g.nmeas 63 32)

/-- KQRY. -/
def execKqry (gd : BitVec 4) (sel : KqSel) (d a : BitVec 6) (s : State) : Out :=
  let q := (s.me.s a).toNat
  match sel with
  | .group => s.slotD gd [] fun s => s.onMe fun x => x.pushS 4 d (groupReport s.myGrp)
  | k => s.slotD gd [notLocal q] fun s =>
      let r := s.addReq true (.kqry k) [Piece.read q 1 0 []]
      r.2.onMe fun x => x.land false 4 r.1 (scalarTarget d)

/-- The operand limits that SEAL and UNSEAL share (R245): source or destination kind, place, body length or capacity, checkpoint, record. -/
def sealBad (x : Strand) (kind at' len ckpt rec' : Nat) : Bool :=
  decide (1 < kind) || decide (len < 4096) || decide (2 ^ 30 < len) || len % 4096 != 0 || at' % 4096 != 0 || ckpt % 4096 != 0 ||
    rec' % 16 != 0 || (kind == 1 && decide (x.spadSize < at' + len))

/-- SEAL. -/
def execSeal (gd : BitVec 4) (d a b : BitVec 6) (s : State) : Out :=
  let x := s.me
  let kind := x.runN a 0
  let src := x.runN a 1
  let len := x.runN a 2
  let ckpt := x.runN a 3
  let rec' := x.runN a 5
  let f0 := x.runAt b 0
  let f1 := x.runAt b 1
  s.slotD gd
    [lacksRight s 1, (kind == 0 && (notLocal src).1, .bounds, src), notGlobal ckpt, notLocal rec',
      keyBad (sealBad x kind src len ckpt rec') 2, fdBad f0 f1]
    fun s => s.issueCmd d (.seal (kind == 1) src len ckpt (x.runAt a 4) rec') f0 f1

/-- UNSEAL. -/
def execUnseal (gd : BitVec 4) (d a b : BitVec 6) (s : State) : Out :=
  let x := s.me
  let kind := x.runN a 0
  let dst := x.runN a 1
  let cap := x.runN a 2
  let ckpt := x.runN a 3
  let rec' := x.runN a 4
  let f0 := x.runAt b 0
  let f1 := x.runAt b 1
  s.slotD gd
    [lacksRight s 2, (kind == 0 && (notLocal dst).1, .bounds, dst), notGlobal ckpt, notLocal rec',
      keyBad (sealBad x kind dst cap ckpt rec') 2, fdBad f0 f1]
    fun s => s.issueCmd d (.unseal (kind == 1) dst cap ckpt rec') f0 f1

/-- The limits of SCRUB (R249). -/
def scrubBad (x : Strand) (kind start len : Nat) : Bool :=
  len == 0 ||
    match kind with
    | 0 => start % 65536 != 0 || len % 65536 != 0 || decide (x.spadSize < start + len)
    | 1 => start % 32 != 0 || len % 32 != 0 || decide (x.accRows < start + len)
    | 2 => start % 4096 != 0 || len % 4096 != 0 || decide (x.sdmSize < start + len)
    | 3 => start % 4096 != 0 || len % 4096 != 0 || decide (2 ^ 20 < len)
    | _ => false

/-- SCRUB. -/
def execScrub (gd : BitVec 4) (d a : BitVec 6) (s : State) : Out :=
  let x := s.me
  let kind := x.runN a 0
  let start := x.runN a 1
  let len := x.runN a 2
  s.slotD gd [(kind == 3 && (notLocal start).1, .bounds, start), keyBad (scrubBad x kind start len) 2, keyBad (decide (3 < kind)) 3] fun s =>
    s.issueCmd d (.scrub kind start len) 0 0

/-- MEAS. -/
def execMeas (gd : BitVec 4) (d a : BitVec 6) (s : State) : Out :=
  let x := s.me
  let addr := x.runN a 0
  let len := x.runN a 1
  let out := x.runN a 2
  s.slotD gd [notLocal addr, (out != 0 && (notLocal out).1, .bounds, out), keyBad (decide (2 ^ 20 < len) || out % 8 != 0) 2] fun s =>
    s.issueCmd d (.meas addr len out) 0 0

end Sys2Proof.Machine
end

