-- ==== Sys2Proof/Machine/Context.lean ====
section
/-! DEFINITION. The end of a group (R346, R363), shared by every event that ends one, the policy for traps not taken (R289, R362), and the
resolution of the faults that strands and commands wait for (R291, R298). -/

namespace Sys2Proof.Machine

/-! ## Groups and launches -/

/-- The codes of statuses (R346). -/
def statusCode : Status → Nat
  | .ok => 0
  | .cancelled => 1
  | .cancelledAfterDispatch => 2
  | .aborted => 3
  | .preemptTimeout => 4
  | .integrity => 5
  | .gangTimeout => 6
  | .reset => 7
  | .reclaimed => 8
  | .badRecord => 9
  | .badImage => 10
  | .fault => 11
  | .noContract => 12
  | .unplaceable => 13

/-- The oldest launch with a partition, queue and sequence number that an event concerns: a queue that was enabled anew may give a number twice
(R338). -/
def State.launchWhere (s : State) (p q n : Nat) (f : Launch → Bool) : Option Launch :=
  s.launches.find? fun l => l.part == p && l.lq == q && l.seq == n && f l

/-- A change of one launch. -/
def State.onLaunch (s : State) (id : Nat) (f : Launch → Launch) : State :=
  { s with launches := s.launches.map fun l => if l.id == id then f l else l }

/-- A launch takes the status of the first group to end abnormally (R346), before its own. -/
def Launch.note (l : Launch) (st : Status) : Launch := if l.status = .ok ∨ l.status = .cancelled then { l with status := st } else l

/-- A physical chunk serves a group. -/
def ChunkState.of (g : Nat) : ChunkState → Bool
  | .free => false
  | .live t _ _ | .parked t _ _ | .saving t _ _ => t == g

/-! ## Chunks (R309, R311) -/

/-- The physical chunks of a store of a core. -/
def Core.chunkTbl (c : Core) : Store → Tbl ChunkState
  | .spad => c.spadCh
  | .acc => c.accCh
  | .sdm => c.sdmCh

/-- Replaces them. -/
def Core.setChunkTbl (c : Core) (st : Store) (t : Tbl ChunkState) : Core :=
  match st with
  | .spad => { c with spadCh := t }
  | .acc => { c with accCh := t }
  | .sdm => { c with sdmCh := t }

/-- A change of the physical chunks of a store of a core. -/
def State.onChunks (s : State) (core : Nat) (st : Store) (f : Tbl ChunkState → Tbl ChunkState) : State :=
  s.setCore core ((s.core core).setChunkTbl st (f ((s.core core).chunkTbl st)))

/-- The bytes of a chunk. -/
def storeUnit : Store → Nat
  | .spad => 65536
  | .acc => 32 * 512
  | .sdm => 4096

/-- The numbers of a list as the bits of a number. -/
def bitSet (l : List Nat) : Nat := l.foldl (fun a i => a ||| 2 ^ i) 0

/-- What the save of a chunk holds (R311): its contents, and after those of a SPAD chunk the entries of the maps that reach into it, with their
filled and dirty bits (layout: log entry 32). -/
def Strand.chunkText (x : Strand) (st : Store) (i : Nat) : List Byte :=
  let n := storeUnit st
  match st with
  | .spad => Mem.run x.spad (n * i) n ++ (x.maps.filter fun e => meets e.off e.size (n * i) n).flatMap fun e =>
      wordBytes [e.index, e.off, e.size, e.addr] ++ natLe 48 (bitSet e.filled) ++ natLe 48 (bitSet e.dirty)
  | .acc => Mem.run x.accBase (n * i) n
  | .sdm => Mem.run x.sdm (n * i) n

/-- The pages of a save area that a save takes, with its tag of 16 bytes. -/
def SaveSlot.pages (a : SaveSlot) : Nat := (a.text + 16 + 4095) / 4096

/-- The slot holds a given chunk. -/
def SaveSlot.is (a : SaveSlot) (g sidx : Nat) (st : Store) (i : Nat) : Bool := a.gtag == g && a.sidx == sidx && a.store == st && a.index == i

/-- A word of a list as a number. -/
def wordAt (ws : List W64) (i : Nat) : Nat := ((ws[i]?).getD 0).toNat

/-- The size of a partition's save area in pages, and the guest physical address of one of them (R334). -/
def Partition.saveSize (q : Partition) : Nat := bits (wordAt q.desc 3) 31 0
/-- The guest physical address of a page of the save area. -/
def Partition.savePage (q : Partition) (i : Nat) : Nat := bits (wordAt q.desc 2) 47 12 * 4096 + 4096 * i

/-- The lowest pages of a save area that hold no save and have room for one (log entry 32). -/
def saveRoom (size n : Nat) (used : List SaveSlot) : Option Nat :=
  (sortBy id (0 :: used.map fun a => a.page + a.pages)).find? fun j =>
    decide (j + n ≤ size) && used.all fun a => decide (a.page + a.pages ≤ j) || decide (j + n ≤ a.page)

/-- Writes one page of a save area, where stage 2 maps it for writing. -/
def State.savePut (s : State) (p gpa : Nat) (b : List Byte) : State :=
  match s.stage2 p gpa false true with
  | some l => if l.fab then s else s.putRun p (l.pa gpa) b
  | none => s

/-- A claimed chunk's contents and map entries are written to its owner's save area, under AES-256-GCM with the group's key and a nonce that never
repeats (R311). -/
def State.saveChunk (s : State) (st : Store) (g sidx i : Nat) : State :=
  match Tbl.find s.groups g with
  | none => s
  | some x =>
    match s.part x.part, x.saved.find? fun e => e.1 == sidx with
    | some q, some e =>
      let text := e.2.chunkText st i
      let f := s.fresh
      let a : SaveSlot := ⟨x.part, g, sidx, st, i, 0, text.length, f.1⟩
      let old := s.areas.filter fun b => !b.is g sidx st i
      match saveRoom q.saveSize a.pages (old.filter fun b => b.part == x.part) with
      | none => { s with areas := old }
      | some j =>
        let c := gcm true (Config.groupKey g x.born) (natBe 12 f.1) [] text
        let out := c.1 ++ c.2
        (List.range a.pages).foldl (fun (t : State) k => t.savePut x.part (q.savePage (j + k)) ((out.drop (4096 * k)).take 4096))
          { f.2 with areas := old ++ [{ a with page := j }] }
    | _, _ => s

/-- The bytes of a page of a save area; none where stage 2 does not map it for reading or a line of it is poisoned. -/
def State.saveGet (s : State) (p gpa : Nat) : Option (List Byte) :=
  match s.stage2 p gpa true false with
  | some l => if l.fab ∨ (linesIn (l.pa gpa) 4096).any s.poisoned = true then none else some (Mem.run s.mem (l.pa gpa) 4096)
  | none => none

/-- The save of a chunk authenticates (R312); one for which the save area had no room does (log entry 32). -/
def State.authentic (s : State) (st : Store) (g sidx i : Nat) : Bool :=
  match s.areas.find? fun a => a.is g sidx st i with
  | none => true
  | some a =>
    match s.part a.part with
    | none => true
    | some q =>
      let l := (List.range a.pages).map fun k => s.saveGet a.part (q.savePage (a.page + k))
      let b := l.flatMap fun e => e.getD []
      l.all Option.isSome && (gcm false (Config.groupKey g (s.grp g).born) (natBe 12 a.nonce) [] (b.take a.text)).2 == (b.drop a.text).take 16

/-- A claimed chunk's record reads SAVED, unless it reads ZERO (R311). -/
def State.recordSaved (s : State) (st : Store) (g sidx i : Nat) : State :=
  match Tbl.find s.groups g with
  | none => s
  | some x =>
    s.setGrp g { x with saved := x.saved.map fun e =>
      if e.1 = sidx then (e.1, { e.2 with chunks := e.2.chunks.map fun c =>
        if c.store = st ∧ c.index = i ∧ c.form ≠ .zero then { c with form := .saved } else c }) else e }

/-- The save of a claimed chunk has ended and Snuffer has zeroed it: it is LIVE for its new strand, or FREE where that strand is gone (R311). -/
def State.endSaving (s : State) (core : Nat) (st : Store) (n : Nat) (next : Option ChunkState) : State :=
  let t := match Tbl.find ((s.core core).chunkTbl st) n with
    | some (.saving g sidx i) => (s.saveChunk st g sidx i).recordSaved st g sidx i
    | _ => s
  t.onChunks core st fun l => match next with
    | some e => Tbl.insert l n e
    | none => Tbl.erase l n

/-- The claim of a strand's chunk ends. -/
def State.endClaim (s : State) (c : Chunk) (next : Option ChunkState) : State :=
  match c.form with
  | .live core n => s.endSaving core c.store n next
  | _ => s

/-- A strand of a core waits for a physical chunk that is SAVING. -/
def State.claimed (s : State) (core : Nat) (st : Store) (n : Nat) : Bool :=
  [2 * core, 2 * core + 1].any fun k => (s.strand k).chunks.any fun c => c.claiming && c.store == st && c.form == .live core n

/-- The physical chunks that are being saved for no strand of their core, with the group that owns them: their core, store and number (R312, R336,
R337). -/
def State.looseSaves (s : State) : List (Nat × Store × Nat × Nat) :=
  s.cores.flatMap fun e => [Store.spad, .acc, .sdm].flatMap fun st => (e.2.chunkTbl st).filterMap fun c => match c.2 with
    | .saving g _ _ => if s.claimed e.1 st c.1 then none else some (e.1, st, c.1, g)
    | _ => none

/-- Those of them that `pick` names by core and group are saved, and FREE. -/
def State.endSaves (s : State) (pick : Nat → Nat → Bool) : State :=
  (s.looseSaves.filter fun e => pick e.1 e.2.2.2).foldl (fun (t : State) e => t.endSaving e.1 e.2.1 e.2.2.1 none) s

/-- The save record's chunk of a parked one. -/
def State.savedChunk (s : State) (st : Store) (g sidx i : Nat) : Option Chunk :=
  (((s.grp g).saved.find? fun e => e.1 == sidx).map fun e => e.2.chunks).bind fun cs => cs.find? fun c => c.store == st && c.index == i

/-- PARKED chunks are claimed so that they may be saved (R311): those that `pick` names by core, group and strand index are SAVING, or FREE where
they are recorded ZERO. -/
def State.beginSaves (s : State) (pick : Nat → Nat → Nat → Bool) : State :=
  { s with cores := s.cores.map fun e => (e.1, [Store.spad, .acc, .sdm].foldl (fun (c : Core) st =>
      c.setChunkTbl st ((c.chunkTbl st).filterMap fun x => match x.2 with
        | .parked g sidx i =>
          if pick e.1 g sidx = false then some x
          else if (s.savedChunk st g sidx i).map Chunk.form = some .zero then none
          else some (x.1, .saving g sidx i)
        | _ => some x)) e.2) }

/-- Every physical chunk of a group becomes FREE: Snuffer has zeroed it (R38, R363). A chunk that is being saved for another strand stays with the
claim. What the save area holds of the group is void. -/
def State.freeChunks (s : State) (g : Nat) : State :=
  let out : Nat → Store → Tbl ChunkState → Tbl ChunkState := fun core st t => t.filterMap fun e =>
    match e.2 with
    | .saving a _ _ => if a ≠ g then some e else if s.claimed core st e.1 then some (e.1, .saving 0 0 0) else none
    | x => if x.of g then none else some e
  { s with
    areas := s.areas.filter fun a => a.gtag != g
    cores := s.cores.map fun e => (e.1, { e.2 with
      spadCh := out e.1 .spad e.2.spadCh, accCh := out e.1 .acc e.2.accCh, sdmCh := out e.1 .sdm e.2.sdmCh }) }

/-- A group ends: its flag file and chunks are freed, its launch counts it, and a GROUP_END record reports a status other than OK. A
partition under reset has its records once the reset is over (R365). -/
def State.groupEnd (s : State) (g : Nat) (st : Status) : State :=
  match Tbl.find s.groups g with
  | none => s
  | some x =>
    let t := { s with
      groups := Tbl.erase s.groups g
      posts := s.posts.filter fun p => !(p.gtag == g && p.fd.isNone) }.freeChunks g
    let v := t.onLaunch x.launch fun l => if st = .ok then { l with completed := l.completed + 1 } else l.note st
    if st = .ok ∨ ((s.part x.part).map Partition.refuse).getD false = true then v
    else v.event x.part 2 noStrand x.wid.toNat (statusCode st + place x.seq 63 32) x.lq

/-- The steps of a context reset or context abort (R363). The strands of the group issue no more, and what they had in flight is discarded; requests
that the gateway has accepted complete, the other pieces and the side-log entries do not; accepted commands stop at their next boundary
without a flag post; the stores are zeroed; the status is recorded. -/
def State.cutGroup (s : State) (g : Nat) (st : Status) : State :=
  match Tbl.find s.groups g with
  | none => s
  | some x =>
    let s := (x.strands.flatMap fun k => (s.strand k).chunks.filter Chunk.claiming).foldl (fun (t : State) c => t.endClaim c none) s
    let gone := fun (r : Req) => r.gtag == g && r.stage != .accepted
    let dead := (s.reqs.filter gone).map Req.id ++ (s.cmds.filter fun c => c.gtag == g).map Cmd.id
    let t : State := { s with
      strands := s.strands.filter fun e => !x.strands.contains e.1
      reqs := ((s.reqs.filter fun r => !gone r).map fun r =>
        if r.gtag == g then { r with fault := none, pieces := r.pieces.map fun p => { p with done := p.done || p.acc.isNone } } else r).filter
          fun r => r.gtag != g || !(r.pieces.all Piece.done)
      cmds := (s.cmds.filter fun c => c.gtag != g || (c.accepted.isSome && c.kind.counted && !c.written)).map fun c =>
        if c.gtag == g then { c with stop := true, fault := none, fd0 := 0, fd1 := 0 } else c
      posts := s.posts.filter fun p => !((p.cmd.map fun i => dead.contains i).getD false)
      faults := s.faults.filter fun f => !dead.contains f.waiter.2.1
      preqs := s.preqs.map fun e => { e with waiters := e.waiters.filter fun w => !dead.contains w.2.1 } }
    t.groupEnd g st

/-- A rung of the reset ladder is in progress from now on, until the launches or groups in `l` have ended (R364). -/
def State.rungFrom (s : State) (rung scope : Nat) (l : List Nat) : State :=
  { s with rungs := ⟨rung, scope, s.clk, l⟩ :: s.rungs.filter fun r => !(r.rung == rung && r.scope == scope) }

/-- A context reset or context abort of a group: it is rung 2 of the ladder, which goes on where it stalls (R304, R363, R364). -/
def State.contextReset (s : State) (g : Nat) (st : Status) : State :=
  if (Tbl.find s.groups g).isSome then (s.cutGroup g st).rungFrom 2 g [g] else s

/-- A RESET record (R361, R364). -/
def State.resetRecord (s : State) (p rung : Nat) (st : Status) : State := s.event p 10 noStrand rung (statusCode st) 0

/-- Rung 2 as Lantern applies it or a TDI requests it: the context reset with its RESET record (R304, R364, log entry 97). -/
def State.resetContext (s : State) (g : Nat) (st : Status) : State :=
  match Tbl.find s.groups g with
  | none => s
  | some x => (s.resetRecord x.part 2 st).contextReset g st

/-- Lantern receives an event record (R316, R322). -/
def State.toLantern (s : State) (r : LanternRecord) : State := { s with lantern := s.lantern ++ [r] }

/-- An access for a partition touched poisoned memory: the partition and Lantern each receive a record (R322, R361). -/
def State.poisonRecord (s : State) (p pa : Nat) : State := (s.event p 13 noStrand pa 0 0).toLantern (.poison p pa)

/-- A group's access met poison: it ends with INTEGRITY (R322). -/
def State.integrity (s : State) (g p pa : Nat) : State := (s.poisonRecord p pa).contextReset g .integrity

/-- A message of a group was discarded: the group ends with INTEGRITY, and Lantern receives a record (R316). -/
def State.badMessage (s : State) (g p : Nat) : State := (s.toLantern (.message p g)).contextReset g .integrity

/-! ## Traps not taken (R289, R362) -/

/-- The policy TPOL of a partition (R334). -/
def Partition.tpol (q : Partition) : Nat := bits ((q.desc[1]?).getD 0).toNat 20 19

/-- The untaken-trap record of a strand, if it waits on one. -/
def Strand.untaken (x : Strand) : Option Replay :=
  let b := if x.handler then x.hreplay else x.replay
  if x.life = .faultWait then (match b with
    | some r => if r.record.isSome then some r else none
    | none => none) else none

/-- Where a strand returns to from FAULTWAIT: RUN (R36). Under a pre-emption request it enters DRAINING from there. -/
def Strand.back (_x : Strand) : Life := .run

/-- A strand resumes after a trap not taken: it reissues the slots of the recorded bundle that have not performed (R289). -/
def Strand.resume (x : Strand) : Strand :=
  match x.untaken with
  | none => x
  | some r =>
    let b := some { r with record := none, again := true }
    { x with
      life := x.back
      pc := r.idx
      replay := if x.handler then x.replay else b
      hreplay := if x.handler then b else none }

/-- What follows a trap not taken: its TRAP_UNTAKEN record, and what the partition's policy says (R362). -/
def State.afterTrap (s : State) (k : Nat) : State :=
  let x := s.strand k
  match x.untaken with
  | none => s
  | some r =>
    let c := (r.record.map Prod.fst).getD .illegal
    let v := (r.record.map fun e => e.2.toNat).getD 0
    let t := s.event x.part 1 k x.wid.toNat
      (place (Cause.code c) 7 0 + place r.perf.toNat 11 8 + place (if r.handler then 1 else 0) 12 12 + place r.idx 44 32) v
    match (t.part x.part).map Partition.tpol with
    | some 1 => t
    | some 2 => if c = .promise ∨ c = .address then t.setStrand k (t.strand k).resume else t.contextReset x.gtag .aborted
    | _ => t.contextReset x.gtag .aborted

/-- Taking a trap, with its consequences when it is not taken. -/
def State.trap (s : State) (k idx n : Nat) (handler first : Bool) (next : Option Nat) (perf : BitVec 4) (r : Report) : State :=
  (s.setStrand k ((s.strand k).takeTrap idx n handler first next perf r)).afterTrap k

/-- A pending trap takes its place: in the order in which they became pending, an ADDRESS before the PROMISEs of the same cycle (R290). -/
def queueTrap (l : List Pending) (p : Pending) : List Pending :=
  if p.cause = .address then
    l.takeWhile (fun q => q.since != p.since || q.cause != .promise) ++ p :: l.dropWhile fun q => q.since != p.since || q.cause != .promise
  else l ++ [p]

/-- A trap becomes pending in a strand (R290); one in DONEWAIT takes none (R38, R221, R298). -/
def State.pendTrap (s : State) (k gtag : Nat) (p : Pending) : State :=
  let x := s.strand k
  if x.gtag = gtag ∧ x.life ≠ .doneWait ∧ (Tbl.find s.strands k).isSome = true then s.setStrand k { x with traps := queueTrap x.traps p } else s

/-! ## Faults of translation (R207, R291 to R293) -/

/-- A strand's landing of a request or command is marked as waiting for a fault, or no longer. -/
def State.markLand (s : State) (k id : Nat) (faulted : Bool) : State :=
  let f := fun (w : Write) => if w.land = some id then { w with faulted := faulted } else w
  let x := s.strand k
  s.setStrand k { x with pend := x.pend.map f, pendH := x.pendH.map f }

/-- A fault met by a request or command waits for a place in the page-request queue (R293). -/
def State.addFault (s : State) (stage2 : Bool) (part gtag strand va acc src : Nat) (access : Bool) (w : Bool × Nat) : Nat × State :=
  let f := s.fresh
  let g := if stage2 && !access then s.stop2 part va else (0, false)
  (f.1, { f.2 with faults := f.2.faults ++ [⟨f.1, part, stage2, va, acc, src, strand, (s.grp gtag).wid, g.1, g.2, access, (w.1, w.2, va)⟩] })

/-- ACC of a page-request record (R296). The model never writes code 3, a zero-fill read, since no rule says which access does (log entry 103). -/
def accCode (rd wr : Bool) : Nat := if rd && wr then 2 else if wr then 1 else 0

/-- The rights that an entry's access needs where stage 2 stopped it: those of the access, or a read of a table. -/
def PageReq.needs (e : PageReq) : Bool × Bool := if e.table then (true, false) else (e.acc != 1, e.acc == 1 || e.acc == 2)

/-- What Lantern finds when it walks stage 2 again for an entry (R379, R440): the access now succeeds, or only a trust domain for the peer that
is named is missing. -/
def State.stage2Now (s : State) (e : PageReq) : Bool × Option Nat :=
  match s.stage2 e.part e.ipa e.needs.1 e.needs.2 with
  | none => (false, none)
  | some l =>
    if e.table then (!l.fab, none)
    else if l.fab != e.va.testBit 47 then (false, none)
    else if l.fab && !(((s.part e.part).map fun q => q.hasPeer l.hi).getD false) then (false, some l.hi)
    else (true, none)

end Sys2Proof.Machine
end

