-- ==== Sys2Proof/Machine/Block.lean ====
section
/-! DEFINITION. The block formats: BX blocks (R48 to R50) and MXFP8 blocks (R51, R52), their decoding and their quantisers. A block is the
number its bytes hold, little-endian. -/

namespace Sys2Proof.Machine

/-- Magnitude width W of a BX format (R48); for an MX format unused. -/
def bxWidth : Bk → Nat
  | .bx3 => 2
  | .bx5 => 4
  | .bx8 => 7
  | .mxE4m3 | .mxE5m2 => 0

/-- Element `i` of a BX block (R49). -/
def bxDecode (w b i : Nat) : FV :=
  let e := b % 256
  if e = 0 then .fin false 0 0
  else if e = 255 then .nan
  else
    let eq := max (e - bits b (9 + 2 * (i / 4)) (8 + 2 * (i / 4))) 1
    let f := b >>> (16 + (w + 1) * i) % 2 ^ (w + 1)
    .fin (f.testBit w) (f % 2 ^ w) ((eq : Int) - 127 - ((w : Int) - 1))

/-- Element `i` of an MXFP8 block (R51), the product exact. -/
def mxDecode (F : Fmt) (b i : Nat) : FV :=
  let x := b % 256
  if x = 255 then .nan
  else match F.value (b >>> (8 + 8 * i) % 256) with
    | .nan => .nan
    | .inf s => .inf s
    | .fin s m e => .fin s m (e + x - 127)

/-- Element format of an MX block code. -/
def mxFmt : Bk → Fmt
  | .mxE5m2 => .e5m2
  | .mxE4m3 | .bx3 | .bx5 | .bx8 => .e4m3

/-- Element `i` of a block of a format (R49, R51). -/
def blockDecode (k : Bk) (b i : Nat) : FV :=
  match k with
  | .bx3 | .bx5 | .bx8 => bxDecode (bxWidth k) b i
  | .mxE4m3 | .mxE5m2 => mxDecode (mxFmt k) b i

/-- A decoded element as FP32 holds it: a product beyond the FP32 range is an infinity (R51). -/
def FV.inF32 : FV → FV
  | .fin s m e => if m ≠ 0 ∧ 128 ≤ e + Nat.log2 m then .inf s else .fin s m e
  | v => v

/-- Magnitude of a finite value: mantissa and exponent. -/
def FV.mag : FV → Nat × Int
  | .fin _ m e => (m, e)
  | _ => (0, 0)

/-- Some input is NaN or infinite. -/
def nonFinite (l : List FV) : Bool := l.any fun v => match v with
  | .fin _ _ _ => false
  | _ => true

/-- floor_log2 of the largest magnitude; none where every magnitude is zero. -/
def topLog (l : List FV) : Option Int :=
  l.foldl (fun a v =>
    let me := v.mag
    if me.1 = 0 then a
    else
      let t : Int := me.2 + Nat.log2 me.1
      match a with
      | none => some t
      | some u => some (max t u)) none

/-- The magnitude of a value in units of 2^(e − t − 127 − (w − 1)), rounded to nearest even (R50). -/
def bxMag (w : Nat) (e t : Int) (v : FV) : Nat := roundInt .rne false v.mag.1 (v.mag.2 + ((w : Int) - 1) - (e - t - 127))

/-- The sub-exponent of a quad: the largest at which all its elements fit (R50). -/
def quadSub (w : Nat) (e : Int) (q : List FV) : Nat :=
  (([3, 2, 1] : List Nat).find? fun (t : Nat) => 1 ≤ e - (t : Int) && q.all fun v => bxMag w e (t : Int) v ≤ 2 ^ w - 1).getD 0

/-- `quantise_bx` (R50). -/
def quantiseBx (w : Nat) (x : List FV) : Nat :=
  if nonFinite x then 0xFF
  else match topLog x with
    | none => 0
    | some fl =>
      let e := max 1 (min 254 (fl + 127))
      let sg := (List.range 4).map fun j => quadSub w e ((x.drop (4 * j)).take 4)
      let m := x.zipIdx.map fun v => min (bxMag w e (sg.getD (v.2 / 4) 0 : Nat) v.1) (2 ^ w - 1)
      if m.all (· == 0) then 0
      else e.toNat + packElems 2 sg <<< 8 +
        packElems (w + 1) ((m.zip x).map fun p => p.1 + (if p.2.isNeg then 2 ^ w else 0)) <<< 16

/-- `quantise_mx` (R52). -/
def quantiseMx (F : Fmt) (x : List FV) : Nat :=
  if nonFinite x then 0xFF
  else match topLog x with
    | none => 0
    | some fl =>
      let xs := max (-127) (min 127 (fl - (if F = .e5m2 then 15 else 8)))
      let y := x.map fun v => match v with
        | .fin s m e => F.roundS .rne true (.fin s m (e - xs)) false
        | _ => 0
      if y.all (fun c => c % 128 == 0) then 0 else (xs + 127).toNat + packElems 8 y <<< 8

/-- One block from its elements. -/
def quantise (k : Bk) (x : List FV) : Nat :=
  match k with
  | .bx3 | .bx5 | .bx8 => quantiseBx (bxWidth k) x
  | .mxE4m3 | .mxE5m2 => quantiseMx (mxFmt k) x

/-- Chunks of `n` elements. -/
def chunks {α : Type} (n : Nat) : Nat → List α → List (List α)
  | 0, _ => []
  | f + 1, l => if l.isEmpty then [] else l.take n :: chunks n f (l.drop n)

/-- The block image of a list of values (R148). -/
def blockImage (k : Bk) (x : List FV) : Nat :=
  packElems (8 * k.shape.2) ((chunks k.shape.1 x.length x).map (quantise k))

/-- Element `i` of a block image (R148). -/
def imageElem (k : Bk) (img i : Nat) : FV :=
  blockDecode k (elemAt (8 * k.shape.2) img (i / k.shape.1)) (i % k.shape.1)

end Sys2Proof.Machine
end

