-- ==== Sys2Proof/Machine/Matrix.lean ====
section
/-! DEFINITION. Slot C: the matrix array, the operand latch, gathers and the accumulator store (R53 to R55, R176 to R198). -/

namespace Sys2Proof.Machine

/-! ## Geometry (R176 to R178) -/

/-- The geometry of an input format (R176): lanes, elements of an A row, bytes and registers of an A row and of a B latch row, segments
of a gathered row. -/
structure Geo where
  lw : Nat
  k  : Nat
  ab : Nat
  da : Nat
  bb : Nat
  db : Nat
  sg : Nat
  deriving DecidableEq, Repr

/-- R176, by the code of FMT.AF. -/
def geoOf (af : Nat) : Geo :=
  match af with
  | 0 | 1 | 2 | 3 => ⟨4, 384, 384, 1, 512, 1, 6⟩
  | 4 => ⟨4, 384, 432, 1, 576, 2, 7⟩
  | 5 => ⟨8, 768, 576, 2, 768, 2, 9⟩
  | 6 => ⟨16, 1536, 768, 2, 1024, 2, 12⟩
  | 7 | 8 => ⟨2, 192, 384, 1, 512, 1, 6⟩
  | 9 => ⟨1, 96, 384, 1, 512, 1, 6⟩
  | _ => ⟨1, 6, 48, 1, 1024, 2, 1⟩

/-- The geometry a strand sees. -/
def Strand.geo (x : Strand) : Geo := geoOf (fmtAF x.fmt)

/-- The accumulate format is FP64, so a unit is a pair of rows (R178). -/
def Strand.fp64 (x : Strand) : Bool := fmtACF x.fmt == 2

/-- The element type of a format code that is not a block format (R27). -/
def codeTy (c : Nat) : Ty :=
  match c with
  | 0 => .e4m3 | 1 => .e5m2 | 2 => .i8 | 3 => .n8 | 7 => .bf16 | 8 => .f16 | 9 => .f32 | _ => .f64

/-- The block format of a format code. -/
def codeBk (c : Nat) : Option Bk :=
  match c with
  | 4 => some .bx8 | 5 => some .bx5 | 6 => some .bx3 | _ => none

/-- The values of the first `n` elements of a row image (R177). -/
def imageVals (c n img : Nat) : List FV :=
  match codeBk c with
  | some k => (List.range n).map (imageElem k img)
  | none =>
    match tyFmt (codeTy c) with
    | some F => (unpackElems F.w n img).map F.value
    | none => (unpackElems 8 n img).map fun e => FV.ofInt (tyInt (codeTy c) e)

/-- The integers of the first `n` elements of a row image. -/
def imageInts (c n img : Nat) : List Int := (unpackElems 8 n img).map (tyInt (codeTy c))

/-! ## Column sums (R53 to R55, R180) -/

/-- The exact sum over the lanes of one PE; a zero sum takes its sign from IEEE 754. -/
def laneSum (a b : List FV) : FV :=
  match List.zipWith FV.mul a b with
  | [] => .fin false 0 0
  | p :: r => r.foldl (FV.add .rne) p

/-- One rounding into a format. -/
def rounded (F : Fmt) (v : FV) : FV := F.value (F.round .rne v)

/-- The chain of R53 over the active rows: A lanes of each row, and B lanes of each column of the row. -/
def chainF32 : List (List FV × List (List FV)) → List FV
  | [] => []
  | (a, b) :: r =>
    r.foldl (fun cs e => List.zipWith (fun c l => rounded .f32 (FV.add .rne c (rounded .f32 (laneSum e.1 l)))) cs e.2)
      (b.map fun l => rounded .f32 (laneSum a l))

/-- Column sums in FP32: rows at and above KR contribute +0 (R180). -/
def sumF32 (kr : Nat) (rows : List (List FV × List (List FV))) : List (BitVec 32) :=
  (chainF32 rows).map fun c =>
    BitVec.ofNat 32 (Fmt.f32.round .rne (if kr < 96 then FV.add .rne c (.fin false 0 0) else c))

/-- Column sums in INT32 (R54). -/
def sumI32 (rows : List (List Int × List (List Int))) : List (BitVec 32) :=
  (List.range 128).map fun c =>
    BitVec.ofInt 32 ((rows.map fun e => (List.zipWith (· * ·) e.1 ((e.2[c]?).getD [])).foldl (· + ·) 0).foldl (· + ·) 0)

/-- Column sums in FP64 over the groups that take part (R55, R180). -/
def sumF64 : List (FV × List FV) → List FV
  | [] => List.replicate 128 (.fin false 0 0)
  | (a, b) :: r =>
    r.foldl (fun cs e => List.zipWith (fun c v => rounded .f64 (FV.add .rne (FV.mul e.1 v) c)) cs e.2)
      (b.map fun v => rounded .f64 (FV.mul a v))

/-- The B latch row `r` of the active set. -/
def Matrix.row (m : Matrix) (r : Nat) : Nat := (Tbl.getD m.active r 0).toNat

/-- Groups of `n` values. -/
def lanesOf {α : Type} (n : Nat) (l : List α) : List (List α) := chunks n l.length l

/-- The column sums of a beat; without an A row they are +0 (R193). -/
def beatSums (m : Matrix) (fmt : BitVec 13) (a : Option Nat) : List (BitVec 32) × List (BitVec 64) :=
  let af := fmtAF fmt
  let bf := fmtBF fmt
  let g := geoOf af
  match a with
  | none => (List.replicate 128 0, List.replicate 128 0)
  | some img =>
    if fmtACF fmt = 2 then
      let av := imageVals af 6 img
      let gs := (List.range 6).filter fun k => 16 * k + 16 ≤ m.kr
      ([], (sumF64 (gs.map fun k => ((av[k]?).getD (.fin false 0 0), imageVals bf 128 (m.row (16 * k))))).map fun v =>
        BitVec.ofNat 64 (Fmt.f64.round .rne v))
    else if fmtACF fmt = 1 then
      let av := lanesOf g.lw (imageInts af g.k img)
      (sumI32 ((av.take m.kr).zipIdx.map fun e => (e.1, lanesOf g.lw (imageInts bf (128 * g.lw) (m.row e.2)))), [])
    else
      let av := lanesOf g.lw (imageVals af g.k img)
      (sumF32 m.kr ((av.take m.kr).zipIdx.map fun e => (e.1, lanesOf g.lw (imageVals bf (128 * g.lw) (m.row e.2)))), [])

/-! ## The accumulator store (R84, R86, R195, R197) -/

/-- One element of a row with something added, if anything is (R53 to R55). -/
def addElems (w : Nat) (f : Nat → Nat → Nat) (old : Nat) (cols : List (Option Nat)) : Nat :=
  packElems w (List.zipWith (fun o c => match c with
    | some v => f o v
    | none => o) (unpackElems w (4096 / w) old) cols)

/-- What an accumulator operation makes of row `part` of its unit. -/
def AccOp.onRow (op : AccOp) (part old : Nat) : Nat :=
  match op with
  | .set img => img.toNat >>> (4096 * part) % 2 ^ 4096
  | .addF32 cs => addElems 32 (fpSum .f32) old (cs.map fun c => c.map BitVec.toNat)
  | .addI32 cs => addElems 32 (fun o v => (o + v) % 2 ^ 32) old (cs.map fun c => c.map BitVec.toNat)
  | .addF64 cs => addElems 64 (fpSum .f64) old (((cs.drop (64 * part)).take 64).map fun c => c.map BitVec.toNat)
where
  /-- Sum rounded to nearest even. -/
  fpSum (F : Fmt) (a b : Nat) : Nat := F.round .rne (FV.add .rne (F.value a) (F.value b))

/-- The rows an operation writes. -/
def AccWrite.covers (a : AccWrite) (r : Nat) : Bool := a.row == r || (a.pair && a.row + 1 == r)

/-- Row `r` under the operations that a test keeps, in issue order. -/
def Strand.accRow (x : Strand) (keep : AccWrite → Bool) (r : Nat) : Nat :=
  (x.accOps.filter fun a => keep a && a.covers r).foldl (fun v a => a.op.onRow (r - a.row) v)
    (leNat (Mem.readN x.accBase (512 * r) 512))

/-- The operations a drain sees (R84, R286): those of its own mode whose visibility bundle it has reached; in handler mode also those
of the kernel whose visibility bundle was reached before trap entry. -/
def Strand.drainSees (x : Strand) (a : AccWrite) : Bool :=
  if a.hnd = x.iss.handler then decide (a.vis ≤ x.iss.n) else x.iss.handler && decide (a.vis ≤ x.sbn)

/-- The unit at a row as a drain reads it: one row, or a pair in FP64 mode. -/
def Strand.drainUnit (x : Strand) (row : Nat) : Nat :=
  x.accRow x.drainSees row + (if x.fp64 then x.accRow x.drainSees (row + 1) * 2 ^ 4096 else 0)

/-- An accumulator write of the bundle in issue (R86). -/
def Strand.accWrite (x : Strand) (row : Nat) (op : AccOp) : Strand :=
  { x with
    accOps := x.accOps ++ [⟨x.iss.n + 100, x.iss.handler, row, x.fp64, op⟩]
    chunks := markWritten x.chunks .acc [row, if x.fp64 then row + 1 else row] 32 }

/-- Moves the oldest operations into the base once every drain of the kernel sees them. -/
def Strand.accSettle (x : Strand) (n : Nat) : Strand :=
  let old := x.accOps.takeWhile fun a => !a.hnd && decide (a.vis ≤ n)
  let rows := (old.flatMap fun a => if a.pair then [a.row, a.row + 1] else [a.row]).eraseDups
  { x with
    accBase := rows.foldl (fun m r => Mem.writeN m (512 * r) (natLe 512 ({ x with accOps := old }.accRow (fun _ => true) r))) x.accBase
    accOps := x.accOps.drop old.length }

/-! ## Common rules (R181, R182) -/

/-- A governed slot C instruction whose stage predicate reads 0 performs nothing (R181). -/
def State.governed (s : State) (l : LentC) (k : Out) : Out :=
  if l.qe = true ∧ s.me.q.getLsbD l.qi.toNat = false then s.slot 2 id else k

/-- A FORMAT trap of slot C: TVAL is the slot word. -/
def State.formatTrap (s : State) : Out := s.trapSlot 2 .format ((slotOf s.me.iss.word 2).setWidth 64)

/-- A governed instruction that traps FORMAT where `bad` holds, and else has an effect on the strand. -/
def State.slotC (s : State) (l : LentC) (bad : Bool) (f : Strand → Strand) : Out :=
  s.governed l (if bad then s.formatTrap else s.slot 2 f)

/-- A group of two that begins at an odd register (R176). -/
def oddPair (d : Nat) (v : BitVec 7) : Bool := d == 2 && v.toNat % 2 == 1

/-- The image in the first `n` bytes of a group of `d` registers. -/
def Strand.rowImage (x : Strand) (v : BitVec 7) (d n : Nat) : Nat := x.group v.toNat d % 2 ^ (8 * n)

/-! ## Configuration and B (R184 to R186) -/

/-- MCFG: the field holds nc − 1. -/
def execMcfg (l : LentC) (kr : BitVec 7) (nc : BitVec 8) (s : State) : Out :=
  s.slotC l false fun x => x.push 2 (.mcfg kr.toNat (nc.toNat + 1))

/-- MSHIFT. -/
def execMshift (l : LentC) (v n : BitVec 7) (s : State) : Out :=
  let g := s.me.geo
  s.slotC l ((s.me.fp64 && n.toNat % 16 != 0) || oddPair g.db v) fun x =>
    x.push 2 (.shadow n.toNat (BitVec.ofNat 8192 (x.rowImage v g.db g.bb)))

/-- The latch sets exchanged. -/
def Matrix.swap (m : Matrix) : Matrix := { m with active := m.shadow, shadow := m.active }

/-- MSWAP. -/
def execMswap (l : LentC) (s : State) : Out := s.slotC l false fun x => { x with mat := x.mat.swap }

/-! ## The operand latch (R187 to R190) -/

/-- MSTG. -/
def execMstg (l : LentC) (v : BitVec 7) (s : State) : Out :=
  let g := s.me.geo
  s.slotC l (oddPair g.da v) fun x => x.push 2 (.stage (BitVec.ofNat 6144 (x.rowImage v g.da g.ab)))

/-- MROT: without an entry nothing. -/
def execMrot (l : LentC) (n : BitVec 7) (s : State) : Out :=
  s.slotC l (s.me.fp64 || (codeBk (fmtAF s.me.fmt)).isSome) fun x =>
    match x.mat.queue with
    | [] => x
    | e :: _ => x.push 2 (.rotate e.1 n.toNat)

/-- The rows of a gather up to the first absent one: the view address of each segment, none where it is zero-filled (R190). -/
def gatherSegs (x : Strand) (vi : BitVec 7) (a : BitVec 6) : List (List (Option Nat)) :=
  let g := x.geo
  let v := (x.v vi.toNat).toNat
  let row := fun j => (List.range g.sg).map fun i => elemAt 32 v (j * g.sg + i)
  (((List.range 8).map row).takeWhile fun r => r.head? != some 0xFFFFFFFF).map fun r => r.map fun e =>
    if e.testBit 31 then none else some (addr64 (x.s a) e)

/-- The addresses that lie outside the window, with bits [5:0] of the sum as computed: R190 ignores those bits for the line and does not say
whether TVAL keeps them (log entry 82). -/
def gatherOutside (size : Nat) (rows : List (List (Option Nat))) : List Nat :=
  (rows.flatten.filterMap id).filter fun u => size < u - u % 64 + 64

/-- MGATH: BOUNDS at the lowest address outside, else the rows are present at bundle n + 8. -/
def execMgath (l : LentC) (view : View) (vi : BitVec 7) (a : BitVec 6) (s : State) : Out :=
  let rows := gatherSegs s.me vi a
  s.governed l (match gatherOutside s.me.spadSize rows with
    | b :: bs => s.trapSlot 2 .bounds (BitVec.ofNat 64 (bs.foldl Nat.min b))
    | [] => s.slot 2 fun x =>
      let segs := rows.map fun r => r.map fun o => (⟨o.map fun u => viewLine view (u / 64), none⟩ : GatherSeg)
      { x.push 8 (.gather view x.ord x.geo.ab segs) with
        mat := { x.mat with gathers := x.mat.gathers ++
          [⟨x.iss.handler, x.iss.n + 8, s.clk, (segs.flatMap fun r => r.filterMap GatherSeg.line).eraseDups⟩] } })

/-! ## The beat and the direct accumulator instructions (R193, R194) -/

/-- The accumulator operation of a beat: columns at and above NC are not written. -/
def beatOp (m : Matrix) (fmt : BitVec 13) (a : Option Nat) : AccOp :=
  let r := beatSums m fmt a
  if fmtACF fmt = 2 then .addF64 (r.2.zipIdx.map fun e => if e.2 < m.nc then some e.1 else none)
  else
    let cs := r.1.zipIdx.map fun e => if e.2 < m.nc then some e.1 else none
    if fmtACF fmt = 1 then .addI32 cs else .addF32 cs

/-- MPUSH. -/
def execMpush (l : LentC) (v : BitVec 7) (row : BitVec 9) (sw k : Bool) (s : State) : Out :=
  let g := s.me.geo
  s.slotC l ((v != 0x7F && oddPair g.da v) || (s.me.fp64 && row.toNat % 2 == 1)) fun x =>
    let m := if sw then x.mat.swap else x.mat
    let a := if v = 0x7F then m.queue.head?.map fun e => e.2.toNat % 2 ^ (8 * g.ab) else some (x.rowImage v g.da g.ab)
    let m' := if v = 0x7F ∧ k = false then { m with queue := m.queue.tail } else m
    { x with mat := m' }.accWrite row.toNat (beatOp m x.fmt a)

/-- The unit width of a direct instruction in registers. -/
def Strand.unitRegs (x : Strand) : Nat := if x.fp64 then 2 else 1

/-- A direct instruction traps FORMAT on an odd row or register in FP64 mode (R198). -/
def Strand.badUnit (x : Strand) (v row : Nat) : Bool := x.fp64 && (row % 2 == 1 || v % 2 == 1)

/-- MACC. -/
def execMacc (l : LentC) (v : BitVec 7) (row : BitVec 9) (s : State) : Out :=
  s.slotC l (s.me.badUnit v.toNat row.toNat) fun x =>
    let img := x.group v.toNat x.unitRegs
    x.accWrite row.toNat (
      if x.fp64 then .addF64 ((unpackElems 64 128 img).map fun e => some (BitVec.ofNat 64 e))
      else
        let cs := (unpackElems 32 128 img).map fun e => some (BitVec.ofNat 32 e)
        if fmtACF x.fmt = 1 then .addI32 cs else .addF32 cs)

/-- MLDACC. -/
def execMldacc (l : LentC) (v : BitVec 7) (row : BitVec 9) (s : State) : Out :=
  s.slotC l (s.me.badUnit v.toNat row.toNat) fun x =>
    x.accWrite row.toNat (.set (BitVec.ofNat 8192 (x.group v.toNat x.unitRegs)))

/-- MZERO. -/
def execMzero (l : LentC) (row : BitVec 9) (s : State) : Out :=
  s.slotC l (s.me.badUnit 0 row.toNat) fun x => x.accWrite row.toNat (.set 0)

/-! ## Draining (R195 to R197) -/

/-- The destination types that an accumulate format accepts (R195). -/
def drainOk (acf : Nat) (t : Ty) : Bool :=
  if acf = 2 then t == .f64 || t == .f32
  else if acf = 1 then t == .i32 || t == .i16 || t == .i8 || t == .n8 || t == .f32
  else t == .f32 || t == .bf16 || t == .f16 || t == .e4m3 || t == .e5m2

/-- The type a unit holds its columns in. -/
def accTy (acf : Nat) : Ty := if acf = 2 then .f64 else if acf = 1 then .i32 else .f32

/-- The suffix .z zeroes the unit at the drain's own issue (R197). -/
def Strand.zeroUnit (x : Strand) (z : Bool) (row : Nat) : Strand := if z then x.accWrite row (.set 0) else x

/-- MDRAIN. -/
def execMdrain (l : LentC) (t : Ty) (z : Bool) (d : BitVec 7) (row : BitVec 9) (s : State) : Out :=
  let acf := fmtACF s.me.fmt
  s.slotC l (!drainOk acf t || (s.me.fp64 && row.toNat % 2 == 1)) fun x =>
    let w := (accTy acf).width
    let e := (unpackElems w 128 (x.drainUnit row.toNat)).map (convert (fmtRM x.fmt) (fmtSat x.fmt) t (accTy acf))
    let g := if t = .f64 then 2 else 1
    (x.pushGroup 6 d.toNat g allLanes 8 (512 * g) (packElems t.width e)).zeroUnit z row.toNat

/-- MDRAINQ. -/
def execMdrainq (l : LentC) (k : Bk) (z : Bool) (d : BitVec 7) (row : BitVec 9) (s : State) : Out :=
  s.slotC l (fmtACF s.me.fmt != 0) fun x =>
    let e := (unpackElems 32 128 (x.drainUnit row.toNat)).map Fmt.f32.value
    (x.pushGroup 8 d.toNat 1 allLanes 8 512 (blockImage k e)).zeroUnit z row.toNat

end Sys2Proof.Machine
end

