-- ==== Sys2Proof/Machine/Traps.lean ====
section
/-! DEFINITION. Events of traps and pre-emption: entering a handler (R283, R284), pending traps (R221, R290), resuming and aborting (R289,
R362), drain points, saving, and the expiry of the drain bound (R302 to R304). -/

namespace Sys2Proof.Machine

/-! ## Trap entry -/

/-- Trap entry of a bundle whose slot D has been accepted (R283, R284). -/
def State.trapEntry (s : State) (k : Nat) : State :=
  let i := (s.strand k).iss
  match i.trapped with
  | some (slot, c, v) => if i.await.isEmpty then s.trap k i.idx i.n i.handler false i.next i.perf ⟨c, slot, v, false, 0, 0⟩ else s
  | none => s

/-- TRAP_ENTRY. -/
def execTrapEntry (k : Nat) (s : State) : Out := .next (s.trapEntry k)

/-- A request or command of a strand counts as accepted for the trap of its bundle (R283). -/
def State.unawait (s : State) (k id : Nat) : State :=
  match Tbl.find s.strands k with
  | some x => s.setStrand k { x with iss := { x.iss with await := x.iss.await.filter fun i => i != id } }
  | none => s

/-- The bundle a strand would issue next has not issued: a pending trap may be taken before it (R285, R290). -/
def Strand.fresh (x : Strand) : Bool :=
  match x.replay with
  | some r => !r.again || r.first
  | none => true

/-- The pending trap that is taken before the next kernel bundle: the first that is pending; the end of a MAPR fill also where the held
bundle is a reissue (R290, R298). -/
def Strand.nextPending (x : Strand) : Option Pending :=
  if x.handler = false ∧ (x.life = .run ∨ x.life = .draining) ∧ x.iss.trapped.isNone = true ∧ x.halted = false then
    x.traps.find? fun p => p.arrival.isNone && (x.fresh || p.akind == 3 && p.cause == .address)
  else none

/-- The report of a pending trap (R281). -/
def Pending.report (p : Pending) : Report := ⟨p.cause, 0, p.tval, true, p.stage, p.akind⟩

/-- A pending trap is taken before its bundle issues (R290): EPC is that bundle, and no slot of it performs. -/
def State.takePending (s : State) (k : Nat) : State :=
  let x := s.strand k
  match x.nextPending with
  | none => s
  | some p =>
    let r := if x.fresh then none else x.replay
    let t := s.setStrand k { x with traps := x.traps.erase p }
    t.trap k x.pc x.sbn false ((r.map Replay.first).getD true) (r.bind Replay.next) ((r.map Replay.perf).getD 0) p.report

/-- PENDING_TRAP_TAKE. -/
def execPendingTrapTake (k : Nat) (s : State) : Out := .next (s.takePending k)

/-- The ADDRESS of a load whose arrival bundle reaches issue: pending in kernel mode, a trap not taken in handler mode; an ERET needs every
landing of the handler (R287, R290, R298). -/
def State.arriveAddress (s : State) (k n : Nat) : State :=
  let x := s.strand k
  let last : Bool := x.handler && slotInstr (x.bundleAt x.pc) 0 == some .eret
  let due := fun (p : Pending) => (p.arrival.map fun a => a.1 == x.handler && (last || decide (a.2 ≤ n))).getD false
  match x.traps.find? due with
  | none => s
  | some p =>
    if x.handler then
      (s.setStrand k { x with traps := x.traps.erase p }).trap k x.pc x.nextN true ((x.reissue.map Replay.first).getD true)
        (x.reissue.bind Replay.next) ((x.reissue.map Replay.perf).getD 0) p.report
    else s.setStrand k { x with
      traps := (x.traps.filter due).foldl (fun l q => queueTrap l { q with arrival := none, since := s.clk }) (x.traps.filter fun q => !due q) }

/-! ## Promises (R221, R222) -/

/-- A command is not complete when its core's CYC passes P + 256: PROMISE becomes pending in its strand, once. -/
def State.promiseCheck (s : State) (id : Nat) : State :=
  match s.cmd id with
  | none => s
  | some c =>
    if c.accepted.isSome = true ∧ c.kind.counted = true ∧ c.raised = false ∧ c.promise + 256 < s.cyc c.core then
      (s.onCmd id fun c => { c with raised := true }).pendTrap c.strand c.gtag ⟨.promise, BitVec.ofNat 64 c.promise, 0, 0, none, s.clk⟩
    else s

/-- PROMISE_EXPIRY. -/
def execPromiseExpiry (id : Nat) (s : State) : Out := .next (s.promiseCheck id)

/-! ## Commands of the guest (R362) -/

/-- A write of CTXCMD: the strand it names resumes or its group is aborted, if it waits under TPOL = 1 in the partition. -/
def State.ctxcmd (s : State) (p : Nat) (v : W64) : State :=
  let k := bits v.toNat 8 0
  let x := s.strand k
  if x.untaken.isSome = true ∧ x.part = p ∧ ((s.tdi p).map Partition.tpol) = some 1 then
    if v.toNat.testBit 9 then s.setStrand k x.resume else s.contextReset x.gtag .aborted
  else s

/-- CTXCMD_RESUME. -/
def execCtxcmdResume (p : Nat) (v : W64) (s : State) : Out := .next (if v.toNat.testBit 9 then s.ctxcmd p v else s)

/-- CTXCMD_ABORT. -/
def execCtxcmdAbort (p : Nat) (v : W64) (s : State) : Out := .next (if v.toNat.testBit 9 then s else s.ctxcmd p v)

/-! ## Pre-emption (R302 to R304) -/

/-- KROT, SEAL and UNSEAL stop when their strand enters DRAINING (R238). -/
def CmdKind.stops : CmdKind → Bool
  | .krot .. | .seal .. | .unseal .. => true
  | _ => false

/-- A strand under a pre-emption request enters DRAINING as soon as it is in RUN in kernel mode (R36, R288), after the bundle of the cycle in
which the request came (R37). -/
def State.enterDraining (s : State) (k : Nat) : State :=
  let x := s.strand k
  if x.drainAt.isSome = true ∧ x.asked = false ∧ x.life = .run ∧ x.handler = false then
    { s.setStrand k { x with life := .draining } with
      cmds := s.cmds.map fun c => if c.gtag == x.gtag && c.sidx == x.sidx && c.kind.stops then { c with stop := true } else c }
  else s

/-- A pre-emption request (R303): the bound of DPBOUND core cycles starts, in handler mode and FAULTWAIT too. A trap or DONE of the bundle
that issues in the same cycle voids it, and of one that has issued in it already (R37). -/
def State.preempt (s : State) (k : Nat) : State :=
  match Tbl.find s.strands k with
  | none => s
  | some x =>
    if x.life = .doneWait ∨ x.drainAt.isSome = true ∨ x.struck = true then s
    else s.setStrand k { x with drainAt := some (s.cyc (coreOf k) + x.image.dpbound), asked := true }

/-- A trap of the issuing bundle, or DONE, voids a pre-emption request of the same cycle (R37). -/
def Strand.voidAsk (x : Strand) : Strand :=
  if x.asked then { x with drainAt := none, asked := false, struck := true } else { x with struck := true }

/-- At the end of a cycle the request of this cycle that nothing voided takes effect (R37). -/
def State.endAsk (s : State) (k : Nat) : State :=
  let x := s.strand k
  if x.asked || x.struck then (s.setStrand k { x with asked := false, struck := false }).enterDraining k else s

/-- PREEMPT_REQUEST. -/
def execPreemptRequest (k : Nat) (s : State) : Out := .next (s.preempt k)

/-- Work of a strand that its save waits for: commands, stream slots, fills, side-log entries. -/
def State.busy (s : State) (x : Strand) : Bool :=
  (s.cmds.any fun c => c.gtag == x.gtag && c.sidx == x.sidx) ||
    (s.reqs.any fun r => r.gtag == x.gtag && r.sidx == x.sidx && r.stage == .sideLog)

/-- The conditions of a drain point in the bundle that issued as strand bundle `n` (R302). -/
def State.drainPoint (s : State) (k n : Nat) : Bool :=
  let x := s.strand k
  !x.handler && x.pend.all (fun w => decide (w.vis ≤ n + 1) && (w.land.isNone || decide (w.vis ≤ n))) &&
    x.accOps.all (fun a => decide (a.vis ≤ n + 1)) && !s.busy x && x.streams.isEmpty && x.mat.queue.isEmpty && x.mat.gathers.all (fun g => g.left.isEmpty) &&
    !(x.chunks.any Chunk.filling)

/-- A chunk as the save record lists it (R310): released and discarded ones read zeros at their next use, an unfilled one stays saved. -/
def Chunk.parked (x : Strand) (c : Chunk) : Chunk :=
  let dropped := c.released || (c.store == .spad && x.image.discard.any fun d => decide (d.1 ≤ c.index * 65536) && decide ((c.index + 1) * 65536 ≤ d.1 + d.2))
  let form := match c.form with
    | .live a b => if c.unfilled then .saved else if dropped then .zero else .inPlace a b
    | f => f
  { c with form := form, filling := false }

/-- The bytes of a store that its discarded or released chunks hold read zero after the save (R250, R310). -/
def dropChunks (cs : List Chunk) (st : Store) (m : Mem) : Mem :=
  cs.foldl (fun m c => if c.store = st ∧ c.form = .zero then Mem.zero m (c.index * storeUnit st) (storeUnit st) else m) m

/-- The part of a strand's state that a save keeps (R32, R33), with its windows. -/
def Strand.saved (x : Strand) : Strand :=
  let cs := x.chunks.map (Chunk.parked x)
  { Strand.idle with
    contract := x.contract, fov := x.fov, matrixOwn := x.matrixOwn, nvreg := x.nvreg, accRows := x.accRows, spadSize := x.spadSize
    sdmSize := x.sdmSize, gtag := x.gtag, sidx := x.sidx, gszm := x.gszm, part := x.part, wid := x.wid, widths := x.widths
    image := x.image, pc := x.pc, sbn := x.sbn, ord := x.ord, sreg := x.sreg, vreg := x.vreg, preg := x.preg, q := x.q, mreg := x.mreg
    kreg := x.kreg, rings := x.rings, loops := x.loops, fmt := x.fmt, epc := x.epc, tcause := x.tcause, tval := x.tval
    regOpen := x.regOpen, regStart := x.regStart, snap := x.snap
    accBase := dropChunks cs .acc x.accBase, spad := dropChunks cs .spad x.spad, sdm := dropChunks cs .sdm x.sdm
    maps := x.maps, chunks := cs }

/-- The physical chunks of a saved strand: PARKED where its record says IN_PLACE, FREE where it reads zeros or stays SAVED (R310). -/
def parkChunks (g sidx : Nat) (cs : List Chunk) (st : Store) (t : Tbl ChunkState) : Tbl ChunkState :=
  let mine := fun (c : ChunkState) => match c with
    | .live a b i => if a = g ∧ b = sidx then some i else none
    | _ => none
  t.filterMap fun e =>
    match mine e.2 with
    | none => some e
    | some i =>
      match cs.find? fun c => c.store == st && c.index == i with
      | some c => (match c.form with
        | .inPlace .. => some (e.1, .parked g sidx i)
        | .zero => if c.released then none else some (e.1, .parked g sidx i)
        | _ => none)
      | none => some e

/-- A strand goes off-core with the state given (R303): it joins the saved strands of its group, which is off-core once its last strand
is. -/
def State.offCore (s : State) (k : Nat) (y : Strand) : State :=
  let g := s.grp y.gtag
  let rest := g.strands.filter fun i => i != k
  let c := s.core (coreOf k)
  let t := { s with strands := Tbl.erase s.strands k }.setCore (coreOf k)
    { c with
      spadCh := parkChunks y.gtag y.sidx y.chunks .spad c.spadCh
      accCh := parkChunks y.gtag y.sidx y.chunks .acc c.accCh
      sdmCh := parkChunks y.gtag y.sidx y.chunks .sdm c.sdmCh }
  { t.setGrp y.gtag { g with
      strands := rest, saved := g.saved ++ [(y.sidx, { y with saveNo := s.saves + 1 })], saveNo := if rest.isEmpty then s.saves + 1 else g.saveNo } with
    saves := s.saves + 1 }

/-- A strand is saved at a drain point (R303): an open region closes, every write is visible, the record is written. -/
def State.saveStrand (s : State) (k : Nat) : State :=
  let t := { s with cur := k }.closeRegion
  let x := t.me
  let y := ((x.applyAll (sortWrites x.pend)).accSettle (x.sbn + 100))
  { t.offCore k y.saved with cur := s.cur }

/-- The strand as its region snapshot gives it (R301, R304): the vector window and the m and k registers stand as they are, results and
landings in flight are discarded, and a bound handle is unbound. -/
def Strand.restarted (x : Strand) (p : Snapshot) : Strand :=
  let y := (x.applyAll ((sortWrites x.pend).filter fun w => decide (w.vis ≤ x.sbn) && w.land.isNone)).accSettle x.sbn
  { y with
    accOps := []
    handler := false, pc := p.pc, sbn := p.sbn, fmt := p.fmt, regOpen := true, regStart := p.start, epc := p.epc, tcause := p.tcause
    tval := p.tval, sreg := p.sreg, preg := p.preg, q := p.q, fov := p.fov, loops := p.loops
    rings := p.rings.map fun e => (e.1, if e.2.bind = 0 then e.2 else { e.2 with bind := 0, infl := 0, free := e.2.free + e.2.infl })
    held := [], pend := [], pendH := [], replay := none, hreplay := none, traps := [], streams := [] }

/-- A request that only reads. -/
def ReqKind.isRead : ReqKind → Bool
  | .load | .kqry _ => true
  | _ => false

/-- A page fill. -/
def CmdKind.isFill : CmdKind → Bool
  | .fill .. => true
  | _ => false

/-- The drain bound expires (R304); in the cycle of the request itself it yields to a trap or DONE (R37). With a region open the strand stops: its held lines, results, landings, loads and fills are dropped,
and it is saved from its snapshot once its commands, stream slots and side-log entries have ended; otherwise its group ends. -/
def State.boundExpired (s : State) (k : Nat) : State :=
  match Tbl.find s.strands k with
  | none => s
  | some x =>
    if (x.drainAt.map fun t => decide (t ≤ s.cyc (coreOf k))).getD false = false ∨ x.asked = true ∨ x.halted = true ∨ x.life = .doneWait then s
    else if x.regOpen then
      let mine := fun (r : Req) => r.gtag == x.gtag && r.sidx == x.sidx && r.kind.isRead
      let fills := fun (c : Cmd) => c.gtag == x.gtag && c.sidx == x.sidx && c.kind.isFill
      let dead := (s.reqs.filter mine).map Req.id ++ (s.cmds.filter fills).map Cmd.id
      let t : State := { s with
        reqs := s.reqs.filter fun r => !mine r
        cmds := (s.cmds.filter fun c => !fills c).map fun c =>
          if c.gtag == x.gtag && c.sidx == x.sidx && c.kind.stops then { c with stop := true } else c
        faults := s.faults.filter fun f => !dead.contains f.waiter.2.1
        preqs := s.preqs.map fun e => { e with waiters := e.waiters.filter fun w => !dead.contains w.2.1 } }
      t.setStrand k
        { x with halted := true, life := .draining, held := [], iss := .none, streams := x.streams.map fun m => { m with stop := true } }
    else s.resetContext x.gtag .preemptTimeout

/-- DRAIN_BOUND_EXPIRY. -/
def execDrainBoundExpiry (k : Nat) (s : State) : Out := .next (s.boundExpired k)

/-- A strand is saved: at a drain point it has reached in DRAINING, or from its region snapshot once its work has ended (R303, R304). -/
def State.save (s : State) (k : Nat) : State :=
  match Tbl.find s.strands k with
  | none => s
  | some x =>
    if x.halted then
      match x.snap with
      | some p => if s.busy x then s else s.offCore k (x.restarted p).saved
      | none => s
    else if x.dpHit = true ∧ (x.life = .draining ∨ x.yielded = true) then s.saveStrand k
    else s

/-- STRAND_SAVE. -/
def execStrandSave (k : Nat) (s : State) : Out := .next (s.save k)

end Sys2Proof.Machine
end

