-- ==== Sys2Proof/Machine/Launch.lean ====
section
/-! DEFINITION. Lamplighter's queues and launches: reading records, images and initialisation lists (R338 to R345), the events of queues and
launches (R346, R350, R351), and the reads and writes it makes through both stages (R339). -/

namespace Sys2Proof.Machine

/-! ## Reads and writes of class SYS -/

/-- The physical places of a range of a partition, if every page of it is mapped for the access in local memory. -/
def State.sysPlaces (s : State) (p va n : Nat) (wr : Bool) : Option (List (Nat × Nat)) :=
  (spans (n / 4096 + 2) va n).foldr
    (fun e acc => match s.walk p e.1 (!wr) wr, acc with
      | .ok t, some l => let a := t.phys e.1; if a.fab ∨ s.poisonedIn a.pa e.2 = true then none else some ((a.pa, e.2) :: l)
      | _, _ => none) (some [])

/-- Reads or writes of class SYS in a range are done: their misses are counted, and poison that they met is reported (R322, R328). -/
def State.sysTouch (s : State) (p va n : Nat) (wr : Bool) : State :=
  (spans (n / 4096 + 2) va n).foldl (fun (t : State) e => match s.walk p e.1 (!wr) wr with
    | .ok r =>
      let a := r.phys e.1
      if a.fab then t else let u := t.sysMiss 32 (pageOf a.pa); if s.poisonedIn a.pa e.2 then u.poisonRecord p a.pa else u
    | .error (.poison a) => t.poisonRecord p a
    | .error (.stage _) => t) s

/-- Bytes as Lamplighter reads them: performed memory, through both stages; none where a page faults (R339). -/
def State.sysRead (s : State) (p va n : Nat) : Option (List Byte) :=
  (s.sysPlaces p va n false).map fun l => l.flatMap fun e => Mem.readN s.mem e.1 e.2

/-- Bytes as Lamplighter writes them; nothing where a page is not mapped for writing. -/
def State.sysWrite (s : State) (p va : Nat) (b : List Byte) : State :=
  match s.sysPlaces p va b.length true with
  | none => s
  | some l => (l.foldl (fun (e : State × List Byte) a => (e.1.put a.1 (e.2.take a.2), e.2.drop a.2)) (s, b)).1

/-- A write of class SYS waits for lines that are locked or whose minor counters are at their end, and starts the rewrites that it waits for
(R321, R324). -/
def State.sysHeld (s : State) (p va n : Nat) : Option State :=
  let ls := ((s.sysPlaces p va n true).getD []).flatMap fun e => linesIn e.1 e.2
  if ls.any fun l => s.lineWaits l true then some (ls.foldl (fun (t : State) l => t.holdLine l true) s) else none

/-- Words of 8 bytes. -/
def bytesWords (b : List Byte) : List W64 := (groupsOf 8 (b.length / 8) b).map fun w => BitVec.ofNat 64 (leNat w)

/-- Lamplighter's records are read while the partition takes requests. -/
def Partition.open' (q : Partition) : Bool := !q.refuse && q.tdisp == .run

/-! ## Launch records (R340) -/

/-- An address field: the local half, aligned. -/
def addrOk (a n : Nat) : Bool := decide (a < 2 ^ 47) && a % n == 0

/-- The widths of the work identifier's fields. -/
def recWidths (ws : List W64) : List Nat := (List.range (bits (wordAt ws 0) 10 8)).map fun i => bits (wordAt ws 6) (8 * i + 6) (8 * i)

/-- A launch record breaks no rule of R340. -/
def recordOk (ws : List W64) : Bool :=
  let w := wordAt ws
  let nf := bits (w 0) 10 8
  let ind := (w 0).testBit 16
  let gang := (w 0).testBit 17
  bits (w 0) 7 0 == 1 && decide (nf ≤ 6) && !(w 0).testBit 11 && !(w 0).testBit 19 && bits (w 0) 63 27 == 0 &&
    ((w 0).testBit 18 || bits (w 0) 23 20 == 0) && addrOk (w 1) 64 && addrOk (w 2) 1 && bits (w 3) 63 32 == 0 &&
    (if ind then addrOk (w 4) 8 else w 4 == 0) && bits (w 6) 63 48 == 0 &&
    ((List.range 6).all fun i => !(w 6).testBit (8 * i + 7) &&
      (let x := bits (w 6) (8 * i + 6) (8 * i); if i < nf then decide (1 ≤ x) && decide (x ≤ 64) else x == 0)) &&
    decide ((recWidths ws).foldl (· + ·) 0 ≤ 64) && addrOk (w 7) 16 && addrOk (w 8) 4 && bits (w 9) 63 32 == 0 && bits (w 10) 47 42 == 0 &&
    (if gang then decide (1 ≤ bits (w 10) 36 32) && decide (bits (w 10) 41 37 ≤ bits (w 10) 36 32) else bits (w 10) 31 0 == 0) &&
    addrOk (w 11) 4 && w 12 == 0 && w 13 == 0 && w 14 == 0 && w 15 == 0

/-- Strands per group. -/
def Launch.size (l : Launch) : Nat := bits (wordAt l.words 0) 15 12 + 1

/-- A gang launch. -/
def Launch.gang (l : Launch) : Bool := (wordAt l.words 0).testBit 17

/-- A job of a contract, by its number. -/
def Launch.job (l : Launch) : Option Nat := if (wordAt l.words 0).testBit 18 then some (bits (wordAt l.words 0) 23 20) else none

/-! ## Images (R341, R342) -/

/-- An image descriptor breaks no rule of R341; TVEC is tested against NBUN only where HNDL makes it a handler's entry (log entry 101). -/
def imageOk (ws : List W64) : Bool :=
  let w := wordAt ws
  let r := fun (x lo hi : Nat) => decide (lo ≤ x) && decide (x ≤ hi)
  bits (w 0) 7 0 == 1 && r (bits (w 0) 12 8) 1 16 && r (bits (w 0) 17 13) 1 16 && r (bits (w 0) 22 18) 1 24 && r (bits (w 0) 27 23) 1 16 &&
    bits (w 0) 31 30 == 0 && bits (w 0) 63 45 == 0 && bits (w 1) 63 48 == 0 && w 1 % 64 == 0 && r (w 2) 1 8192 &&
    (!(w 0).testBit 29 || decide (bits (w 0) 44 32 < w 2)) && bits (w 3) 63 32 == 0 && bits (w 4) 63 48 == 0 && w 4 % 8 == 0 &&
    bits (w 5) 63 16 == 0 && w 6 == 0 && w 7 == 0

/-- The image of a descriptor, its code and its initialisation list. -/
def imageOf (desc : Nat) (ws : List W64) (code : List Byte) (init : List W64) : Image :=
  let w0 := wordAt ws 0
  { desc := desc
    nbun := wordAt ws 2
    code := ((groupsOf 16 (wordAt ws 2) code).zipIdx.filterMap fun e =>
      let x := BitVec.ofNat 128 (leNat e.1)
      if x = 0 then none else some (e.2, x))
    tvec := if w0.testBit 29 then some (bits w0 44 32) else none
    dpbound := wordAt ws 3
    vr6 := bits w0 12 8
    acc32 := bits w0 17 13
    sp64 := bits w0 22 18
    sdm4 := bits w0 27 23
    matrix := w0.testBit 28
    init := init
    discard := [] }

/-- A strand with the windows of an image (R12, R34), before its initialisation list. -/
def windowStrand (i : Image) : Strand :=
  { Strand.idle with
    image := i, matrixOwn := i.matrix, nvreg := 6 * i.vr6, accRows := 32 * i.acc32, spadSize := 65536 * i.sp64, sdmSize := 4096 * i.sdm4 }

/-- One item of an initialisation list applied to a strand (R342); none where R342 rejects it. -/
def applyItem (x : Strand) (hd : W64) (ws : List W64) : Option Strand :=
  let h := hd.toNat
  let n := bits h 15 8
  let hnd := bits h 19 16
  if bits h 63 21 ≠ 0 ∨ ws.length ≠ n then none
  else match bits h 7 0 with
    | 1 =>
      let off := bits (wordAt ws 0) 31 0
      let b := (ws.drop 1).flatMap fun w => natLe 8 w.toNat
      if n = 0 then none
      else match bits (wordAt ws 0) 33 32 with
        | 0 => if x.spadSize < off + b.length then none else some { x with spad := Mem.writeN x.spad off b }
        | 1 => if 512 * x.accRows < off + b.length then none else some { x with accBase := Mem.writeN x.accBase off b }
        | 2 => if x.sdmSize < off + b.length then none else some { x with sdm := Mem.writeN x.sdm off b }
        | _ => none
    | 2 =>
      let new := ringOf (x.ring hnd) ((ws[0]?).getD 0)
      if n = 1 ∧ ringOk x.spadSize (x.ring hnd) new = true then some (x.setRing hnd (if new.en then new.fresh else new)) else none
    | 3 =>
      let counts := (List.range 4).map fun k => wordAt ws (k + 1)
      if n = 9 ∧ wordAt ws 0 < 2 ^ 47 ∧ streamOk (x.ring hnd) counts = true then
        some (x.bindStream hnd (h.testBit 20) (wordAt ws 0) counts ((List.range 4).map fun k => ((ws[k + 5]?).getD 0).toInt) 0 0)
      else none
    | 4 =>
      let more := if h.testBit 20 then [(bits (wordAt ws 0) 31 0, bits (wordAt ws 0) 63 32)] else []
      if n = 1 then some { x with image := { x.image with discard := x.image.discard ++ more } } else none
    | _ => none

/-- An initialisation list applied to a strand. -/
def applyInit : Nat → List W64 → Strand → Option Strand
  | _, [], x => some x
  | 0, _ :: _, _ => none
  | f + 1, hd :: r, x =>
    let n := bits hd.toNat 15 8
    (applyItem x hd (r.take n)).bind (applyInit f (r.drop n))

/-- Reading an image descriptor, its code and its list: the image, or the status with which the launch ends. -/
def State.readImage (s : State) (p a : Nat) : Except Status Image :=
  match s.sysRead p a 64 with
  | none => .error .fault
  | some d =>
    let ws := bytesWords d
    if imageOk ws = false then .error .badImage
    else match s.sysRead p (wordAt ws 1) (16 * wordAt ws 2), (if wordAt ws 4 = 0 then some [] else s.sysRead p (wordAt ws 4) (8 * wordAt ws 5)) with
      | some code, some init =>
        let i := imageOf a ws code (bytesWords init)
        if (applyInit i.init.length i.init (windowStrand i)).isSome then .ok i else .error .badImage
      | _, _ => .error .fault

/-! ## Queues (R338, R339) -/

/-- A queue of a partition. -/
def Partition.queue (q : Partition) (n : Nat) : Lq := Tbl.getD q.lqs n Lq.reset

/-- Replaces a queue. -/
def Partition.setQueue (q : Partition) (n : Nat) (l : Lq) : Partition := { q with lqs := Tbl.put Lq.reset q.lqs n l }

/-- A contract of a partition. -/
def Partition.ctr (q : Partition) (n : Nat) : Contract := Tbl.getD q.ctrs n Contract.reset

/-- Replaces a contract. -/
def Partition.setCtr (q : Partition) (n : Nat) (c : Contract) : Partition := { q with ctrs := Tbl.put Contract.reset q.ctrs n c }

/-- The launch queue of a contract (R353). -/
def Contract.lq (c : Contract) : Nat := bits c.c.toNat 5 3

/-- A contract that is admitted, or that is being removed while its job runs. -/
def Contract.live (c : Contract) : Bool := c.state == 1 || c.state == 3

/-- The contract whose jobs a queue carries. -/
def Partition.queueCtr (q : Partition) (n : Nat) : Option Nat := (List.range 16).find? fun i => (q.ctr i).live && (q.ctr i).lq == n

/-- LQCFG (R338). -/
def Lq.configure (l : Lq) (v : W64) : Lq :=
  let x := v.toNat
  if l.en then (if x.testBit 0 then l else { l with en := false })
  else if x.testBit 0 then
    if bits x 51 48 < 4 ∨ 12 < bits x 51 48 ∨ x.testBit 47 = true then l
    else ⟨true, bits x 2 1, bits x 47 12 * 4096, bits x 51 48, 0, 0, []⟩
  else { l with cls := bits x 2 1, base := bits x 47 12 * 4096, lsz := bits x 51 48 }

/-- LQCFG_WRITE. -/
def execLqcfgWrite (p n : Nat) (v : W64) (s : State) : Out :=
  .next (s.onTdi p fun q => if n < 8 then q.setQueue n ((q.queue n).configure v) else q)

/-- LQNOTIFY_WRITE (R338). -/
def execLqnotifyWrite (p n : Nat) (v : W64) (s : State) : Out :=
  match s.tdi p with
  | none => .next s
  | some q =>
    let l := q.queue n
    let tail := bits v.toNat 31 0
    if 8 ≤ n ∨ l.en = false then .next s
    else if 2 ^ l.lsz < (tail + 2 ^ 32 - l.head) % 2 ^ 32 then .next (s.event p 12 noStrand n (place tail 63 32) 0)
    else .next (s.onPart p fun q => q.setQueue n { l with tail := tail })

/-- A launch that ends before its remaining groups, with a status of its own unless a group ended abnormally before (R346). -/
def Launch.ends (l : Launch) (st : Status) : Launch :=
  { l with status := if l.status = .ok then st else l.status, count := some l.next, waitMet := true, cut := true }

/-- A launch as it is when its record has been read. -/
def newLaunch (id p n seq : Nat) (ws : List W64) : Launch :=
  { id := id, part := p, lq := n, seq := seq, words := ws, image := .empty, waitMet := decide (wordAt ws 8 = 0)
    count := if (wordAt ws 0).testBit 16 then none else some (bits (wordAt ws 3) 31 0)
    next := 0, dispatched := 0, completed := 0, discarded := 0, status := .ok, passed := none, starved := false, tags := []
    jobNo := 0, deadline := 0, used := 0, overrun := false, late := false, cut := false }

/-- The launch that a record gives: words and image read (the image once, with the record: log entry 101) and checked, a marked one cancelled (R339, R340, R350), one that breaks a
contract's rules ended with NO_CONTRACT (R356). -/
def State.readLaunch (s : State) (id p n seq base : Nat) (marked : Bool) (jobOk : Launch → Bool) : Launch :=
  match s.sysRead p base 128 with
  | none => (newLaunch id p n seq []).ends .fault
  | some b =>
    let l := newLaunch id p n seq (bytesWords b)
    if recordOk l.words = false then l.ends .badRecord
    else if marked then { l.ends .cancelled with discarded := bits (wordAt l.words 3) 31 0 }
    else if jobOk l = false then l.ends .noContract
    else match s.readImage p (wordAt l.words 1) with
      | .error e => l.ends e
      | .ok i => { l with image := i }

/-- The ranges that the reading of an image took, by its descriptor's address. -/
def State.imageReads (s : State) (p a : Nat) : List (Nat × Nat) :=
  let ws := ((s.sysRead p a 64).map bytesWords).getD []
  (a, 64) :: (if imageOk ws then [(wordAt ws 1, 16 * wordAt ws 2), (wordAt ws 4, if wordAt ws 4 = 0 then 0 else 8 * wordAt ws 5)] else [])

/-- Lamplighter reads the next record of a queue that is enabled, and advances HEAD; a fault raises LAUNCH_ERROR (R338, R339). `f` sets what a job
has besides (R356). -/
def State.readNext (s : State) (p n : Nat) (jobOk : Launch → Bool) (f : Launch → Launch) : State :=
  match s.part p with
  | none => s
  | some q =>
    let l := q.queue n
    if l.head = l.tail ∨ l.en = false then s
    else
      let i := s.fresh
      let base := l.base + 128 * (l.head % 2 ^ l.lsz)
      let x := f (s.readLaunch i.1 p n l.head base (l.marked.contains l.head) jobOk)
      let reads := (base, 128) :: (if x.status = .ok ∨ x.status = .badImage ∨ (x.status = .fault ∧ x.words ≠ []) then s.imageReads p (wordAt x.words 1) else [])
      let r := reads.foldl (fun (t : State) e => t.sysTouch p e.1 e.2 false) i.2
      let t := r.onPart p fun q => q.setQueue n { l with head := (l.head + 1) % 2 ^ 32, marked := l.marked.filter fun k => k != l.head }
      let w := wordAt x.words 10
      let g : Gang := ⟨bits w 31 0, bits w 36 32 + 1, bits w 41 37, bits w 63 48, none, [], false, p, x.id⟩
      let u := { t with launches := t.launches ++ [x], gangs := if x.gang && x.status == .ok then t.gangs ++ [g] else t.gangs }
      if x.status = .fault then u.event p 12 noStrand n (statusCode .fault + place l.head 63 32) 0 else u

/-- LAUNCH_RECORD_READ: a queue that carries a contract's jobs is read at its releases only (R353, R356). -/
def execLaunchRecordRead (p n : Nat) (s : State) : Out :=
  match s.part p with
  | some q =>
    if n < 8 ∧ (q.queue n).en = true ∧ q.open' = true ∧ (q.queueCtr n).isNone = true then .next (s.readNext p n (fun l => l.job.isNone) id) else .next s
  | none => .next s

/-- A launch has no groups to come and none that exist (R346). -/
def State.launchOver (s : State) (l : Launch) : Bool :=
  (l.count.map fun n => decide (n ≤ l.next)).getD false && l.tags.all fun g => (Tbl.find s.groups g).isNone

/-- The earlier launches of the queue are not waiting for a flag word (R345). -/
def State.notBehindWait (s : State) (l : Launch) : Bool :=
  s.launches.all fun e => e.part != l.part || e.lq != l.lq || e.waitMet || decide (l.id ≤ e.id)

/-- LAUNCH_WAIT_POLL: the oldest launch of its queue reads its flag word (R345). -/
def State.pollWait (s : State) (p n seq : Nat) : State :=
  match s.launchWhere p n seq fun l => !l.waitMet && s.notBehindWait l with
  | none => s
  | some l =>
    let t := s.sysTouch p (wordAt l.words 8) 4 false
    match s.sysRead p (wordAt l.words 8) 4 with
    | none => (t.onLaunch l.id fun l => l.ends .fault).event p 12 noStrand n (statusCode .fault + place seq 63 32) 0
    | some b => if wordAt l.words 9 ≤ leNat b then t.onLaunch l.id fun l => { l with waitMet := true } else t

/-- LAUNCH_WAIT_POLL. -/
def execLaunchWaitPoll (p n seq : Nat) (s : State) : Out := .next (s.pollWait p n seq)

/-- The completion record of a launch (R346). -/
def Launch.record (l : Launch) : List Byte :=
  wordBytes [place (statusCode l.status) 7 0 + place l.dispatched 63 32, place l.completed 31 0 + place l.discarded 63 32]

/-- Every write of the launch's groups has been performed (R346). -/
def State.groupsPerformed (s : State) (l : Launch) : Bool := !(s.reqs.any fun r => l.tags.contains r.gtag && r.writes)

/-- A launch completes: its record is written, then DONEFLAG is incremented (R346), once neither write waits (R321). -/
def State.completeLaunch (s : State) (p n seq : Nat) : State :=
  match s.launchWhere p n seq fun l => s.launchOver l && s.groupsPerformed l with
  | none => s
  | some l =>
    let d := wordAt l.words 7
    let f := wordAt l.words 11
    match (if d = 0 then none else s.sysHeld p d 16).or (if f = 0 then none else s.sysHeld p f 4) with
    | some t => t
    | none =>
      let t := if d = 0 then s else (s.sysWrite p d l.record).sysTouch p d 16 true
      let u := if f = 0 then t
        else match t.sysRead p f 4 with
          | some b => (t.sysWrite p f (natLe 4 (leNat b + 1))).sysTouch p f 4 true
          | none => t
      { u with
        launches := u.launches.filter fun e => e.id != l.id
        gangs := u.gangs.filter fun g => g.launch != l.id }

/-- LAUNCH_COMPLETE. -/
def execLaunchComplete (p n seq : Nat) (s : State) : Out := .next (s.completeLaunch p n seq)

/-! ## Cancel (R350, R351) -/

/-- The groups of a launch that exist. -/
def State.launchGroups (s : State) (l : Launch) : List Nat := l.tags.filter fun g => (Tbl.find s.groups g).isSome

/-- The undispatched groups of a launch are discarded. -/
def Launch.discard (l : Launch) : Launch :=
  let n := l.count.getD (bits (wordAt l.words 3) 31 0)
  { l with
    discarded := l.discarded + (n - l.next)
    count := some l.next
    waitMet := true
    cut := l.cut || decide (l.next < n)
    status := if l.status = .ok ∧ l.next < n then .cancelled else l.status }

/-- A cancel of a launch in progress; `now` names the groups dispatched in the cancel cycle, which it always aborts (R351). A cancel with ABORT = 1 is a TDI's request of rung 2 (R364). -/
def State.cancelLaunch (s : State) (l : Launch) (abort : Bool) (now : List Nat) : State :=
  let gs := (s.launchGroups l).filter fun g => abort || now.contains g
  let t := s.onLaunch l.id fun l =>
    let m := l.discard
    { m with status := if gs.isEmpty then m.status else l.status }
  gs.foldl (fun t g => if abort then t.resetContext g .cancelledAfterDispatch else t.contextReset g .cancelledAfterDispatch) t

/-- The groups that were dispatched in this cycle. -/
def State.dispatchedNow (s : State) : List Nat :=
  (s.groups.filter fun g => g.2.born == s.clk).map Prod.fst

/-- LCANCEL (R350): the cancel acts at once, and BUSY is 1 to the end of its cycle; a write that finds BUSY = 1 is ignored. -/
def State.cancel (s : State) (p : Nat) (v : W64) : State :=
  let n := bits v.toNat 2 0
  let seq := bits v.toNat 63 32
  match s.tdi p with
  | none => s
  | some q =>
    if q.cancelBusy then s
    else
      let t := s.onPart p fun q => { q with cancelBusy := true }
      match t.launchWhere p n seq fun _ => true with
      | some l => t.cancelLaunch l (v.toNat.testBit 3) t.dispatchedNow
      | none =>
        let x := q.queue n
        if x.en = true ∧ (seq + 2 ^ 32 - x.head) % 2 ^ 32 < (x.tail + 2 ^ 32 - x.head) % 2 ^ 32 then
          t.onPart p fun q => q.setQueue n { x with marked := x.marked ++ [seq] }
        else t

/-- LCANCEL_WRITE. -/
def execLcancelWrite (p : Nat) (v : W64) (s : State) : Out := .next (s.cancel p v)

end Sys2Proof.Machine
end

