-- ==== Sys2Proof/Machine/Lamplighter.lean ====
section
/-! DEFINITION. The die Lamplighters: fitting, claiming, dispatch and restore of groups (R309 to R313, R343 to R349), YIELD (R125), lending
and reclaim (R336, R337), contracts (R353 to R358) and gangs (R359, R360). -/

namespace Sys2Proof.Machine

/-! ## Clusters of a partition (R334 to R337) -/

/-- The guaranteed clusters, ascending. -/
def Partition.guaranteed (q : Partition) : List Nat := (List.range 32).filter fun i => (wordAt q.desc 0).testBit i

/-- The margin clusters, ascending. -/
def Partition.margin (q : Partition) : List Nat := (List.range 32).filter fun i => (wordAt q.desc 0).testBit (32 + i)

/-- A cluster is neither lent nor under reclaim. -/
def State.unlent (s : State) (c : Nat) : Bool := (s.cluster c).lentTo.isNone && (s.cluster c).reclaim.isNone

/-- The clusters that a partition has borrowed and may use, ascending. -/
def State.borrowed (s : State) (p : Nat) : List Nat :=
  (List.range 32).filter fun c => (s.cluster c).lentTo == some p && (s.cluster c).reclaim.isNone

/-- The clusters that are tried for a group, in order (R348). -/
def State.tried (s : State) (p : Nat) : List Nat :=
  match s.part p with
  | none => []
  | some q => q.guaranteed ++ q.margin.filter s.unlent ++ s.borrowed p

/-- The contracts that a cluster hosts (R354). -/
def State.hosted (s : State) (c : Nat) : List Contract :=
  s.parts.flatMap fun e => (e.2.ctrs.map Prod.snd).filter fun k => k.live && k.cluster == c

/-- The window fields of a contract in units: vector registers ÷ 6, ACC ÷ 32, SPAD ÷ 64 KiB, SDM ÷ 4 KiB. -/
def Contract.windows (c : Contract) : Nat × Nat × Nat × Nat :=
  (bits c.c.toNat 10 6, bits c.c.toNat 15 11, bits c.c.toNat 20 16, bits c.c.toNat 25 21)

/-- The largest windows among contracts: what each core reserves (R354). -/
def largest (l : List Contract) : Nat × Nat × Nat × Nat :=
  l.foldl (fun m c => let w := c.windows; (max m.1 w.1, max m.2.1 w.2.1, max m.2.2.1 w.2.2.1, max m.2.2.2 w.2.2.2)) (0, 0, 0, 0)

/-! ## Fitting (R347) -/

/-- What a group asks of a cluster: its image, its strands, and whether it is a contracted job. -/
structure Shape where
  image : Image
  size  : Nat
  job   : Bool
  deriving DecidableEq, Repr

/-- Two images are the same (R35). -/
def sameImage (a b : Image) : Bool := a.desc == b.desc && a.code == b.code && a.nbun == b.nbun

/-- A core takes `n` strands of a shape beside the strands that run on it (R12, R13, R35, R347). For a best-effort group the windows `r` that the
core reserves stay free, of which a running job's windows are a part (R354). -/
def State.coreRoom (s : State) (x : Shape) (r : Nat × Nat × Nat × Nat) (core n : Nat) : Bool :=
  let o := [2 * core, 2 * core + 1].filterMap fun k => Tbl.find s.strands k
  let room := fun (f : Strand → Nat) (kept more most : Nat) =>
    let sum := fun (l : List Strand) => (l.map f).foldl (· + ·) 0
    decide ((if x.job then sum o else sum (o.filter fun y => !y.contract) + max kept (sum (o.filter Strand.contract))) + n * more ≤ most)
  o.all (fun y => sameImage y.image x.image || decide (y.image.nbun + x.image.nbun ≤ 8192)) &&
    room Strand.nvreg (6 * r.1) (6 * x.image.vr6) 96 && room Strand.accRows (32 * r.2.1) (32 * x.image.acc32) 512 &&
    room Strand.spadSize (65536 * r.2.2.1) (65536 * x.image.sp64) (24 * 65536) && room Strand.sdmSize (4096 * r.2.2.2) (4096 * x.image.sdm4) 65536 &&
    (!x.image.matrix || (n == 1 && !(o.any Strand.matrixOwn)))

/-- The free slots of a cluster that a group takes, in ascending order, if it fits (R347). -/
def State.fit (s : State) (x : Shape) (c : Nat) : Option (List Nat) :=
  let h := s.hosted c
  let r := if x.job then (0, 0, 0, 0) else largest h
  let slots := (List.range 16).foldl (fun (l : List Nat) i =>
    let k := 16 * c + i
    let n := (l.filter fun j => j / 2 == k / 2).length + 1
    let may := if x.job then i % 2 == 1 else h.isEmpty || i % 2 == 0
    if l.length < x.size ∧ may = true ∧ (Tbl.find s.strands k).isNone = true ∧ s.coreRoom x r (k / 2) n = true then l ++ [k] else l) []
  if slots.length = x.size then some slots else none

/-! ## The order of offers (R348) -/

/-- A group that is offered: of a saved group its tag, of a new one its launch and index. -/
structure Offer where
  part   : Nat
  cls    : Nat
  ctr    : Option Nat
  saved  : Option Nat
  launch : Option Nat
  index  : Nat
  shape  : Shape
  deriving DecidableEq, Repr

/-- Which group an offer offers. -/
def Offer.key (o : Offer) : Bool × Nat × Nat :=
  match o.saved with
  | some g => (true, g, 0)
  | none => (false, o.launch.getD 0, o.index)

/-- The jobs of a contract that are released and have not ended (R356). -/
def State.openJobs (s : State) (p i : Nat) : List Launch := s.launches.filter fun l => l.part == p && l.job == some i && !s.launchOver l

/-- The image of a saved group. -/
def Group.image (g : Group) : Image := ((g.saved.head?).map fun e => e.2.image).getD .empty

/-- A group is off-core. -/
def Group.off (g : Group) : Bool := g.strands.isEmpty && !g.saved.isEmpty

/-- The offer of a saved group. -/
def Group.offer (g : Group) : Offer := ⟨g.part, g.cls, g.contract, some g.gtag, Option.none, 0, ⟨g.image, g.saved.length, g.contract.isSome⟩⟩

/-- The offer of a launch's next group. -/
def Launch.offer (l : Launch) (cls : Nat) (ctr : Option Nat) : Offer :=
  ⟨l.part, cls, ctr, none, some l.id, l.next, ⟨l.image, l.size, ctr.isSome⟩⟩

/-- A launch has a group to dispatch, as far as its queue and its partition go (R343 to R345, R348): also after one of its groups has ended
abnormally (R346). -/
def State.launchReady (s : State) (l : Launch) : Bool :=
  l.waitMet && (l.count.map fun n => decide (l.next < n)).getD true && s.notBehindWait l &&
    (((s.part l.part).map fun q => q.open').getD false)

/-- A partition holds as many groups as it may: its launches are passed over (R348). -/
def State.fullOf (s : State) (p : Nat) : Bool := decide (4096 ≤ (s.groups.filter fun g => g.2.part == p).length)

/-- The group of a launch that exists, if any. -/
def State.groupIn (s : State) (l : Launch) : Option Group := (l.tags.find? fun g => (Tbl.find s.groups g).isSome).map s.grp

/-- The contract of a launch that is a job. -/
def State.jobCtr (s : State) (l : Launch) : Option (Nat × Contract) :=
  match l.job, s.part l.part with
  | some i, some q => some (i, q.ctr i)
  | _, _ => none

/-- The jobs that a cluster may run now: none while it runs one, else the released, unfinished ones by deadline and contract (R356, R358). -/
def State.jobOffers (s : State) : List Offer :=
  let jobs := s.launches.filterMap fun l =>
    match s.jobCtr l with
    | none => none
    | some (i, c) =>
      let busy := s.groups.any fun g => g.2.contract.isSome && g.2.cluster == c.cluster && !g.2.strands.isEmpty
      if c.live = false ∨ busy = true ∨ l.overrun = true ∨ s.launchOver l = true then none
      else match s.groupIn l with
        | some x => if x.off then some (l.deadline, i, x.offer) else none
        | none => if s.launchReady l = true ∧ s.fullOf l.part = false then some (l.deadline, i, l.offer 0 (some i)) else none
  (sortBy (fun e => e.1 * 16 + e.2.1) jobs).map fun e => e.2.2

/-- The launches of a queue that may dispatch, in the order in which they were read. -/
def State.queueLaunches (s : State) (p n : Nat) : List Launch :=
  if s.fullOf p then [] else s.launches.filter fun l => l.part == p && l.lq == n && l.job.isNone && s.launchReady l

/-- The class of a queue. -/
def State.queueClass (s : State) (p n : Nat) : Nat := ((s.part p).map fun q => (q.queue n).cls).getD 0

/-- The offers of one class: saved groups, oldest save first, then launches in the rotation of queues. -/
def State.classOffers (s : State) (cls : Nat) : List Offer :=
  let saved := (s.groups.map Prod.snd).filter fun g => g.off && g.cls == cls && g.contract.isNone
  let start := (Tbl.getD s.lastLq cls 127 + 1) % 128
  (sortBy Group.saveNo saved).map Group.offer ++
    (List.range 128).flatMap fun j =>
      let i := (start + j) % 128
      if s.queueClass (i / 8) (i % 8) = cls then (s.queueLaunches (i / 8) (i % 8)).map fun l => l.offer cls none else []

/-- Every offer in the front end's order. -/
def State.offers (s : State) : List Offer := s.jobOffers ++ [0, 1, 2, 3].flatMap s.classOffers

/-- A group fits a cluster when it is empty. -/
def State.fitsEmpty (s : State) (x : Shape) (c : Nat) : Bool :=
  (({ s with strands := s.strands.filter fun e => clusterOf e.1 != c } : State).fit x c).isSome

/-- A launch's group can fit some cluster of its partition when every cluster is empty but for what contracts reserve; that of a job fits its
contract's cluster (R347). -/
def State.placeable (s : State) (l : Launch) : Bool :=
  match s.jobCtr l with
  | some (_, c) => s.fitsEmpty ⟨l.image, l.size, true⟩ c.cluster
  | none => ((s.part l.part).map fun q => (q.guaranteed ++ q.margin).any fun c => s.fitsEmpty ⟨l.image, l.size, false⟩ c).getD false

/-- The clusters that a starved launch keeps for itself against an offer: the lowest that its group would fit when empty (R348). -/
def State.keptFrom (s : State) (o : Offer) : List Nat :=
  s.launches.filterMap fun l =>
    let cls := s.queueClass l.part l.lq
    if l.starved && l.part == o.part && decide (cls ≤ o.cls) && o.launch != some l.id && s.launchReady l then
      ((s.tried l.part).filter (s.fitsEmpty ⟨l.image, l.size, false⟩)).min?
    else none

/-- The clusters tried for an offer: a job's own cluster; borrowed ones only without a contract and with a short drain bound (R336). -/
def State.tries (s : State) (o : Offer) : List Nat :=
  match o.ctr with
  | some i => ((s.part o.part).map fun q => [(q.ctr i).cluster]).getD []
  | none =>
    let b := s.borrowed o.part
    (s.tried o.part).filter fun c => !(s.keptFrom o).contains c && (!b.contains c || decide (o.shape.image.dpbound ≤ 10000))

/-- The first cluster that an offer fits, and its slots. -/
def State.firstFit (s : State) (o : Offer) : Option (Nat × List Nat) :=
  (s.tries o).findSome? fun c => (s.fit o.shape c).map fun l => (c, l)

/-- A die has dispatched a group in this cycle (R348). -/
def State.dieUsed (s : State) (c : Nat) : Bool := Tbl.find s.lastDisp (c / 8) == some s.clk

/-- A group saved at a YIELD waits for the group that it made way for while that one fits the cluster it has left (R348). -/
def State.yields (s : State) (os : List Offer) (o : Offer) : Bool :=
  match o.saved with
  | some g =>
    (match (s.grp g).yieldTo with
    | some k => os.any fun e => e.key == k && (s.tries e).contains (s.grp g).cluster && (s.fit e.shape (s.grp g).cluster).isSome
    | none => false)
  | none => false

/-- A saved group has a chunk that is being saved for another strand: its restore waits (R313). -/
def State.savingOf (s : State) (o : Offer) : Bool :=
  match o.saved with
  | some g => s.cores.any fun e => [e.2.spadCh, e.2.accCh, e.2.sdmCh].any fun t => t.any fun c => match c.2 with
    | .saving a _ _ => a == g
    | _ => false
  | none => false

/-- A chunk of a cluster is being saved for no strand of its core: who needs it waits (R313). -/
def State.savesOn (s : State) (c : Nat) : Bool := s.looseSaves.any fun e => e.1 / 8 == c

/-- The offer that is served next, with its cluster and slots. -/
def State.served (s : State) : Option (Offer × Nat × List Nat) :=
  let os := s.offers
  os.findSome? fun o =>
    if s.yields os o || s.savingOf o then none
    else match s.firstFit o with
      | some (c, l) => if s.dieUsed c || s.savesOn c then none else some (o, c, l)
      | none => none

/-! ## Chunks (R309 to R313) -/

/-- Chunks of a store in a core. -/
def chunkTotal : Store → Nat
  | .spad => 24
  | .acc => 16
  | .sdm => 16

/-- The place of a parked chunk in the order of claims (R311): those recorded ZERO first, then by the age of their strand's save, each strand's
in ascending order. -/
def State.claimKey (s : State) (st : Store) : ChunkState → Nat
  | .parked g sidx i =>
    (if (s.savedChunk st g sidx i).map Chunk.form = some .zero then 0 else 2 ^ 60) +
      (((s.grp g).saved.find? fun e => e.1 == sidx).map fun e => e.2.saveNo).getD 0 * 1024 + i
  | _ => 0

/-- The cycles that a claim of a chunk with contents takes at most (R311). -/
def claimTime (st : Store) : Nat := 200 + storeUnit st / 128

/-- Claims a physical chunk of a core for a window chunk: a FREE one, else the first PARKED one (R311), which is SAVING until what it holds is
saved, unless it is recorded ZERO. With it the cycles that the claim takes at most, and whether it is SAVING. -/
def State.claim (s : State) (core : Nat) (st : Store) (g sidx i : Nat) : (Nat × Nat × Bool) × State :=
  let t := (s.core core).chunkTbl st
  let put := fun (n : Nat) (c : ChunkState) => s.onChunks core st fun l => Tbl.insert l n c
  match (List.range (chunkTotal st)).find? fun n => (Tbl.find t n).isNone with
  | some n => ((n, 0, false), put n (.live g sidx i))
  | none =>
    let parked := t.filter fun e => match e.2 with
      | .parked .. => true
      | _ => false
    match sortBy (fun e => s.claimKey st e.2) parked with
    | (n, .parked g' sidx' i') :: _ =>
      if (s.savedChunk st g' sidx' i').map Chunk.form = some .zero then ((n, 48, false), put n (.live g sidx i))
      else ((n, claimTime st, true), put n (.saving g' sidx' i'))
    | _ => ((0, 0, false), s)

/-- Claims the chunks `is` of a window: the chunks, and the cycles that their claims take at most. -/
def State.claimAll (s : State) (core : Nat) (st : Store) (g sidx : Nat) : List Nat → (List Chunk × Nat) × State
  | [] => (([], 0), s)
  | i :: r =>
    let a := s.claim core st g sidx i
    let b := State.claimAll a.2 core st g sidx r
    ((⟨st, i, .live core a.1.1, false, false, false, a.1.2.2⟩ :: b.1.1, a.1.2.1 + b.1.2), b.2)

/-- The chunks of a new strand's windows (R311). -/
def State.newChunks (s : State) (core g sidx : Nat) (i : Image) : (List Chunk × Nat) × State :=
  let a := s.claimAll core .spad g sidx (List.range i.sp64)
  let b := a.2.claimAll core .acc g sidx (List.range i.acc32)
  let c := b.2.claimAll core .sdm g sidx (List.range i.sdm4)
  ((a.1.1 ++ b.1.1 ++ c.1.1, a.1.2 + b.1.2 + c.1.2), c.2)

/-- The physical chunks that a restored strand's record names: its own of the same core are LIVE again, and those that stood for a chunk recorded
ZERO are FREE (R312). -/
def State.takeBack (s : State) (g sidx : Nat) (c : Chunk) : State :=
  match c.form with
  | .inPlace k n => s.onChunks k c.store fun t => Tbl.insert t n (.live g sidx c.index)
  | .zero => { s with cores := s.cores.map fun e => (e.1, e.2.setChunkTbl c.store ((e.2.chunkTbl c.store).filter fun x => x.2 != .parked g sidx c.index)) }
  | _ => s

/-- The window chunks of a restored strand (R312): LIVE in place, else a zeroed chunk, unfilled unless the record reads ZERO. -/
def State.restoreRest (s : State) (core g sidx : Nat) : List Chunk → (List Chunk × Nat) × State
  | [] => (([], 0), s)
  | c :: r =>
    let new := fun (u : Bool) =>
      let a := s.claim core c.store g sidx c.index
      (((⟨c.store, c.index, .live core a.1.1, u, false, false, a.1.2.2⟩ : Chunk), a.1.2.1), a.2)
    let a : (Chunk × Nat) × State := match c.form with
      | .inPlace k n => ((⟨c.store, c.index, .live k n, false, false, false, false⟩, 0), s)
      | .saved => new true
      | _ => new false
    let b := State.restoreRest a.2 core g sidx r
    ((a.1.1 :: b.1.1, a.1.2 + b.1.2), b.2)

/-! ## Dispatch (R34, R343, R348) -/

/-- The next free group tag (R31). -/
def State.newTag (s : State) : Nat :=
  (((List.range (s.groups.length + 1)).map fun i => (s.nextTag + i - 1) % 0xFFFFFF + 1).find? fun t => (Tbl.find s.groups t).isNone).getD 1

/-- GM at dispatch (R251): SHA-384 of the code bytes and the launch record. -/
def startMeasure (i : Image) (words : List W64) : BitVec 384 :=
  BitVec.ofNat 384 (leNat (sha384 (((List.range i.nbun).flatMap fun k => natLe 16 (Tbl.getD i.code k 0).toNat) ++ words.flatMap fun w => natLe 8 w.toNat)))

/-- A strand as it is before its first bundle (R34). -/
def startStrand (l : Launch) (n : Nat) (g : Group) (sidx : Nat) (chunks : List Chunk) : Strand :=
  let x := windowStrand l.image
  let y := (applyInit l.image.init.length l.image.init x).getD x
  { y with
    contract := g.contract.isSome, gtag := g.gtag, sidx := sidx, gszm := l.size - 1, part := l.part, wid := g.wid
    widths := recWidths l.words, sreg := Tbl.put 0 (Tbl.put 0 [] 1 (BitVec.ofNat 64 (wordAt l.words 2))) 2 (BitVec.ofNat 64 n)
    chunks := chunks }

/-- The cycles before a strand's first bundle: any number that the claims of its dispatch allow, by free choice (R311, R349). -/
def State.startDelay (s : State) (most : Nat) : Nat × State := if most = 0 then (0, s) else s.choose (most + 1)

/-- The strands of a new group enter their slots. `most` bounds the claims made so far; in which order the strands begin to issue is free as far as
the claims allow (R349, log entry 88). -/
def State.startStrands (s : State) (l : Launch) (n : Nat) (g : Group) (most : Nat) : List (Nat × Nat) → State
  | [] => s
  | (k, sidx) :: r =>
    let c := s.newChunks (coreOf k) g.gtag sidx l.image
    let d := c.2.startDelay (most + c.1.2)
    State.startStrands (d.2.setStrand k { startStrand l n g sidx c.1.1 with holdFor := d.1 }) l n g (most + c.1.2) r

/-- A dispatch serves the queue's rotation and uses the die. -/
def State.afterDispatch (s : State) (p cls : Nat) (lq : Option Nat) (c : Nat) : State :=
  let t : State := { s with
    lastLq := match lq with
      | some n => Tbl.insert s.lastLq cls (8 * p + n)
      | none => s.lastLq
    lastDisp := Tbl.insert s.lastDisp (c / 8) s.clk }
  t.setCluster c { t.cluster c with idleAt := s.clk }

/-- A group of a launch is dispatched to the slots of a cluster. -/
def State.dispatchTo (s : State) (l : Launch) (n : Nat) (o : Offer) (c : Nat) (slots : List Nat) : State :=
  let tag := s.newTag
  let q := s.part l.part
  let w0 := wordAt l.words 0
  let g : Group :=
    { Group.none with
      gtag := tag, part := l.part, launch := l.id, lq := l.lq, seq := l.seq, index := l.next, wid := BitVec.ofNat 64 (wordAt l.words 5 + l.next), cluster := c
      borrowed := (s.cluster c).lentTo == some l.part, strands := slots, gm := startMeasure l.image l.words
      rights := BitVec.ofNat 3 (bits w0 26 24 &&& bits (((q.map fun q => wordAt q.desc 1)).getD 0) 18 16), cls := o.cls, contract := o.ctr
      gang := if l.gang then some (bits (wordAt l.words 10) 31 0) else none, born := s.clk }
  let t := { s with nextTag := tag % 0xFFFFFF + 1 }.setGrp tag g
  let u := (t.startStrands l n g 0 slots.zipIdx).onLaunch l.id fun l =>
    { l with next := l.next + 1, dispatched := l.dispatched + 1, passed := none, starved := false, tags := l.tags ++ [tag] }
  u.afterDispatch l.part o.cls (if o.ctr.isNone then some l.lq else none) c

/-- The count of a launch as its first dispatch reads it (R344). -/
def State.readCount (s : State) (l : Launch) : State :=
  let t := s.sysTouch l.part (wordAt l.words 4) 8 false
  match s.sysRead l.part (wordAt l.words 4) 8 with
  | none => (t.onLaunch l.id fun l => l.ends .fault).event l.part 12 noStrand l.lq (statusCode .fault + place l.seq 63 32) 0
  | some b =>
    let most := bits (wordAt l.words 3) 31 0
    let n := min (leNat b) most
    t.onLaunch l.id fun l => { l with count := some n, discarded := most - n }

/-- GROUP_DISPATCH (R348): the launch's next group is dispatched if it is the one served next. A launch whose group fits no cluster of its partition
even when all are empty ends UNPLACEABLE (R347); one whose group fits nowhere now, or whose partition is full, is passed over. -/
def State.dispatch (s : State) (p n seq : Nat) : State :=
  match s.launchWhere p n seq s.launchReady with
  | none => s
  | some l =>
    if s.fullOf p then passOver l
    else if s.placeable l = false then s.onLaunch l.id fun l => l.ends .unplaceable
    else match s.served with
      | some (o, c, slots) =>
        if o.launch = some l.id then
          match l.count with
          | some m => s.dispatchTo l m o c slots
          | none => s.readCount l
        else passOver l
      | none => passOver l
where
  /-- The launch is passed over from this cycle on. -/
  passOver (l : Launch) : State :=
    let o := l.offer (s.queueClass p n) l.job
    if (s.fullOf p = true ∨ (s.firstFit o).isNone = true) ∧ l.passed.isNone = true then s.onLaunch l.id fun l => { l with passed := some s.clk } else s

/-- GROUP_DISPATCH. -/
def execGroupDispatch (p n seq : Nat) (s : State) : Out := .next (s.dispatch p n seq)

/-- LAUNCH_STARVATION_TIMEOUT (R348). -/
def execLaunchStarvationTimeout (p n seq : Nat) (s : State) : Out :=
  .next (match s.launchWhere p n seq fun l => !l.starved && (l.passed.map fun t => decide (t + 125000 ≤ s.clk)).getD false with
    | none => s
    | some l => s.onLaunch l.id fun l => { l with starved := true })

/-! ## Restore (R305, R312) -/

/-- Every physical chunk that the records of a saved group's strands name is taken back before any chunk is claimed (R312, R313). -/
def State.takeAll (s : State) (g : Nat) (l : List (Nat × Strand)) : State :=
  l.foldl (fun (t : State) e => e.2.chunks.foldl (fun (t : State) c => t.takeBack g e.2.sidx c) t) s

/-- A chunk of a strand that enters slot `k` lies IN_PLACE on another core. -/
def awayFrom (k : Nat) (y : Strand) : Bool := y.chunks.any fun c => match c.form with
  | .inPlace core _ => core != coreOf k
  | _ => false

/-- The strands of a saved group enter their slots. -/
def State.restoreStrands (s : State) (g most : Nat) : List (Nat × Strand) → State
  | [] => s
  | (k, y) :: r =>
    let c := s.restoreRest (coreOf k) g y.sidx y.chunks
    let d := c.2.startDelay (most + c.1.2)
    State.restoreStrands (d.2.setStrand k { y with chunks := c.1.1, holdFor := d.1 }) g (most + c.1.2) r

/-- Every strand of a group receives a pre-emption request. -/
def State.preemptGroup (s : State) (g : Nat) : State := (s.grp g).strands.foldl State.preempt s

/-- A saved group that need not wait for the group its YIELD made way for any more: that one is dispatched, or was found not to fit (R348). -/
def State.endYield (s : State) (g : Nat) : State :=
  let x := s.grp g
  if x.off && x.yieldTo.isSome && !s.yields s.offers x.offer then s.setGrp g { x with yieldTo := none } else s

/-- A saved group is restored to a cluster, if it is the one served next there; what it has IN_PLACE on other cores is claimed and saved there before
(R312). A group of which only some strands are saved asks the others once more, in case a trap has voided their pre-emption (R37, log entry 92). -/
def State.restoreGroup (s : State) (g c : Nat) : State :=
  if (s.grp g).saved.isEmpty then s
  else if (s.grp g).strands.isEmpty = false then s.preemptGroup g
  else
    let s := (s.endSaves fun _ a => a == g).endYield g
    match s.served with
    | some (o, c', slots) =>
      if o.saved = some g ∧ c' = c then
        let x := s.grp g
        let ys := (sortBy Prod.fst x.saved).map Prod.snd
        let l := slots.zip ys
        if l.any (fun e => awayFrom e.1 e.2) then
          s.beginSaves fun core a i => a == g && l.any fun e => e.2.sidx == i && core != coreOf e.1
        else
          let t := (s.takeAll g l).restoreStrands g 0 l
          let y := t.grp g
          (t.setGrp g { y with strands := slots, saved := [], cluster := c, borrowed := (s.cluster c).lentTo == some x.part }).afterDispatch
            x.part x.cls none c
      else s
    | none => s

/-- STRAND_RESTORE. -/
def execStrandRestore (g c : Nat) (s : State) : Out := .next (s.restoreGroup g c)

/-! ## The release of a strand (R38) -/

/-- What holds a strand in DONEWAIT: requests, commands, streams, posts of the strand that have not ended. -/
def State.doneHolds (s : State) (k : Nat) : Bool :=
  let x := s.strand k
  s.busy x || (s.reqs.any fun r => r.gtag == x.gtag && r.sidx == x.sidx && r.returns) ||
    (s.posts.any fun p => p.fd.isNone && p.gtag == x.gtag && p.strand == k) || !x.streams.isEmpty

/-- The write-back of a map's dirty pages before the release of its strand (R38, R228), an engine command without a flag. -/
def State.writeBack (s : State) (k : Nat) (e : MapEnt) : State :=
  let x := s.strand k
  let f := s.fresh
  { f.2 with cmds := f.2.cmds ++
      [{ id := f.1, strand := k, gtag := x.gtag, sidx := x.sidx, part := x.part, core := coreOf k, kind := .wbr e.off e.size, fd0 := 0, fd1 := 0,
         engine := copyEngine k, issued := none, accepted := some s.clk, order := f.1, promise := 0, raised := true, stop := false,
         progress := 0, fault := none, data := [], written := false, phase := 0, nonce := 0, measure := none, tdid := 0, hnd := false, net := .none }] }

/-- A strand is released once its dirty pages are written back: its registers and chunks are zeroed; the group ends with its last strand.
-/
def State.release (s : State) (k : Nat) : State :=
  match Tbl.find s.strands k with
  | none => s
  | some x =>
    if x.life ≠ .doneWait ∨ s.doneHolds k = true then s
    else match x.maps.find? fun e => !e.dirty.isEmpty with
    | some e => s.writeBack k e
    | none =>
      let mine := fun (c : ChunkState) => match c with
        | .live g i _ => g == x.gtag && i == x.sidx
        | _ => false
      let c := s.core (coreOf k)
      let out := fun (t : Tbl ChunkState) => t.filter fun e => !mine e.2
      let g := s.grp x.gtag
      let t := ({ s with strands := Tbl.erase s.strands k }.setCore (coreOf k)
        { c with spadCh := out c.spadCh, accCh := out c.accCh, sdmCh := out c.sdmCh }).setGrp x.gtag { g with strands := g.strands.filter fun i => i != k }
      if (t.grp x.gtag).strands.isEmpty && (t.grp x.gtag).saved.isEmpty then t.groupEnd x.gtag .ok else t

/-- STRAND_RELEASE. -/
def execStrandRelease (k : Nat) (s : State) : Out := .next (s.release k)

/-! ## YIELD and pre-emption of groups (R125) -/

/-- The state without the strands of a group, as Lamplighter tests what would then fit. -/
def State.without (s : State) (g : Nat) : State := { s with strands := s.strands.filter fun e => e.2.gtag != g }

/-- A group of the strand's partition, of equal or higher class, that is ready for its cluster. -/
def State.readyFor (s : State) (k : Nat) : Option Offer :=
  let x := s.strand k
  let g := s.grp x.gtag
  let t := s.without x.gtag
  s.offers.find? fun o => o.part == x.part && decide (o.cls ≤ g.cls) && o.saved != some x.gtag && (t.tries o).contains g.cluster &&
    (t.fit o.shape g.cluster).isSome

/-- A YIELD at a drain point: where a group is ready the strand is saved and the others of its group are pre-empted. -/
def State.yieldAt (s : State) (k : Nat) : State :=
  match s.readyFor k with
  | some o =>
    let g := (s.strand k).gtag
    let t := s.setGrp g { s.grp g with yieldTo := some o.key }
    (t.saveStrand k).preemptGroup g
  | none => s

/-! ## Lending and reclaim (R336, R337) -/

/-- The owner of a cluster. -/
def State.ownerOf (s : State) (c : Nat) : Option Nat := (s.parts.find? fun e => e.2.guaranteed.contains c || e.2.margin.contains c).map Prod.fst

/-- No strand runs on a cluster. -/
def State.emptyCluster (s : State) (c : Nat) : Bool := !(s.strands.any fun e => clusterOf e.1 == c)

/-- Every chunk PARKED on a cluster is claimed (R311). -/
def State.claimCluster (s : State) (c : Nat) : State := s.beginSaves fun core _ _ => core / 8 == c

/-- The saves of a cluster's chunks that no strand waits for end. -/
def State.saveCluster (s : State) (c : Nat) : State := s.endSaves fun core _ => core / 8 == c

/-- A chunk of a cluster is PARKED. -/
def State.parkedOn (s : State) (c : Nat) : Bool :=
  s.cores.any fun e => e.1 / 8 == c && [e.2.spadCh, e.2.accCh, e.2.sdmCh].any fun t => t.any fun x => match x.2 with
    | .parked .. => true
    | _ => false

/-- Every chunk parked on a cluster is saved, and Snuffer zeroes the cluster and its caches. -/
def State.clearCluster (s : State) (c : Nat) : State :=
  let u := (s.claimCluster c).saveCluster c
  let t : State := { u with
    cores := u.cores.map fun e => if e.1 / 8 = c then (e.1, { e.2 with spadCh := [], accCh := [], sdmCh := [] }) else e }
  t.setCluster c { t.cluster c with lines := [], trans := [], ents := [] }

/-- Some ready group of a partition fits none of some clusters. -/
def State.lacks (s : State) (p : Nat) (cs : List Nat) : Bool :=
  s.offers.any fun o => o.part == p && o.ctr.isNone && cs.all fun c => (s.fit o.shape c).isNone

/-- CLUSTER_LEND (R336): the chunks PARKED on the cluster are claimed and saved before it is lent. -/
def State.lend (s : State) (c b : Nat) : State :=
  let s := s.saveCluster c
  match (s.ownerOf c).bind s.part, s.ownerOf c, s.part b with
  | some a, some i, some q =>
    let others := (s.tried i).filter fun d => d != c
    if a.margin.contains c && s.unlent c && s.emptyCluster c && (wordAt a.desc 1).testBit b && i != b && !s.lacks i others &&
        s.offers.any (fun o => o.part == b && o.ctr.isNone && decide (o.shape.image.dpbound ≤ 10000) &&
          (q.guaranteed ++ q.margin.filter s.unlent).all fun d => (s.fit o.shape d).isNone) then
      if s.parkedOn c then s.claimCluster c
      else
        let t := s.clearCluster c
        t.setCluster c { t.cluster c with lentTo := some b, idleAt := s.clk }
    else s
  | _, _, _ => s

/-- CLUSTER_LEND. -/
def execClusterLend (c b : Nat) (s : State) : Out := .next (s.lend c b)

/-- Every strand on a cluster receives a pre-emption request. -/
def State.preemptCluster (s : State) (c : Nat) : State := ((s.strands.filter fun e => clusterOf e.1 == c).map Prod.fst).foldl State.preempt s

/-- A reclaim begins: every strand on the cluster receives a pre-emption request (R337). -/
def State.beginReclaim (s : State) (c : Nat) : State := (s.setCluster c { s.cluster c with reclaim := some s.clk }).preemptCluster c

/-- BORROW_IDLE_TIMEOUT (R336): a borrowed cluster without a group for 125,000 cycles returns by reclaim. -/
def execBorrowIdleTimeout (c : Nat) (s : State) : Out :=
  .next (if (s.cluster c).lentTo.isSome && (s.cluster c).reclaim.isNone && s.emptyCluster c && decide ((s.cluster c).idleAt + 125000 ≤ s.clk) then
    s.beginReclaim c else s)

/-- CLUSTER_RECLAIM (R337): it begins when a group of the owner fits nowhere else, and ends once no strand is on the cluster and what is PARKED there
has been saved. -/
def State.reclaimStep (s : State) (c : Nat) : State :=
  let k := s.cluster c
  match k.reclaim with
  | some _ =>
    if s.emptyCluster c = false then s.preemptCluster c
    else if s.parkedOn c then s.claimCluster c
    else
      let t := s.clearCluster c
      t.setCluster c { t.cluster c with lentTo := none, reclaim := none }
  | none =>
    match s.ownerOf c with
    | some p => if k.lentTo.isSome && s.lacks p (((s.part p).map fun q => q.guaranteed ++ q.margin.filter s.unlent).getD []) then s.beginReclaim c else s
    | none => s

/-- CLUSTER_RECLAIM. -/
def execClusterReclaim (c : Nat) (s : State) : Out := .next (s.reclaimStep c)

/-- RECLAIM_PHASE1_TIMEOUT (R337): at cycle 12,000 every strand still on the cluster is ended with RECLAIMED. -/
def execReclaimPhase1Timeout (c : Nat) (s : State) : Out :=
  match (s.cluster c).reclaim with
  | some t =>
    if t + 12000 ≤ s.clk then
      .next ((((s.strands.filter fun e => clusterOf e.1 == c).map fun e => e.2.gtag).eraseDups).foldl (fun (t : State) g => t.contextReset g .reclaimed) s)
    else .next s
  | none => .next s

/-! ## Contracts (R353 to R358) -/

/-- T, C, D and Λ of a contract. -/
def Contract.period (c : Contract) : Nat := bits c.a.toNat 31 0
/-- The budget C. -/
def Contract.budget (c : Contract) : Nat := bits c.a.toNat 63 32
/-- The relative deadline D. -/
def Contract.rel (c : Contract) : Nat := bits c.b.toNat 31 0
/-- The bound Λ. -/
def Contract.bound (c : Contract) : Nat := bits c.b.toNat 63 32
/-- The first release. -/
def Contract.offset (c : Contract) : Nat := bits c.c.toNat 63 32

/-- The limits of R353; SM + 1 never exceeds 8. -/
def Contract.fieldsOk (c : Contract) : Bool :=
  decide (12500 ≤ c.period) && decide (1 ≤ c.budget) && decide (c.budget ≤ c.rel) && decide (c.rel ≤ c.period)

/-- RS of a contract (R355). -/
def Contract.restoreTerm (c : Contract) : Nat := 712 * c.windows.2.2.1 + 328 * c.windows.2.1 + 232 * c.windows.2.2.2

/-- The density sum of R355 is at most 1, over a common denominator. -/
def densityOk (l : List Contract) : Bool :=
  let om := (l.map fun k => k.bound + 1076 + k.restoreTerm).foldl max 0
  let d := (l.map Contract.rel).foldl (· * ·) 1
  decide ((l.map fun k => (k.budget + 2 * om) * (d / k.rel)).foldl (· + ·) 0 ≤ d)

/-- The reserved windows fit beside one strand-0 window of the least sizes (R355). -/
def windowsOk (l : List Contract) : Bool :=
  let w := largest l
  decide (w.2.2.1 + 1 ≤ 24) && decide (w.2.1 + 1 ≤ 16) && decide (w.2.2.2 + 1 ≤ 16)

/-- The admission test (R355): the cluster, or the reason of the refusal. -/
def State.admission (s : State) (q : Partition) (i : Nat) : Except Nat Nat :=
  let c := q.ctr i
  if c.fieldsOk = false then .error 1
  else if (List.range 16).any fun j => j != i && (q.ctr j).live && (q.ctr j).lq == c.lq then .error 4
  else match q.guaranteed.find? fun k => densityOk (s.hosted k ++ [c]) && windowsOk (s.hosted k ++ [c]) with
    | some k => .ok k
    | none => if q.guaranteed.any fun k => densityOk (s.hosted k ++ [c]) then .error 3 else .error 2

/-- The best-effort strands of a cluster that hold a reserved slot, or chunks that a core reserves (R354). -/
def State.holdsReserved (s : State) (c : Nat) : List Nat :=
  let r := largest (s.hosted c)
  ((s.strands.filter fun e => clusterOf e.1 == c && !e.2.contract &&
    (e.1 % 2 == 1 || decide (96 < e.2.nvreg + 6 * r.1) || decide (512 < e.2.accRows + 32 * r.2.1) ||
      decide (24 * 65536 < e.2.spadSize + 65536 * r.2.2.1) || decide (65536 < e.2.sdmSize + 4096 * r.2.2.2))).map fun e => e.2.gtag).eraseDups

/-- CONTRACT_ADMIT. -/
def State.admitCtr (s : State) (p i : Nat) : State :=
  match s.part p with
  | none => s
  | some q =>
    let c := q.ctr i
    if c.asked = false then s
    else match s.admission q i with
      | .error r => s.onPart p fun q => q.setCtr i { c with asked := false, state := 2, reason := r }
      | .ok k =>
        let t := s.onPart p fun q => q.setCtr i { c with asked := false, state := 1, reason := 0, cluster := k, admitted := s.lcycOf (k / 8), job := 0, rtMiss := false }
        (t.holdsReserved k).foldl State.preemptGroup t

/-- CONTRACT_ADMIT. -/
def execContractAdmit (p i : Nat) (s : State) : Out := .next (s.admitCtr p i)

/-- CONTRACT_REMOVE (R353, R355): at once without a job, else when its job has ended. -/
def State.removeCtr (s : State) (p i : Nat) : State :=
  s.onPart p fun q =>
    let c := q.ctr i
    if c.live then q.setCtr i { c with state := if (s.openJobs p i).isEmpty then 0 else 3 } else q

/-- CONTRACT_REMOVE. -/
def execContractRemove (p i : Nat) (s : State) : Out := .next (s.removeCtr p i)

/-- The record of a contract's job (R356). -/
def jobOk (c : Contract) (i : Nat) (l : Launch) : Bool :=
  let w0 := wordAt l.words 0
  w0.testBit 18 && bits w0 23 20 == i && !w0.testBit 16 && !w0.testBit 17 && wordAt l.words 3 == 1 && bits w0 15 12 == bits c.c.toNat 2 0

/-- A job's group is on-core. -/
def State.onCore (s : State) (l : Launch) : Bool := ((s.groupIn l).map fun g => !g.strands.isEmpty).getD false

/-- The jobs of a cluster's contracts that are released and have not ended. -/
def State.clusterJobs (s : State) (c : Nat) : List Launch :=
  s.launches.filter fun l => ((s.jobCtr l).map fun e => e.2.live && e.2.cluster == c).getD false && !s.launchOver l

/-- Lamplighter asks the running job of a cluster to make way: where it has overrun, or where a job with an earlier deadline may run (R356, R358). It
asks until the strands drain (R37, log entry 92). -/
def State.makeWay (s : State) (c : Nat) : State :=
  let js := s.clusterJobs c
  (js.filter fun l => s.onCore l && (l.overrun || js.any fun m => !m.overrun && !s.onCore m && decide (m.deadline < l.deadline))).foldl
    (fun (t : State) l => match s.groupIn l with
      | some g => t.preemptGroup g.gtag
      | none => t) s

/-- A job has not been released by its deadline (R358): reported once. -/
def State.reportLate (s : State) (p i now : Nat) (l : Launch) : State :=
  (s.onLaunch l.id fun l => { l with late := true }).event p 8 noStrand i l.jobNo (now - l.deadline)

/-- The release of a contract's next job (R356, R358): a job that has overrun runs again with a new budget and the next deadline, the one it has
missed reported before, and no record is read; else the next record is read, unless the contract is being removed. A contract in removal without a job is gone (R355). -/
def State.releaseJob (s : State) (p i : Nat) : State :=
  match s.part p with
  | none => s
  | some q =>
    let c := q.ctr i
    let jobs := s.openJobs p i
    if c.state = 3 ∧ jobs.isEmpty = true then s.onPart p fun q => q.setCtr i { c with state := 0 }
    else
      let at' := c.admitted + c.offset + c.job * c.period
      if c.live = false ∨ q.open' = false then s
      else if s.lcycOf (c.cluster / 8) < at' then s.makeWay c.cluster
      else
        let t := s.onPart p fun q => q.setCtr i { c with job := c.job + 1, rtMiss := false }
        let again := jobs.filter Launch.overrun
        let u := if again.isEmpty = false then
            again.foldl (fun (t : State) l =>
              (if l.late = false ∧ l.deadline ≤ at' then t.reportLate p i at' l else t).onLaunch l.id fun l =>
                { l with overrun := false, late := false, deadline := at' + c.rel }) t
          else if c.state = 1 then t.readNext p c.lq (jobOk c i) fun l => { l with jobNo := c.job, deadline := at' + c.rel }
          else t
        u.makeWay c.cluster

/-- JOB_RELEASE. -/
def execJobRelease (p i : Nat) (s : State) : Out := .next (s.releaseJob p i)

/-- Every strand of a job's group has executed DONE. -/
def State.pastDone (s : State) (l : Launch) : Bool :=
  ((s.groupIn l).map fun g => g.saved.isEmpty && g.strands.all fun k => (s.strand k).life == .doneWait).getD false

/-- A job has used its budget before DONE (R358). -/
def State.overruns (s : State) (budget : Nat) (l : Launch) : Bool :=
  !l.overrun && s.onCore l && decide (budget ≤ l.used) && !s.pastDone l

/-- A job that has used its budget is pre-empted and reported; the cycles of its drain count against the next budget (R358). -/
def State.overrun (s : State) (p i : Nat) : State :=
  match s.part p with
  | none => s
  | some q =>
    match (s.openJobs p i).find? (s.overruns (q.ctr i).budget) with
    | some l =>
      ((s.onLaunch l.id fun l => { l with overrun := true, used := 0 }).makeWay (q.ctr i).cluster).event p 7 noStrand i l.jobNo 0
    | none => s

/-- CONTRACT_OVERRUN. -/
def execContractOverrun (p i : Nat) (s : State) : Out := .next (s.overrun p i)

/-- DEADLINE_MISS (R358): a job that has not ended by its deadline, once. -/
def State.deadlineMiss (s : State) (p i : Nat) : State :=
  match s.part p with
  | none => s
  | some q =>
    let now := s.lcycOf ((q.ctr i).cluster / 8)
    match (s.openJobs p i).find? fun l => !l.late && decide (l.deadline < now) with
    | some l => s.reportLate p i now l
    | none => s

/-- DEADLINE_MISS. -/
def execDeadlineMiss (p i : Nat) (s : State) : Out := .next (s.deadlineMiss p i)

/-- One cycle of budget use (R357): every job whose group is on-core. -/
def State.chargeJobs (s : State) : State :=
  { s with launches := s.launches.map fun l => if l.job.isSome && s.onCore l then { l with used := l.used + 1 } else l }

/-! ## Gangs (R359, R360) -/

/-- A gang by its identifier. -/
def State.gang (s : State) (id : Nat) : Option Gang := s.gangs.find? fun g => g.id == id

/-- A change of one gang. -/
def State.onGang (s : State) (id : Nat) (f : Gang → Gang) : State := { s with gangs := s.gangs.map fun g => if g.id == id then f g else g }

/-- A member holds GREADY from all others. -/
def Gang.complete (g : Gang) : Bool := (List.range g.members).all fun i => i == g.index || g.ready.contains i

/-- The other members of a gang: their indexes and packages (log entry 90). -/
def Gang.others (g : Gang) : List (Nat × Nat) :=
  ((List.range g.members).filter fun m => m != g.index).map fun m => (m, Config.gangMember g.id m)

/-- A command of a group for a peer waits until its gang is complete: the peer is another member (R359). -/
def State.gangHolds (s : State) (gtag peer : Nat) : Bool :=
  match (s.grp gtag).gang.bind s.gang with
  | some g => !g.complete && g.others.any fun e => e.2 == peer
  | none => false

/-- A management message to every other member of a gang. -/
def State.toMembers (s : State) (g : Gang) (m : PeerMsg) : State := g.others.foldl (fun (t : State) e => t.sendMgmt e.2 m) s

/-- GANG_READY: every group of the gang launch is dispatched, whether or not one has ended since; the timer starts and GREADY is sent (R393). -/
def execGangReady (id : Nat) (s : State) : Out :=
  .next (match s.gang id with
    | none => s
    | some g =>
      match s.launches.find? fun l => l.id == g.launch with
      | some l =>
        if g.started.isNone = true ∧ g.finished = false ∧ l.cut = false ∧ (l.count.map fun n => decide (n ≤ l.next)).getD false = true then
          (s.onGang id fun g => { g with started := some s.clk }).toMembers g (.gready id g.index)
        else s
      | none => s)

/-- GREADY (R393). -/
def execGready (id m : Nat) (s : State) : Out :=
  .next (s.onGang id fun g => if m < g.members ∧ ¬g.ready.contains m then { g with ready := g.ready ++ [m] } else g)

/-- All groups of a gang end with GANG_TIMEOUT, their commands without flag posts, and one record names the member concerned; a member whose own
timer has expired sends GABORT to the others (R360). -/
def State.endGang (s : State) (g : Gang) (m : Nat) (byAbort : Bool) : State :=
  if g.finished then s
  else
    let t := s.onGang g.id fun g => { g with finished := true }
    let u := match t.launches.find? fun l => l.id == g.launch with
      | some l => ((t.launchGroups l).foldl (fun (t : State) k => t.contextReset k .gangTimeout) t).onLaunch g.launch Launch.discard
      | none => t
    let v := if byAbort then u else u.toMembers g (.gabort g.id g.index)
    v.event g.part 9 noStrand g.id (place m 4 0 + place (if byAbort then 1 else 0) 8 8) 0

/-- GABORT (R360). -/
def execGabort (id m : Nat) (s : State) : Out :=
  match s.gang id with
  | some g => .next (s.endGang g m true)
  | none => .next s

/-- GANG_TIMEOUT (R360): GTO µs after the last dispatch, 2,000 where GTO is 0. -/
def execGangTimeout (id : Nat) (s : State) : Out :=
  match s.gang id with
  | some g =>
    let us := if g.timeout = 0 then 2000 else g.timeout
    if g.complete = false ∧ (g.started.map fun t => decide (t + 1250 * us ≤ s.clk)).getD false = true then
      .next (s.endGang g (((List.range g.members).find? fun i => i != g.index && !g.ready.contains i).getD 0) false)
    else .next s
  | none => .next s

end Sys2Proof.Machine
end

