-- ==== Sys2Proof/Machine/Elementary.lean ====
section
/-! DEFINITION. The special functions of R138 and R139. The manual gives each as the exact mathematical value rounded once. The value is
enclosed between two fixed-point numbers of `p` fraction bits; when both ends round to one encoding, that is the result. Three precisions
are tried; an input that none of them decides takes the free value Config.elementary (log entry 4). -/

namespace Sys2Proof.Machine

/-- The functions of R138 but VRCP, VRSQ and VSQRT, which are rounded from integer arithmetic alone. -/
inductive Elem where
  | exp2 | log2 | sin | cos | tanh | sigm
  deriving DecidableEq, Repr

/-- The number by which Config.elementary knows a function. -/
def Elem.num : Elem → Nat
  | .exp2 => 0
  | .log2 => 1
  | .sin => 2
  | .cos => 3
  | .tanh => 4
  | .sigm => 5

/-- Error in units of the last fixed-point place that every enclosure below allows for. -/
def slack : Nat := 65536

/-- Σ (±) z^(2k+1)/(2k+1) for z = 1/d, with `n` terms: arctangent with alternating signs, else hyperbolic arctangent. -/
def atanSeries (alt : Bool) (d p : Nat) (n : Nat) : Int :=
  ((List.range n).foldl (fun (a : Int × Nat) k =>
    let t : Int := (a.2 / (2 * k + 1) : Nat)
    (if alt && k % 2 == 1 then a.1 - t else a.1 + t, a.2 / (d * d))) (0, 2 ^ p / d)).1

/-- π in fixed point (Machin's formula). -/
def piFix (p : Nat) : Nat :=
  ((16 * atanSeries true 5 (p + 16) p - 4 * atanSeries true 239 (p + 16) p) / 65536).toNat

/-- ln 2 in fixed point. -/
def ln2Fix (p : Nat) : Nat := ((2 * atanSeries false 3 (p + 16) p) / 65536).toNat

/-- Σ z^k/k! over `n` terms for a fixed-point z ≥ 0: every term, or with alternating signs the even or the odd ones. -/
def expSeries (z p n : Nat) : Nat :=
  ((List.range n).foldl (fun (a : Nat × Nat) k => (a.1 + a.2, a.2 * z / 2 ^ p / (k + 1))) (0, 2 ^ p)).1

/-- The sine (odd) or cosine (even) series. -/
def trigSeries (odd : Bool) (z p n : Nat) : Int :=
  ((List.range n).foldl (fun (a : Int × Nat) k =>
    let used := if odd then k % 2 == 1 else k % 2 == 0
    let t : Int := if used then (if k / 2 % 2 = 0 then (a.2 : Int) else -(a.2 : Int)) else 0
    (a.1 + t, a.2 * z / 2 ^ p / (k + 1))) (0, 2 ^ p)).1

/-- A dyadic in fixed point, rounded down. -/
def fixOf (m : Nat) (e : Int) (p : Nat) : Nat :=
  if 0 ≤ e + p then m * 2 ^ (e + p).toNat else m / 2 ^ (-(e + p)).toNat

/-- e^z for a fixed-point z ≥ 0, as a fixed-point mantissa in [1, 2) and a power of two. -/
def expFix (z p : Nat) : Nat × Int :=
  let l := ln2Fix p
  let k := z / l
  (expSeries (z - k * l) p 100, k)

/-- ln y for a fixed-point y in [1, 2). -/
def lnFix (y p : Nat) : Nat :=
  let one := 2 ^ p
  let z := (y - one) * one / (y + one)
  2 * ((List.range p).foldl (fun (a : Nat × Nat) k => (a.1 + a.2 / (2 * k + 1), a.2 * z / one * z / one)) (0, z)).1

/-- Enclosure of an approximation `a × 2^e`: its two ends. -/
def around (a : Int) (e : Int) : FV × FV :=
  let f := fun x : Int => FV.fin (decide (x < 0)) x.natAbs e
  (f (a - slack), f (a + slack))

/-- The value of a function at a finite non-zero x = (−1)^s m 2^e, enclosed. -/
def Elem.enclose (k : Elem) (s : Bool) (m : Nat) (e : Int) (p : Nat) : FV × FV :=
  match k with
  | .exp2 =>
    -- 2^x = 2^n · e^(f ln 2), n = ⌊x⌋, 0 ≤ f < 1
    let x : Int := if s then -(fixOf m e (p + 160) : Int) else fixOf m e (p + 160)
    let n := x / (2 ^ (p + 160) : Nat)
    let f := (x % (2 ^ (p + 160) : Nat)).toNat / 2 ^ 160
    let r := expSeries (f * ln2Fix p / 2 ^ p) p 100
    around r (n - p)
  | .log2 =>
    -- log2 x = n + ln y / ln 2, x = y 2^n, 1 ≤ y < 2
    let n : Int := e + Nat.log2 m
    let y := fixOf m (-(Nat.log2 m : Int)) p
    let l : Int := (lnFix y p * 2 ^ p / ln2Fix p : Nat)
    around (n * (2 ^ p : Nat) + l) (-p)
  | .sin =>
    let q := p + 160
    let h := piFix q / 2
    let x := fixOf m e q
    let n := x / h
    let r := (x - n * h) / 2 ^ 160
    let t := trigSeries (n % 2 == 0) r p 100
    let v := if n / 2 % 2 = 0 then t else -t
    around (if s then -v else v) (-p)
  | .cos =>
    let q := p + 160
    let h := piFix q / 2
    let x := fixOf m e q
    let n := x / h
    let r := (x - n * h) / 2 ^ 160
    let t := trigSeries (n % 2 == 1) r p 100
    around (if (n + 1) / 2 % 2 = 0 then t else -t) (-p)
  | .tanh =>
    -- 1 − 2/(e^2|x| + 1)
    let x := fixOf m (e + 1) p
    if 64 * 2 ^ p ≤ x then (if s then (.fin true 1 0, .fin true 1 0) else (.fin false 1 0, .fin false 1 0))
    else
      let y := expFix x p
      let b := y.1 * 2 ^ y.2.toNat
      let v : Int := (2 ^ p : Nat) - (2 * 2 ^ (2 * p) / (b + 2 ^ p) : Nat)
      around (if s then -v else v) (-p)
  | .sigm =>
    -- 1/(1 + e^−x)
    let x := fixOf m e p
    if 256 * 2 ^ p ≤ x then (if s then (.fin false 1 (-512), .fin false 1 (-512)) else (.fin false 1 0, .fin false 1 0))
    else
      let y := expFix x p
      let b := y.1 * 2 ^ y.2.toNat
      let t := if s then 2 ^ (2 * p) / (b + 2 ^ p) else b * 2 ^ p / (b + 2 ^ p)
      around t (-p)

/-- The .f32 result where the enclosure at `p` bits decides it. -/
def Elem.decide (k : Elem) (s : Bool) (m : Nat) (e : Int) (p : Nat) : Option Nat :=
  let b := k.enclose s m e p
  let lo := Fmt.f32.round .rne b.1
  let hi := Fmt.f32.round .rne b.2
  if lo = hi then some lo else none

/-- The inputs on which R138 and R139 name the exact result: powers of two under VLOG2, integers under VEXP2. -/
def Elem.exact (k : Elem) (s : Bool) (m : Nat) (e : Int) : Option Nat :=
  match k with
  | .exp2 =>
    if e + Nat.log2 m < 12 ∧ (0 ≤ e ∨ m % 2 ^ (-e).toNat = 0) then
      let n : Int := if 0 ≤ e then m * 2 ^ e.toNat else m / 2 ^ (-e).toNat
      some (Fmt.f32.round .rne (.fin false 1 (if s then -n else n)))
    else if 12 ≤ e + Nat.log2 m then some (if s then 0 else 0x7F800000)
    else none
  | .log2 =>
    if m = 2 ^ Nat.log2 m then some (Fmt.f32.round .rne (FV.ofInt (e + Nat.log2 m))) else none
  | .sin | .cos | .tanh | .sigm => none

/-- The results at the special inputs of R139, in the order NaN, −∞, finite below 0 (where R139 gives one), −0, +0, +∞. -/
def Elem.special (k : Elem) (v : FV) : Option Nat :=
  let nan := 0x7FC00000
  match v with
  | .nan => some nan
  | .inf s =>
    match k with
    | .exp2 => some (if s then 0 else 0x7F800000)
    | .log2 => some (if s then nan else 0x7F800000)
    | .sin | .cos => some nan
    | .tanh => some (if s then 0xBF800000 else 0x3F800000)
    | .sigm => some (if s then 0 else 0x3F800000)
  | .fin s m _ =>
    if m = 0 then
      match k with
      | .exp2 | .cos => some 0x3F800000
      | .log2 => some 0xFF800000
      | .sin | .tanh => some (if s then 0x80000000 else 0)
      | .sigm => some 0x3F000000
    else
      match k with
      | .log2 => if s then some nan else none
      | .exp2 | .sin | .cos | .tanh | .sigm => none

/-- The .f32 form of a special function (R138, R139). -/
def Elem.f32 (k : Elem) (x : Nat) : Nat :=
  let v := Fmt.f32.value x
  match k.special v with
  | some r => r
  | none =>
    match v with
    | .fin s m e =>
      match k.exact s m e with
      | some r => r
      | none =>
        (((k.decide s m e 256).or (k.decide s m e 512)).or (k.decide s m e 1024)).getD
          (Config.elementary k.num (BitVec.ofNat 32 x)).toNat
    | _ => 0x7FC00000

/-- VRCP in .f32 (R138, R139). -/
def rcp32 (x : Nat) : Nat := Fmt.f32.div .rne (.fin false 1 0) (Fmt.f32.value x)

/-- VRSQ in .f32 (R138, R139). -/
def rsq32 (x : Nat) : Nat :=
  match Fmt.f32.value x with
  | .nan => 0x7FC00000
  | .inf s => if s then 0x7FC00000 else 0
  | .fin s m e =>
    if m = 0 then (if s then 0xFF800000 else 0x7F800000)
    else if s then 0x7FC00000
    else Fmt.f32.rsqrt .rne m e

/-- The .bf16 and .f16 forms (R138): widen exactly to .f32, take the .f32 result, round it once. -/
def viaF32 (t : Ty) (f : Nat → Nat) (x : Nat) : Nat :=
  match tyFmt t with
  | some F => F.round .rne (Fmt.f32.value (f (Fmt.f32.round .rne (F.value x))))
  | none => 0

end Sys2Proof.Machine
end

