-- ==== Sys2Proof/Machine/VecFloat.lean ====
section
/-! DEFINITION. Slot B: floating-point arithmetic, special functions, conversion, quantisation, reductions and scans (R136 to R139, R144,
R146, R149 to R153). -/

namespace Sys2Proof.Machine

/-- The format of a floating-point instruction's type. -/
def fmtOf (t : Ty) : Fmt := (tyFmt t).getD .f32

/-- An element-wise instruction of one source group (format VU): `f` on each enabled element, latency `lat`. -/
def State.vec1 (s : State) (lat : Nat) (l : LentB) (t : Ty) (d a : BitVec 7) (f : Nat → Nat) : Out :=
  s.slot 1 fun x =>
    let g := l.g.size
    (x.loadA a g).pushElems lat d g t.width (x.mask l) ((els t.width g (x.opA a g)).map f)

/-- An element-wise instruction of two source groups (format VR). -/
def State.vec2 (s : State) (lat : Nat) (l : LentB) (t : Ty) (d a b : BitVec 7) (f : Nat → Nat → Nat) : Out :=
  s.slot 1 fun x =>
    let g := l.g.size
    ((x.loadA a g).loadB b g).pushElems lat d g t.width (x.mask l)
      (List.zipWith f (els t.width g (x.opA a g)) (els t.width g (x.opB b g)))

/-- An element-wise instruction whose destination is also its third source, read through latch C (R66). -/
def State.vec3 (s : State) (lat : Nat) (l : LentB) (t : Ty) (d a b : BitVec 7) (f : Nat → Nat → Nat → Nat) : Out :=
  s.slot 1 fun x =>
    let g := l.g.size
    (((x.loadA a g).loadB b g).loadC l.hc d g).pushElems lat d g t.width (x.mask l)
      (List.zipWith (fun p c => f p.1 p.2 c) ((els t.width g (x.opA a g)).zip (els t.width g (x.opB b g)))
        (els t.width g (x.opC l.hc d g)))

/-- FMT.RM as the strand in issue sees it. -/
def State.rnd (s : State) : Rnd := fmtRM s.me.fmt

/-! ## Arithmetic (R136) -/

/-- Sum, rounded once. -/
def fpAdd (F : Fmt) (r : Rnd) (a b : Nat) : Nat := F.round r (FV.add r (F.value a) (F.value b))
/-- Difference. -/
def fpSub (F : Fmt) (r : Rnd) (a b : Nat) : Nat := F.round r (FV.add r (F.value a) (F.value b).neg)
/-- Product. -/
def fpMul (F : Fmt) (r : Rnd) (a b : Nat) : Nat := F.round r (FV.mul (F.value a) (F.value b))
/-- a × b + c. -/
def fpFma (F : Fmt) (r : Rnd) (a b c : Nat) : Nat := F.round r (FV.add r (FV.mul (F.value a) (F.value b)) (F.value c))
/-- a × b − c. -/
def fpFms (F : Fmt) (r : Rnd) (a b c : Nat) : Nat := F.round r (FV.add r (FV.mul (F.value a) (F.value b)) (F.value c).neg)
/-- −(a × b) + c. -/
def fpFnma (F : Fmt) (r : Rnd) (a b c : Nat) : Nat := F.round r (FV.add r (FV.mul (F.value a) (F.value b)).neg (F.value c))

/-- VADD. -/
def execVadd (l : LentB) (t : Ty) (d a b : BitVec 7) (s : State) : Out := s.vec2 4 l t d a b (fpAdd (fmtOf t) s.rnd)
/-- VSUB. -/
def execVsub (l : LentB) (t : Ty) (d a b : BitVec 7) (s : State) : Out := s.vec2 4 l t d a b (fpSub (fmtOf t) s.rnd)
/-- VMUL. -/
def execVmul (l : LentB) (t : Ty) (d a b : BitVec 7) (s : State) : Out := s.vec2 4 l t d a b (fpMul (fmtOf t) s.rnd)
/-- VFMA. -/
def execVfma (l : LentB) (t : Ty) (d a b : BitVec 7) (s : State) : Out := s.vec3 4 l t d a b (fpFma (fmtOf t) s.rnd)
/-- VFMS. -/
def execVfms (l : LentB) (t : Ty) (d a b : BitVec 7) (s : State) : Out := s.vec3 4 l t d a b (fpFms (fmtOf t) s.rnd)
/-- VFNMA. -/
def execVfnma (l : LentB) (t : Ty) (d a b : BitVec 7) (s : State) : Out := s.vec3 4 l t d a b (fpFnma (fmtOf t) s.rnd)
/-- VDIV. -/
def execVdiv (l : LentB) (t : Ty) (d a b : BitVec 7) (s : State) : Out :=
  s.vec2 12 l t d a b fun x y => (fmtOf t).div s.rnd ((fmtOf t).value x) ((fmtOf t).value y)

/-! ## Element instructions (R137) -/

/-- The encoding `y`, or the canonical NaN where `x` is NaN. -/
def unlessNan (F : Fmt) (x y : Nat) : Nat := if (F.value x).isNan then F.nan else y

/-- VMIN. -/
def execVmin (l : LentB) (t : Ty) (d a b : BitVec 7) (s : State) : Out := s.vec2 4 l t d a b ((fmtOf t).minmax false)
/-- VMAX. -/
def execVmax (l : LentB) (t : Ty) (d a b : BitVec 7) (s : State) : Out := s.vec2 4 l t d a b ((fmtOf t).minmax true)
/-- VCPS: the magnitude of va with the sign of vb. -/
def execVcps (l : LentB) (t : Ty) (d a b : BitVec 7) (s : State) : Out :=
  let F := fmtOf t
  s.vec2 2 l t d a b fun x y => unlessNan F x (unlessNan F y (x % 2 ^ (F.w - 1) + y / 2 ^ (F.w - 1) * 2 ^ (F.w - 1)))
/-- VABS. -/
def execVabs (l : LentB) (t : Ty) (d a : BitVec 7) (s : State) : Out :=
  let F := fmtOf t
  s.vec1 2 l t d a fun x => unlessNan F x (x % 2 ^ (F.w - 1))
/-- VNEG. -/
def execVneg (l : LentB) (t : Ty) (d a : BitVec 7) (s : State) : Out :=
  let F := fmtOf t
  s.vec1 2 l t d a fun x => unlessNan F x (x ^^^ 2 ^ (F.w - 1))
/-- VRND. -/
def execVrnd (l : LentB) (rm : Rm) (t : Ty) (d a : BitVec 7) (s : State) : Out :=
  s.vec1 4 l t d a ((fmtOf t).integral (rmMode rm s.me.fmt))
/-- VCLASS. -/
def execVclass (l : LentB) (t : Ty) (d a : BitVec 7) (s : State) : Out := s.vec1 4 l t d a (fmtOf t).classify

/-! ## Special functions (R138, R139) -/

/-- VRCP. -/
def execVrcp (l : LentB) (t : Ty) (d a : BitVec 7) (s : State) : Out := s.vec1 8 l t d a (viaF32 t rcp32)
/-- VRSQ. -/
def execVrsq (l : LentB) (t : Ty) (d a : BitVec 7) (s : State) : Out := s.vec1 8 l t d a (viaF32 t rsq32)
/-- VSQRT. -/
def execVsqrt (l : LentB) (rm : Rm) (t : Ty) (d a : BitVec 7) (s : State) : Out :=
  s.vec1 12 l t d a fun x => (fmtOf t).sqrt (rmMode rm s.me.fmt) ((fmtOf t).value x)
/-- VEXP2. -/
def execVexp2 (l : LentB) (t : Ty) (d a : BitVec 7) (s : State) : Out := s.vec1 8 l t d a (viaF32 t (Elem.f32 .exp2))
/-- VLOG2. -/
def execVlog2 (l : LentB) (t : Ty) (d a : BitVec 7) (s : State) : Out := s.vec1 8 l t d a (viaF32 t (Elem.f32 .log2))
/-- VSIN. -/
def execVsin (l : LentB) (t : Ty) (d a : BitVec 7) (s : State) : Out := s.vec1 8 l t d a (viaF32 t (Elem.f32 .sin))
/-- VCOS. -/
def execVcos (l : LentB) (t : Ty) (d a : BitVec 7) (s : State) : Out := s.vec1 8 l t d a (viaF32 t (Elem.f32 .cos))
/-- VTANH. -/
def execVtanh (l : LentB) (t : Ty) (d a : BitVec 7) (s : State) : Out := s.vec1 8 l t d a (viaF32 t (Elem.f32 .tanh))
/-- VSIGM. -/
def execVsigm (l : LentB) (t : Ty) (d a : BitVec 7) (s : State) : Out := s.vec1 8 l t d a (viaF32 t (Elem.f32 .sigm))

/-! ## Compare and conversion (R144, R146) -/

/-- VCMP: disabled bits keep their values, bits from the element count up become 0. -/
def execVcmp (l : LentB) (c : VCc) (t : Ty) (d : BitVec 4) (a b : BitVec 7) (s : State) : Out :=
  s.slot 1 fun x =>
    let g := l.g.size
    let n := elems t g
    let ea := els t.width g (x.opA a g)
    let eb := els t.width g (x.opB b g)
    let r := List.zipWith (fun p q => if vcmpElem c t p q then 1 else 0) ea eb
    let m := BitVec.ofNat 1024 (packElems 1 ((List.range 1024).map fun i => if n ≤ i ∨ enabled (x.mask l) i = true then 1 else 0))
    ((x.loadA a g).loadB b g).pushP 2 d m (BitVec.ofNat 1024 (packElems 1 r))

/-- VCVT: TY is the destination type, TY2 the source type; G sizes the narrower group (R128). -/
def execVcvt (l : LentB) (rm : Rm) (dst src : Ty) (d a : BitVec 7) (s : State) : Out :=
  s.slot 1 fun x =>
    let z := (wide l.g.size dst src).getD (l.g.size, l.g.size)
    let e := els src.width z.2 (x.opA a z.2)
    (x.loadA a z.2).pushElems 4 d z.1 dst.width (x.mask l) (e.map (convert (rmMode rm x.fmt) (fmtSat x.fmt) dst src))

/-! ## Block quantisation (R148 to R150) -/

/-- VQNT: disabled elements read as +0, and the whole destination group is written. -/
def execVqnt (l : LentB) (k : Bk) (t : Ty) (d a : BitVec 7) (s : State) : Out :=
  s.slot 1 fun x =>
    let g := l.g.size
    let e := els t.width g (x.opA a g)
    let v := e.zipIdx.map fun p => if enabled (x.mask l) p.2 then (fmtOf t).value p.1 else .fin false 0 0
    let D := blockRegs k (elems t g)
    (x.loadA a g).pushGroup 8 d.toNat D allLanes 8 (512 * D) (blockImage k v)

/-- Element `i` of a block image rounded into the destination type (R150): into FP32 decoding is exact, or an infinity beyond its range (R51). -/
def dequant (t : Ty) (r : Rnd) (k : Bk) (img i : Nat) : Nat :=
  let v := imageElem k img i
  (fmtOf t).round r (if t = .f32 then v.inF32 else v)

/-- VDQNT. -/
def execVdqnt (l : LentB) (t : Ty) (k : Bk) (d a : BitVec 7) (s : State) : Out :=
  s.slot 1 fun x =>
    let g := l.g.size
    let D := blockRegs k (elems t g)
    let img := x.opA a D
    (x.loadA a D).pushElems 8 d g t.width (x.mask l)
      ((List.range (elems t g)).map fun i => dequant t (fmtRM x.fmt) k img i)

/-! ## Reductions and scans (R56 to R59, R151 to R153) -/

/-- The add of a reduction or scan (R56): floating-point adds round, integer adds wrap. -/
def sumElem (t : Ty) (r : Rnd) (a b : Nat) : Nat :=
  match tyFmt t with
  | some F => fpAdd F r a b
  | none => (a + b) % 2 ^ t.width

/-- An add with an absent value is the other value. -/
def addOpt (f : Nat → Nat → Nat) : Option Nat → Option Nat → Option Nat
  | some a, some b => some (f a b)
  | some a, none => some a
  | none, b => b

/-- A floating-point NaN is canonical wherever it is written (R40). -/
def canonElem (t : Ty) (x : Nat) : Nat :=
  match tyFmt t with
  | some F => unlessNan F x x
  | none => x

/-- The halving tree of R56 over 2^k elements. -/
def halve {α : Type} (f : α → α → α) : Nat → List α → List α
  | 0, l => l
  | k + 1, l => halve f k (List.zipWith f (l.take (2 ^ k)) (l.drop (2 ^ k)))

/-- The doubling order of R57: steps of distance d, 2d, … . -/
def doubling {α : Type} (f : α → α → α) : Nat → Nat → List α → List α
  | 0, _, l => l
  | k + 1, d, l => doubling f k (2 * d) (l.take d ++ List.zipWith f l (l.drop d))

/-- The elements that a mask leaves present. -/
def present (m : PReg) (l : List Nat) : List (Option Nat) := l.zipIdx.map fun p => if enabled m p.2 then some p.1 else none

/-- A reduction writes element 0 and zero to every other element, whatever the mask (R151). -/
def State.reduce (s : State) (l : LentB) (t : Ty) (d a : BitVec 7) (f : List (Option Nat) → Nat) : Out :=
  s.slot 1 fun x =>
    let g := l.g.size
    let e := present (x.mask l) (els t.width g (x.opA a g))
    (x.loadA a g).pushElems 10 d g t.width allLanes [f e]

/-- VRADD. -/
def execVradd (l : LentB) (t : Ty) (d a : BitVec 7) (s : State) : Out :=
  s.reduce l t d a fun e => ((((halve (addOpt (sumElem t s.rnd)) (Nat.log2 e.length) e).head?.join).map (canonElem t)).getD 0)

/-- The larger or smaller of two elements (R59). -/
def pickElem (t : Ty) (big : Bool) (a b : Nat) : Nat :=
  match tyFmt t with
  | some F => F.minmax big a b
  | none => if decide (tyInt t a < tyInt t b) = big then b else a

/-- What a maximum or minimum over nothing gives (R151). -/
def emptyPick (t : Ty) (big : Bool) : Nat :=
  match tyFmt t with
  | some F => F.infinity false big
  | none => tyClamp t (if big then (tyRange t).1 else (tyRange t).2)

/-- The maximum or minimum of the present elements. -/
def pickAll (t : Ty) (big : Bool) (e : List (Option Nat)) : Nat :=
  match e.filterMap id with
  | [] => emptyPick t big
  | a :: r => r.foldl (pickElem t big) (canonElem t a)

/-- VRMAX. -/
def execVrmax (l : LentB) (t : Ty) (d a : BitVec 7) (s : State) : Out := s.reduce l t d a (pickAll t true)
/-- VRMIN. -/
def execVrmin (l : LentB) (t : Ty) (d a : BitVec 7) (s : State) : Out := s.reduce l t d a (pickAll t false)

/-- VSCAN. -/
def execVscan (l : LentB) (t : Ty) (d a : BitVec 7) (s : State) : Out :=
  s.slot 1 fun x =>
    let g := l.g.size
    let e := present (x.mask l) (els t.width g (x.opA a g))
    let r := doubling (addOpt (sumElem t (fmtRM x.fmt))) (Nat.log2 e.length) 1 e
    (x.loadA a g).pushElems 12 d g t.width (x.mask l) (r.map fun v => (v.map (canonElem t)).getD 0)

/-- The composition of two pairs of the affine scan (R58): `p` earlier, `q` later. -/
def affine (F : Fmt) (r : Rnd) (p q : Nat × Nat) : Nat × Nat := (fpMul F r q.1 p.1, fpFma F r q.1 p.2 q.2)

/-- VSCANA: the carry-in is element n − 1 of vd, read through latch C. -/
def execVscana (l : LentB) (t : Ty) (d a b : BitVec 7) (s : State) : Out :=
  s.slot 1 fun x =>
    let g := l.g.size
    let F := fmtOf t
    let r := fmtRM x.fmt
    let n := elems t g
    let one := F.round .rne (.fin false 1 0)
    let e := ((els t.width g (x.opA a g)).zip (els t.width g (x.opB b g))).zipIdx.map fun p =>
      if enabled (x.mask l) p.2 then p.1 else (one, 0)
    let c := elemAt t.width (x.opC l.hc d g) (n - 1)
    let h := (doubling (affine F r) (Nat.log2 n) 1 e).map fun p => fpFma F r p.1 c p.2
    (((x.loadA a g).loadB b g).loadC l.hc d g).pushElems 14 d g t.width (x.mask l) h

end Sys2Proof.Machine
end

