-- ==== Sys2Proof/Machine/Memory.lean ====
section
/-! DEFINITION. Events of the memory system: posts (R218), departures (R263), the cluster gateway (R210, R315), the home slices (R211, R319,
R322, R324), load data (R206), page requests and their answers (R293 to R298, R440), the side log (R292), and the miss counters
(R328). -/

namespace Sys2Proof.Machine

/-! ## Misses (R326 to R328) -/

/-- Service class of a strand's own accesses: 0 for a group that holds a contract, else 1. -/
def State.classOf (s : State) (gtag : Nat) : Nat := if (s.grp gtag).contract.isSome then 0 else 1

/-- The service class of a command or stream slot (R326). -/
def State.bulkClass (s : State) (gtag : Nat) : Nat := if (s.grp gtag).contract.isSome then 0 else 2

/-- A request of class `cls` from a cluster is done at a home slice: a miss is counted, and the first RT miss in a period of a contract is
reported (R328). -/
def State.deadline (s : State) (c slice part cls gtag : Nat) : State :=
  let o := s.overrunNs c slice part cls
  let u := s.miss c slice part cls
  if cls ≠ 0 ∨ o = 0 then u
  else match (u.grp gtag).contract, u.part part with
    | some k, some p =>
      let x := Tbl.getD p.ctrs k Contract.reset
      if x.rtMiss then u
      else (u.onPart part fun q => { q with ctrs := Tbl.put Contract.reset q.ctrs k { x with rtMiss := true } }).event part 5 noStrand slice k o
    | _, _ => u

/-! ## Flag posts (R22, R218) -/

/-- A count added to a flag of a group, on-core or saved; a saturated sum sets CTX.FOV in every strand of the group (R22). -/
def State.addFlag (s : State) (g f c : Nat) : State :=
  match Tbl.find s.groups g with
  | none => s
  | some x =>
    let r := flagPost (Tbl.getD x.flags f 0) c
    let y := { x with
      flags := Tbl.put 0 x.flags f r.1
      saved := if r.2 then x.saved.map fun e => (e.1, { e.2 with fov := true }) else x.saved }
    { s.setGrp g y with
      strands := if r.2 then s.strands.map fun e => if e.2.gtag = g then (e.1, { e.2 with fov := true }) else e else s.strands }

/-- The group that a post of an engine names: by its tag wherever it is, or by a package strand that it holds now (R218). -/
def State.postGroup (s : State) (p : Post) : Option Nat :=
  if p.gtag ≠ 0 then (if (Tbl.find s.groups p.gtag).isSome then some p.gtag else none)
  else (s.groups.find? fun e => e.2.strands.contains p.strand).map Prod.fst

/-- A post that has reached its place; the command it ends is complete (R220). -/
def State.endPost (s : State) (p : Post) : State :=
  let t := { s with posts := s.posts.filter fun q => q.id != p.id }
  match p.cmd with
  | some c => t.dropCmd c
  | none => t

/-- A fault met by a command (R239, R291): the command waits. -/
def State.cmdFault (s : State) (id : Nat) (stage2 : Bool) (va acc : Nat) : State :=
  match s.cmd id with
  | none => s
  | some c =>
    let src := if c.kind.isFill then 3 else 2
    let f := s.addFault stage2 c.part c.gtag c.strand va acc src false (true, id)
    f.2.onCmd id fun c => { c with fault := some f.1 }

/-- A command's access has no translation: it waits for a fault, or poison in a table ends its group (R239, R322). -/
def State.cmdMiss (s : State) (c : Cmd) (m : Miss) (va acc : Nat) : State :=
  match m with
  | .stage st => s.cmdFault c.id st va acc
  | .poison pa => s.integrity c.gtag c.part pa

/-- The destination of a command's writes (R218). -/
def CmdKind.dest : CmdKind → Nat
  | .cpy _ d _ | .xred _ _ d _ => d
  | .rst a _ | .ratm _ _ a _ _ _ => a
  | .seal _ _ _ c _ _ => c
  | _ => 0

/-- A post to a local flag word: the count is added to it, wrapping, as by a RED (R218). -/
def State.flagWord (s : State) (p : Post) (c : Cmd) (va : Nat) : State :=
  let t := s.translate (clusterOf c.strand) p.part va true true
  match t.1 with
  | .error m => t.2.cmdMiss c m va 2
  | .ok r =>
    let a := (r.phys va).pa
    let u := t.2
    if u.poisoned (lineOf a) then u.integrity c.gtag c.part a
    else if u.lineWaits (lineOf a) true then u.holdFor true c.id (lineOf a) true
    else
      let v := (leNat (Mem.readN u.mem a 4) + p.count) % 2 ^ 32
      ((u.put a (natLe 4 v)).deadline (clusterOf c.strand) (sliceOf (pageOf a)) c.part (u.bulkClass c.gtag) c.gtag).endPost p

/-- A post to a peer: a message that follows the command's own (R218, R382). -/
def State.sendPost (s : State) (p : Post) (c : Cmd) (va : Nat) (op : RemoteOp) : State :=
  if s.msgs.any fun m => m.isCmd && m.owner == c.id then s
  else
    let t := s.translate (clusterOf c.strand) p.part va false true
    match t.1 with
    | .error m => t.2.cmdMiss c m va 1
    | .ok r => t.2.sendMsg true c.id 0 r.pa.hi (r.phys va).addr op

/-- A post to a group flag of this package: dropped and reported where it names no group of the partition that owns the destination, which
is the issuer's (R218, R234). -/
def State.postLocal (s : State) (p : Post) (c : Cmd) (fd0 fd1 : W64) : State :=
  match s.postGroup p with
  | some g => if (s.grp g).part = p.part then (s.addFlag g p.flag p.count).endPost p else (s.dropPost c fd0 fd1).endPost p
  | none => (s.dropPost c fd0 fd1).endPost p

/-- A post reaches its flag file or flag word, here or at a peer. A header's does so in its cycle; an engine's whenever it arrives. -/
def State.arrivePost (s : State) (id : Nat) : State :=
  match s.posts.find? fun p => p.id == id with
  | none => s
  | some p =>
    match p.fd, p.cmd.bind s.cmd with
    | none, _ => if (p.due.map fun d => decide (d ≤ s.clk)).getD false then (s.addFlag p.gtag p.flag p.count).endPost p else s
    | some (fd0, fd1), some c =>
      if c.fault.isSome then s
      else if flagKind fd1 = 2 then
        let va := bits fd0.toNat 47 0
        if va.testBit 47 then s.sendPost p c va (.flagWord p.count) else s.flagWord p c va
      else if c.kind.dest.testBit 47 then s.sendPost p c c.kind.dest (.groupFlag fd0 p.count)
      else s.postLocal p c fd0 fd1
    | some _, none => s

/-- FLAG_POST_ARRIVAL. -/
def execFlagPostArrival (id : Nat) (s : State) : Out := .next (s.arrivePost id)

/-! ## Departure from the memory queue (R204, R207, R212, R263) -/

/-- The bytes of an access that a translation covers, page by page: the first byte of each piece, and of each further page it enters. -/
def Piece.starts (p : Piece) : List Nat :=
  if p.va % 4096 + p.len ≤ 4096 then [p.va] else [p.va, (p.va / 4096 + 1) * 4096]

/-- Translates the pieces of a request in order: the pieces with their places, or why the first that has none has none. -/
def State.placePieces (s : State) (cl part : Nat) (rd wr : Bool) : List Piece → Except (Miss × Nat) (List Piece) × State
  | [] => (.ok [], s)
  | p :: r =>
    let t := s.translate cl part p.va rd wr
    match t.1 with
    | .error st => (.error (st, p.va), t.2)
    | .ok q =>
      let u := t.2.placePieces cl part rd wr r
      match u.1 with
      | .error e => (.error e, u.2)
      | .ok ps => (.ok ({ p with pa := some (q.phys p.va), attr := q.attr } :: ps), u.2)

/-- SRC of a request's page-request record: a side-log entry, or a load (R281, R296). -/
def Req.src (r : Req) : Nat := if r.returns then 0 else 1

/-- The side log of a request's strand holds 32 entries (R292). -/
def State.noLogRoom (s : State) (r : Req) : Bool :=
  decide (32 ≤ (s.reqs.filter fun e => e.gtag == r.gtag && e.sidx == r.sidx && e.stage == .sideLog).length)

/-- A request met a fault: one that returns a value waits, and its landing with it; any other retires into the side log, and so counts as
performed, once there is room (R207, R291). -/
def State.reqFault (s : State) (r : Req) (stage2 : Bool) (va : Nat) : State :=
  let f := s.addFault stage2 r.part r.gtag r.strand va (accCode r.needs.1 r.needs.2) r.src false (false, r.id)
  let t := f.2.onReq r.id fun q => { q with fault := some f.1 }
  if r.returns then t.markLand r.strand r.id true
  else if r.stage = .sideLog then t
  else if s.noLogRoom r then s
  else
    let g := t.fresh
    (g.2.onReq r.id fun q => { q with stage := .sideLog, log := some g.1 }).unawait r.strand r.id

/-- A request has no translation: it meets a fault, or poison in a table ends its group (R322). -/
def State.reqMiss (s : State) (r : Req) (m : Miss) (va : Nat) : State :=
  match m with
  | .stage st => s.reqFault r st va
  | .poison pa => s.integrity r.gtag r.part pa

/-- A request of the memory queue sets out with its places translated, meets a fault, or stays; a fence whose condition holds has ended. -/
def State.depart (s : State) (id : Nat) : State :=
  match s.req id with
  | none => s
  | some r =>
    if r.stage ≠ .queued ∨ r.fault.isSome = true then s
    else if r.isFence then (if s.fenceHolds r then s.dropReq id else s)
    else if s.mayDepart r then
      let t := s.placePieces (clusterOf r.strand) r.part r.needs.1 r.needs.2 r.pieces
      match t.1 with
      | .error (m, va) => t.2.reqMiss r m va
      | .ok ps => t.2.onReq id fun q => { q with stage := .departed, pieces := ps }
    else s

/-- MEMORY_QUEUE_DEPART. -/
def execMemoryQueueDepart (id : Nat) (s : State) : Out := .next (s.depart id)

/-- A side-log entry that retired earlier, and that its gateway has not accepted, touches a line of an entry (R253, R292). -/
def State.behindEntry (s : State) (r : Req) : Bool :=
  s.reqs.any fun e =>
    e.strand == r.strand && e.gtag == r.gtag && e.log.isSome && e.logsBefore r &&
      r.pieces.any fun p => e.pieces.any fun q => q.acc.isNone && sameLine p q

/-- A side-log entry replays once every page it touches is mapped; entries on a common line in the order in which they retired (R292). -/
def State.replayLog (s : State) (id : Nat) : State :=
  match s.req id with
  | none => s
  | some r =>
    if r.stage ≠ .sideLog ∨ r.fault.isSome = true ∨ s.behindEntry r = true then s
    else
      let t := s.placePieces (clusterOf r.strand) r.part r.needs.1 r.needs.2 r.pieces
      match t.1 with
      | .error (m, va) => t.2.reqMiss r m va
      | .ok ps => t.2.onReq id fun q => { q with stage := .departed, pieces := ps }

/-- SIDE_LOG_REPLAY. -/
def execSideLogReplay (id : Nat) (s : State) : Out := .next (s.replayLog id)

/-! ## The cluster gateway (R210, R315) -/

/-- An operation that gateways and home slices merge (R210). -/
def Req.merges (r : Req) : Bool :=
  match r.kind with
  | .atomic op _ _ _ ret => (op == .add || op == .min || op == .max || op == .and || op == .or || op == .xor || (op == .fadd && !ret))
  | _ => false

/-- Two requests have the same operation, AS and address. -/
def sameAtom (a b : Req) : Bool :=
  match a.kind, b.kind with
  | .atomic o z _ _ _, .atomic o' z' _ _ _ =>
    o == o' && z == z' && a.merges && b.merges && (a.pieces.map Piece.pa == b.pieces.map Piece.pa)
  | _, _ => false

/-- A load piece binds to the cached line, if the cluster holds it. -/
def bindCached (c : Cluster) (p : Piece) : Piece :=
  match p.pa with
  | some a =>
    if a.fab then p
    else match Tbl.find c.lines (lineOf a.pa) with
      | some l => { p with done := true, data := natLe p.len (l.toNat >>> (8 * (a.pa % 64))) }
      | none => p
  | none => p

/-- The cached line a store piece changes. -/
def storeCached (c : Cluster) (p : Piece) : Cluster :=
  match p.pa with
  | some a =>
    let line := lineOf a.pa
    match Tbl.find c.lines line with
    | some l =>
      let b := patch (line * 64) (natLe 64 l.toNat) a.pa p.bytes
      if a.fab then c else { c with lines := Tbl.insert c.lines line (BitVec.ofNat 512 (leNat b)) }
    | none => c
  | none => c

/-- The gateway drops its copy of the line of a piece. -/
def dropCached (c : Cluster) (p : Piece) : Cluster :=
  match p.pa with
  | some a => { c with lines := Tbl.erase c.lines (lineOf a.pa) }
  | none => c

/-- An earlier load or atomic of the strand to a byte of the piece has still to bind: the piece binds at the home slice, after it (R204,
R256). -/
def State.bindsLater (s : State) (r : Req) (i : Nat) (p : Piece) : Bool :=
  (r.pieces.zipIdx.any fun e => decide (e.2 < i) && !e.1.done && s.touch r p r e.1) ||
    s.reqs.any fun e => e.gtag == r.gtag && e.sidx == r.sidx && decide (e.id < r.id) && e.kind != .store && e.pieces.any fun q => !q.done && s.touch r p e q

/-- The gateway takes piece `i` of a request that has set out, if the order of accesses lets it: a load of the local half binds to the line it
holds, one of the fabric half goes to the peer, a store changes that line, an atomic drops it (R315). -/
def State.acceptPiece (s : State) (id i : Nat) : State :=
  match s.req id with
  | none => s
  | some r =>
    match r.pieces[i]? with
    | none => s
    | some p =>
      if s.admits r i p = false then s
      else
        let f := s.fresh
        let c := clusterOf r.strand
        let t := f.2.onReq id fun q => { q with pieces := q.pieces.modify i fun p => { p with acc := some f.1 } }
        match r.kind, p.pa with
        | .load, some a =>
          if a.fab then t.sendMsg false id i a.hi a.addr (.read p.len)
          else if s.bindsLater r i p then t
          else t.onReq id fun q => { q with pieces := q.pieces.modify i (bindCached (t.cluster c)) }
        | .store, _ => t.setCluster c (storeCached (t.cluster c) p)
        | .atomic .., _ => t.setCluster c (dropCached (t.cluster c) p)
        | _, _ => t

/-- A request all of whose pieces its gateway has accepted is never issued again (R202). -/
def State.endAwait (s : State) (id : Nat) : State :=
  match s.req id with
  | some r => if r.pieces.all fun p => p.acc.isSome then s.unawait r.strand id else s
  | none => s

/-- The gateway accepts a request as part of the run that begins with `run`: every piece that may depart. -/
def State.accept (s : State) (run id : Nat) : State :=
  match s.req id with
  | none => s
  | some r =>
    ((List.range r.pieces.length).foldl (fun (t : State) i => t.acceptPiece id i)
      (s.onReq id fun q => { q with stage := .accepted, run := if r.stage = .accepted then q.run else run })).endAwait id

/-- A request is before its gateway: it has set out, or some of its pieces are still to be accepted. -/
def Req.arriving (r : Req) : Bool := r.stage == .departed || (r.stage == .accepted && r.pieces.any fun p => p.acc.isNone)

/-- The gateway takes requests that reach it in one cycle (R315): a single one, or requests of one cluster that it merges (R210). -/
def State.gateway (s : State) (ids : List Nat) : State :=
  let rs := ids.filterMap s.req
  match rs with
  | [] => s
  | r :: l =>
    if (rs.all fun e => e.arriving && s.mayDepart e) = true ∧ (l.all fun e => sameAtom r e && clusterOf e.strand == clusterOf r.strand) = true then
      rs.foldl (fun (t : State) e => t.accept r.id e.id) s
    else s

/-- GATEWAY_REQUEST. -/
def execGatewayRequest (ids : List Nat) (s : State) : Out := .next (s.gateway ids)

/-! ## Performing at the home slice (R209 to R211, R319) -/

/-- The new value of an atomic's word (R209). -/
def atomNew (op : AtomOp) (z : As) (old x e : Nat) : Nat :=
  let w := 8 * asBytes z
  let signed := z == .i32 || z == .i64
  let less := fun (a b : Nat) => if signed then decide (toSigned w a < toSigned w b) else decide (a < b)
  match op with
  | .add => (old + x) % 2 ^ w
  | .fadd => fpAdd (if w = 32 then Fmt.f32 else Fmt.f64) .rne old x
  | .min => if less x old then x else old
  | .max => if less old x then x else old
  | .and => old &&& x
  | .or => old ||| x
  | .xor => old ^^^ x
  | .swp => x
  | .cas => if old = e then x else old

/-- The value that an atomic returns (R209): 32-bit words sign-extended for .i32, else zero-extended. -/
def atomReturn (z : As) (op : AtomOp) (old : Nat) : W64 :=
  if z = .i32 ∧ op ≠ .fadd then BitVec.ofInt 64 (toSigned 32 old) else BitVec.ofNat 64 old

/-- One of the orders of some requests, by free choices. -/
def State.shuffle (s : State) : Nat → List Req → List Req × State
  | 0, l => (l, s)
  | n + 1, l =>
    if l.length ≤ 1 then (l, s)
    else
      let q := s.choose l.length
      match l[q.1]? with
      | none => (l, q.2)
      | some r =>
        let t := q.2.shuffle n (l.filter fun e => e.id != r.id)
        (r :: t.1, t.2)

/-- The operand of a request's atomic. -/
def Req.operand (r : Req) : Nat :=
  match r.kind with
  | .atomic _ _ x _ _ => x.toNat
  | _ => 0

/-- The merged operand of fadd requests (R211): each gateway run in ascending strand order, then the runs by their lowest strand. -/
def mergedFadd (z : As) (l : List Req) : Nat :=
  let add := atomNew .fadd z
  let fold := fun (vs : List Nat) => match vs with
    | [] => 0
    | v :: r => r.foldl (fun a b => add a b 0) v
  let runs := sortBy (fun (g : List Req) => (g.headD (Req.mk 0 none 0 0 0 0 0 false .load .queued none [])).strand)
    ((l.map Req.run).eraseDups.map fun n => sortBy Req.strand (l.filter fun r => r.run == n))
  fold (runs.map fun g => fold (g.map Req.operand))

/-- A piece of a request has its value. -/
def State.pieceDone (s : State) (id i : Nat) (data : List Byte) : State :=
  s.onReq id fun q => { q with pieces := q.pieces.modify i fun p => { p with done := true, data := data } }

/-- Requests applied to a word one after another: the old value that each binds, by request, and the value that the word ends with. -/
def atomRun (v : Nat) : List Req → List (Nat × Nat) × Nat
  | [] => ([], v)
  | r :: l =>
    match r.kind with
    | .atomic op z x e _ => let t := atomRun (atomNew op z v x.toNat e.toNat) l; ((r.id, v) :: t.1, t.2)
    | _ => atomRun v l

/-- Merged atomics on a word of `n` bytes are performed together, as one write of its line (R210, R211, R273, R319): runs of fadd as one addition
of the merged operand, others in a serial order. -/
def State.performAtoms (s : State) (a : Nat) (l : List Req) : State :=
  match l with
  | [] => s
  | r :: _ =>
    match r.kind with
    | .atomic op z _ _ ret =>
      let n := asBytes z
      let old := leNat (Mem.readN s.mem a n)
      if op = .fadd ∧ ret = false then
        l.foldl (fun (t : State) r => t.pieceDone r.id 0 []) (s.put a (natLe n (atomNew .fadd z old (mergedFadd z l) 0)))
      else
        let t := s.shuffle l.length l
        let v := atomRun old t.1
        v.1.foldl (fun (u : State) e => u.pieceDone e.1 0 (natLe n e.2)) (t.2.put a (natLe n v.2))
    | _ => s

/-- The report of KQRY (R244): of a page being rewritten, BUSY and the state before the rewrite. -/
def State.keyReport (s : State) (sel : KqSel) (pa : Nat) : Nat :=
  let page := pageOf pa
  let k := keyOf page
  let w := s.rewrite page
  let gen := (w.map Rewrite.gen).getD (s.gen page)
  let minor := fun i => ((w.map fun e => Tbl.getD e.minors i 0).getD (s.minor page i)).toNat
  match sel with
  | .page => place k 11 0 + place gen.toNat 27 12 + place (if gen = (s.key k).cur then 1 else 0) 28 28 + place (if w.isSome then 1 else 0) 29 29
  | .major => (w.map Rewrite.major).getD (s.major page)
  | .line => minor (lineOf pa % 64) + place (((List.range 64).map minor).foldl max 0) 14 8
  | .gen => (s.key k).cur.toNat + place (s.key k).lag 47 16 + place k 59 48
  | .group => 0

/-- The sets of a line cache of 57,344 lines, 16-way (R314); a line lies in the set of its number modulo this (log entry 86). -/
def cacheSets : Nat := 3584

/-- A line cache takes a line; where its set is full, one of its lines, by free choice, makes room (R314, log entry 86). -/
def State.cacheLine (s : State) (c line : Nat) : State :=
  let k := s.cluster c
  let set := (k.lines.map Prod.fst).filter fun l => l % cacheSets == line % cacheSets && l != line
  let q := s.choose 16
  let t := if set.length < 16 then s else q.2.setCluster c { k with lines := Tbl.erase k.lines ((set[q.1]?).getD line) }
  let b := t.engineBytes c (64 * line) 64
  t.setCluster c { t.cluster c with lines := Tbl.insert (t.cluster c).lines line (BitVec.ofNat 512 (leNat b)) }

/-- Piece `i` of a request is performed at its home slice. -/
def State.performPiece (s : State) (r : Req) (i : Nat) (p : Piece) (a : Nat) : State :=
  let c := clusterOf r.strand
  match r.kind with
  | .load => (s.pieceDone r.id i (s.engineBytes c a p.len)).cacheLine c (lineOf a)
  | .store =>
    let t := (s.store (some c) a p.bytes).pieceDone r.id i []
    if (r.pieces.zipIdx.all fun e => e.1.done || e.2 == i) then t.dropReq r.id else t
  | .kqry sel => s.pieceDone r.id i (natLe 8 (s.keyReport sel a))
  | _ => s

/-! ## The home slice -/

/-- What must be performed before an accepted piece of a request: earlier pieces on a common byte, of the same request or of the strand's
earlier ones; stores and atomics of its cluster on a common byte that the gateway accepted before (R204, R256, R315). -/
def State.pieceReady (s : State) (r : Req) (i : Nat) (p : Piece) (a : Nat) : Bool :=
  let clear := fun (e : Req) (q : Piece) => q.done || !((q.pa.map fun b => !b.fab && meetsAt r p a e q b.pa).getD false)
  p.acc.isSome && (r.pieces.zipIdx.all fun e => decide (i ≤ e.2) || clear r e.1) &&
    s.reqs.all fun e =>
      e.id == r.id ||
        e.pieces.all fun q =>
          clear e q ||
            !((e.gtag == r.gtag && e.sidx == r.sidx && e.id < r.id) ||
              (r.writes && e.writes && decide ((q.acc.map fun n => decide (n < p.acc.getD 0)).getD false) && clusterOf e.strand == clusterOf r.strand &&
                e.run != r.run))

/-- A key query. -/
def Req.isKqry (r : Req) : Bool :=
  match r.kind with
  | .kqry _ => true
  | _ => false

/-- The requests that a merge takes in: every member of every run named. -/
def State.wholeRuns (s : State) (ids : List Nat) : List Req :=
  let runs := (ids.filterMap s.req).map Req.run
  s.reqs.filter fun r => runs.contains r.run && r.stage == .accepted

/-- A check at a home slice fails for a request: a message or response that is discarded, or memory that is poisoned from then on (R316, R322). -/
def State.checkFails (s : State) (chk : SliceCheck) (g p pa : Nat) (line : Bool) : State :=
  match chk with
  | .sound => s
  | .message | .response => s.badMessage g p
  | .memory => (s.spoil (lineOf pa) line).integrity g p pa

/-- The path of a piece: the cluster and the home slice. -/
def Piece.pathFrom (p : Piece) (k : Nat) : Option (Nat × Nat) :=
  p.pa.bind fun a => if a.fab then none else some (clusterOf k, sliceOf (pageOf a.pa))

/-- An accepted piece sets out for its home slice, once the path of its cluster lets it (R368). -/
def State.sendPiece (s : State) (id i : Nat) : State :=
  match (s.req id).bind fun r => (r.pieces[i]?).map fun p => (r, p) with
  | none => s
  | some (r, p) =>
    match p.pathFrom r.strand with
    | none => s
    | some (c, l) =>
      if p.acc.isNone ∨ p.via = true then s
      else match s.wayTo c l with
        | none => s
        | some k => (s.takePath c l k).onReq id fun q => { q with pieces := q.pieces.modify i fun p => { p with via := true } }

/-- A piece is on its way to its home slice. -/
def State.underWay (s : State) (id i : Nat) : Bool :=
  (((s.req id).bind fun r => r.pieces[i]?).map fun (p : Piece) => p.via).getD false

/-- A home slice performs a piece of a request, or requests that it merges, once they have come (R319). A locked line, or a store that finds its minor counter at 127,
waits (R321, R324). A check that fails, or poison, ends the requesting groups; a response that fails does so after the access (R316). -/
def State.homeSlice (s : State) (ids : List Nat) (i : Nat) (chk : SliceCheck) : State :=
  let rs := s.wholeRuns ids
  let s := rs.foldl (fun (t : State) e => t.sendPiece e.id i) s
  match rs with
  | [] => s
  | r :: l =>
    match r.pieces[i]? with
    | none => s
    | some p =>
      match p.pa with
      | none => s
      | some b =>
        let a := b.pa
        let line := lineOf a
        let done := fun (t : State) => t.deadline (clusterOf r.strand) (sliceOf (pageOf a)) r.part (s.classOf r.gtag) r.gtag
        if b.fab = true ∨ p.done = true ∨ (rs.all fun e => s.underWay e.id i) = false ∨ (l.all (sameAtom r)) = false ∨ (rs.all fun e => s.pieceReady e i p a) = false then s
        else if chk = .message then
          rs.foldl (fun (t : State) e => (t.dropReq e.id).badMessage e.gtag e.part) s
        else if r.isKqry then
          if chk = .memory then s.checkFails chk r.gtag r.part a false
          else if s.poison.contains (stackPage (pageOf a), none) then s.integrity r.gtag r.part a
          else if chk = .response then (done (s.performPiece r i p a)).checkFails chk r.gtag r.part a false
          else done (s.performPiece r i p a)
        else if s.lineWaits line r.writes then s.holdFor false r.id line r.writes
        else if chk = .memory ∨ s.poisoned line = true then
          let t := if chk = .memory then s.spoil line true else s
          rs.foldl (fun (t : State) e => t.integrity e.gtag e.part a) t
        else
          let t := match r.kind with
            | .atomic .. => s.performAtoms a rs
            | _ => s.performPiece r i p a
          let u := done t
          let v := { u with reqs := u.reqs.filter fun e => !(e.writes && !e.returns && e.stage == .accepted && e.pieces.all Piece.done) }
          if chk = .response then rs.foldl (fun (t : State) e => (t.dropReq e.id).badMessage e.gtag e.part) v else v

/-- The local lines that a command may access, in the order of its ranges. -/
def State.cmdLine (s : State) (c : Cmd) (i : Nat) : Option Nat :=
  (((s.cmdRanges c).filter fun e => !e.1.testBit 47).flatMap fun e => (List.range ((e.1 + e.2 + 63) / 64 - e.1 / 64)).map fun k => 64 * (e.1 / 64 + k))[i]?

/-- A check that fails for line `i` of a command's accesses (R316, R322). -/
def State.cmdCheck (s : State) (id i : Nat) (chk : SliceCheck) : State :=
  match s.cmd id with
  | none => s
  | some c =>
    if c.accepted.isNone ∨ c.written = true then s
    else match s.cmdLine c i with
      | none => s
      | some va =>
        match s.walk c.part va false false with
        | .ok t => if t.pa.fab then s else s.checkFails chk c.gtag c.part (t.phys va).pa true
        | .error _ => s

/-- HOME_SLICE_REQUEST: of requests, or of a command whose check fails. With no number it is a read of line `i` by any other unit (a table walk,
Lamplighter, a record's ring, the aperture, a peer) whose check fails twice: the line is poisoned, and the unit finds it so (R322). -/
def execHomeSliceRequest (ids : List Nat) (i : Nat) (chk : SliceCheck) (s : State) : Out :=
  .next (match ids with
    | [] => if chk = .memory then s.spoil i true else s
    | [id] => if (s.req id).isSome then s.homeSlice ids i chk else s.cmdCheck id i chk
    | _ => s.homeSlice ids i chk)

/-- PAGE_REENCRYPTION. -/
def execPageReencryption (page : Nat) (s : State) : Out := .next (s.reencrypt page)

/-- MISSCNT_READ: the counter clears as the management window reads it (R328). -/
def execMisscntRead (slice part cls : Nat) (s : State) : Out :=
  let i := missIndex slice part cls
  .next (if s.mgmtOpen = true ∧ slice < 12 ∧ part < 16 ∧ cls < 4 then
      { s with misscnt := Tbl.erase s.misscnt i, answer := some (natLe 8 (Tbl.getD s.misscnt i 0).toNat) }
    else s)

/-! ## Load data (R206) -/

/-- The bytes a load returns: each piece's at its place, the bytes of the region buffer over them (R300). -/
def loadNat (ps : List Piece) : Nat :=
  ps.foldl (fun v p =>
    let b := (List.range p.len).map fun k => (((p.bytes[k]?).bind id).getD ((p.data[k]?).getD 0))
    v + leNat b * 2 ^ (8 * p.off)) 0

/-- The value that a landing takes. -/
def landValue (v : Nat) : Target → Target
  | .group r regs => .group r ((List.range regs.length).map fun k => BitVec.ofNat 4096 (v >>> (4096 * k)))
  | .s r _ => .s r (BitVec.ofNat 64 v)
  | t => t

/-- Every piece of a request that returns a value has its data: they arrive in its landing. -/
def State.arriveData (s : State) (id : Nat) : State :=
  match s.req id with
  | none => s
  | some r =>
    if r.stage = .accepted ∧ r.returns = true ∧ (r.pieces.all Piece.done) = true then
      let v := match r.kind with
        | .atomic op z _ _ _ => (atomReturn z op (leNat ((r.pieces.headD (Piece.read 0 0 0 [])).data))).toNat
        | .kqry _ => leNat ((r.pieces.headD (Piece.read 0 0 0 [])).data)
        | _ => loadNat r.pieces
      let x := s.strand r.strand
      (if x.gtag = r.gtag ∧ x.sidx = r.sidx then s.fillLand r.strand id (landValue v) else s).dropReq id
    else s

/-- LOAD_DATA_ARRIVAL. -/
def execLoadDataArrival (id : Nat) (s : State) : Out := .next (s.arriveData id)

/-! ## Page requests (R293 to R298) -/

/-- A free entry for a fault of a partition: one reserved for it, else a shared one (R293). -/
def State.freeEntry (s : State) (p : Nat) : Option Nat :=
  ((List.range 4).map (4 * p + ·) ++ (List.range 192).map (64 + ·)).find? fun t => !(s.preqs.any fun e => e.tag == t)

/-- A fault takes its entry: that of its page and stage, else a free one. -/
def State.enqueueFault (s : State) (id : Nat) : State :=
  match s.faults.find? fun f => f.id == id with
  | none => s
  | some f =>
    let t := { s with faults := s.faults.filter fun g => g.id != id }
    let same := fun (e : PageReq) => e.part == f.part && e.stage2 == f.stage2 && e.page == f.va / 4096
    if s.preqs.any same then
      { t with preqs := t.preqs.map fun e => if same e then { e with waiters := e.waiters ++ [f.waiter] } else e }
    else match s.freeEntry f.part with
      | none => s
      | some n => { t with preqs := t.preqs ++
          [⟨n, f.part, f.stage2, f.va / 4096, f.va, f.acc, f.src, f.strand, f.wid, f.ipa, f.table, f.access, false, [f.waiter]⟩] }

/-- PAGE_REQUEST_ENQUEUE. -/
def execPageRequestEnqueue (id : Nat) (s : State) : Out := .next (s.enqueueFault id)

/-- The access that a waiter of an entry makes goes on. -/
def State.resumeWaiter (s : State) (w : Bool × Nat × Nat) : State :=
  if w.1 then s.onCmd w.2.1 fun c => { c with fault := none }
  else match s.req w.2.1 with
    | none => s
    | some r => (s.onReq w.2.1 fun q => { q with fault := none }).markLand r.strand w.2.1 false

/-- A landing ends with zero (R298). -/
def zeroLand : Target → Target
  | .group r regs => .group r (regs.map fun _ => 0)
  | .s r _ => .s r 0
  | t => t

/-- A strand's landing of a request ends with zero, which its arrival bundle sees when it issues; its entry of the landing buffer is freed
(R298). -/
def State.zeroLanding (s : State) (k id : Nat) : State :=
  let f := fun (l : List Write) => (fillLanding id zeroLand l).map fun w => if w.land = some id then { w with entry := false } else w
  let x := s.strand k
  s.setStrand k { x with pend := f x.pend, pendH := f x.pendH }

/-- The arrival of a request's landing: its mode and bundle. -/
def Strand.arrivalOf (x : Strand) (id : Nat) : Option (Bool × Nat) :=
  ((x.pend.find? fun w => w.land == some id).map fun w => (false, w.vis)).or
    ((x.pendH.find? fun w => w.land == some id).map fun w => (true, w.vis))

/-- A command is a slot of a ring's stream. -/
def CmdKind.isSlot (h : Nat) : CmdKind → Bool
  | .slot r .. => r == h
  | _ => false

/-- A stream that an INVALID answer ends: its binding ends, its slots in INFL become FREE, and a fill's TAIL returns to the first of them, so that
FILL slots still lie between HEAD and TAIL (R20, R298, log entry 102). -/
def Strand.dropStream (x : Strand) (h : Nat) : Strand :=
  let r := x.ring h
  { x.setRing h { r with
      bind := 0, infl := 0, free := r.free + r.infl, tail := if r.bind = 1 then (r.tail + r.nslot - r.infl) % r.nslot else r.tail } with
    streams := x.streams.filter fun t => t.ring != h }

/-- The slots of a strand's stream are dropped. -/
def State.dropSlots (s : State) (c : Cmd) (h : Nat) : State :=
  { s with cmds := s.cmds.filter fun e => !(e.gtag == c.gtag && e.sidx == c.sidx && e.kind.isSlot h) }

/-- The handler count of the bundle that is held. -/
def Strand.heldCount (x : Strand) : Nat := (x.hreplay.map Replay.n).getD x.hcnt

/-- An INVALID answer ends a command: no flag post, its bytes stay written (R298). The pages that the write-back of a strand in DONEWAIT cannot
write are lost. -/
def State.cmdInvalid (s : State) (c : Cmd) (stage2 : Bool) (va : Nat) : State :=
  let t := { s with posts := s.posts.filter fun p => p.cmd != some c.id, msgs := s.msgs.filter fun m => !(m.isCmd && m.owner == c.id) }.dropCmd c.id
  let st := if stage2 then 1 else 0
  let x := t.strand c.strand
  let mine : Bool := x.gtag == c.gtag && x.sidx == c.sidx && (Tbl.find t.strands c.strand).isSome
  match c.kind with
  | .fill .. =>
    if mine = false then t
    else if x.handler && c.hnd then
      let y := t.setStrand c.strand { x with life := if x.life = .faultWait then x.back else x.life }
      let z := y.strand c.strand
      y.trap c.strand z.pc z.heldCount true ((z.hreplay.map Replay.first).getD true) none 0 ⟨.address, 0, BitVec.ofNat 64 va, true, st, 3⟩
    else t.pendTrap c.strand c.gtag ⟨.address, BitVec.ofNat 64 va, 3, st, none, s.clk⟩
  | .slot h .. =>
    let u := (if mine then t.setStrand c.strand (x.dropStream h) else t).dropSlots c h
    u.pendTrap c.strand c.gtag ⟨.address, BitVec.ofNat 64 va, 2, st, none, s.clk⟩
  | .wbr off size =>
    let lost := fun (e : MapEnt) => { e with dirty := e.dirty.filter fun p => !meets (e.off + 4096 * p) 4096 off size }
    if mine = true ∧ x.life = .doneWait then t.setStrand c.strand { x with maps := x.maps.map lost }
    else t.pendTrap c.strand c.gtag ⟨.address, BitVec.ofNat 64 va, 2, st, none, s.clk⟩
  | _ => t.pendTrap c.strand c.gtag ⟨.address, BitVec.ofNat 64 va, 2, st, none, s.clk⟩

/-- An INVALID answer ends an access that waits (R298). -/
def State.endWaiter (s : State) (e : PageReq) (w : Bool × Nat × Nat) : State :=
  let st := if e.stage2 then 1 else 0
  let va := BitVec.ofNat 64 w.2.2
  if w.1 then (match s.cmd w.2.1 with
    | some c => s.cmdInvalid c e.stage2 w.2.2
    | none => s)
  else match s.req w.2.1 with
    | none => s
    | some r =>
      let x := s.strand r.strand
      let t := (s.dropReq r.id).unawait r.strand r.id
      let mine : Bool := x.gtag == r.gtag && x.sidx == r.sidx && (Tbl.find s.strands r.strand).isSome
      if mine = false then t
      else if r.returns then
        let u := t.zeroLanding r.strand r.id
        if x.life = .doneWait then u
        else match x.arrivalOf r.id with
          | some a => u.setStrand r.strand { u.strand r.strand with traps := x.traps ++ [⟨.address, va, 0, st, some a, s.clk⟩] }
          | none => u
      else if x.life = .doneWait then t.event r.part 4 r.strand x.wid.toNat w.2.2 0
      else t.pendTrap r.strand r.gtag ⟨.address, va, 1, st, none, s.clk⟩

/-- An entry is answered INVALID. -/
def State.answerInvalid (s : State) (e : PageReq) : State :=
  e.waiters.foldl (fun (t : State) w => t.endWaiter e w) { s with preqs := s.preqs.filter fun q => q.tag != e.tag }

/-- An entry is answered resolved: every access walks again. -/
def State.answerResolved (s : State) (e : PageReq) : State :=
  e.waiters.foldl (fun (t : State) w => t.resumeWaiter w) { s with preqs := s.preqs.filter fun q => q.tag != e.tag }

/-- A page-request record (R296). -/
def pageRecord (e : PageReq) : List Byte :=
  wordBytes [place e.va 47 0, place e.acc 1 0 + place e.src 3 2 + place e.strand 12 4 + place e.tag 23 16 + place e.part 27 24, e.wid.toNat, 0]

/-- The record of a stage-1 entry is written once its ring has room and its line does not wait; where stage 2 does not map the ring it ends as
INVALID (R294, R295, R321), and so where the ring's line is poisoned (R322, log entry 99). -/
def State.writePageRequest (s : State) (tag : Nat) : State :=
  match s.preqs.find? fun e => e.tag == tag with
  | none => s
  | some e =>
    match s.part e.part with
    | none => s
    | some q =>
      if e.stage2 = true ∨ e.written = true ∨ ringRoom q.prqProd q.prqCons q.prqLsz = false then s
      else match s.ringSlot e.part q.prqBase q.prqProd q.prqLsz with
        | none => s.answerInvalid e
        | some a =>
          if s.poisoned (lineOf a) then (s.poisonRecord e.part a).answerInvalid e else
          let r := s.putRecord e.part a (pageRecord e)
          if r.1 ≠ .written then r.2
          else
            let t := r.2.onPart e.part fun q => { q with prqProd := q.prqProd + 1 }
            { t with preqs := t.preqs.map fun f => if f.tag = tag then { f with written := true } else f }

/-- PAGE_REQUEST_RECORD_WRITE. -/
def execPageRequestRecordWrite (tag : Nat) (s : State) : Out := .next (s.writePageRequest tag)

/-- PRESP (R297): the guest answers a stage-1 entry of its partition. Resolved, the walk is made again; if it faults again at stage 1, the
entry writes a new record. -/
def execPrespWrite (p : Nat) (v : W64) (s : State) : Out :=
  .next (match s.tdi p, s.preqs.find? fun e => e.tag == bits v.toNat 7 0 && e.part == p && !e.stage2 with
    | some _, some e =>
      if v.toNat.testBit 8 then s.answerInvalid e
      else match s.walk p e.va (e.acc != 1) (e.acc == 1 || e.acc == 2) with
        | .error (.stage false) => { s with preqs := s.preqs.map fun f => if f.tag = e.tag then { f with written := false } else f }
        | _ => s.answerResolved e
    | _, _ => s)

/-- LANTERN_STAGE2_ANSWER (R440): resolved where stage 2 now gives what the access needed where it stopped; held while only a trust domain for
the peer is missing and an agreement toward that peer is in progress; else INVALID. An ACCESS answer of a target is INVALID. -/
def execLanternStage2Answer (tag : Nat) (s : State) : Out :=
  .next (match s.preqs.find? fun e => e.tag == tag && e.stage2 with
    | none => s
    | some e =>
      if e.access then s.answerInvalid e
      else match s.stage2Now e with
        | (true, _) => s.answerResolved e
        | (false, some n) => if ((s.part e.part).map fun q => q.tdx.busy && q.tdx.peer == n).getD false then s else s.answerInvalid e
        | (false, none) => s.answerInvalid e)

end Sys2Proof.Machine
end

