-- ==== Sys2Proof/Machine/VecInt.lean ====
section
/-! DEFINITION. Slot B: integer arithmetic, logic and the carry chain (R140 to R143), and lane movement (R145, R147, R154 to R158). -/

namespace Sys2Proof.Machine

/-! ## Integer and logic (R140) -/

/-- VIADD. -/
def execViadd (l : LentB) (t : Ty) (d a b : BitVec 7) (s : State) : Out := s.vec2 2 l t d a b fun x y => x + y
/-- VISUB. -/
def execVisub (l : LentB) (t : Ty) (d a b : BitVec 7) (s : State) : Out :=
  s.vec2 2 l t d a b fun x y => x + 2 ^ t.width - y % 2 ^ t.width
/-- VIMUL. -/
def execVimul (l : LentB) (t : Ty) (d a b : BitVec 7) (s : State) : Out := s.vec2 4 l t d a b fun x y => x * y
/-- VIMULH. -/
def execVimulh (l : LentB) (t : Ty) (d a b : BitVec 7) (s : State) : Out :=
  s.vec2 4 l t d a b fun x y => ofSigned t.width (tyInt t x * tyInt t y / (2 ^ t.width : Nat))
/-- VIMAD. -/
def execVimad (l : LentB) (t : Ty) (d a b : BitVec 7) (s : State) : Out := s.vec3 4 l t d a b fun x y z => x * y + z
/-- VIMIN. -/
def execVimin (l : LentB) (t : Ty) (d a b : BitVec 7) (s : State) : Out :=
  s.vec2 2 l t d a b fun x y => if tyInt t y < tyInt t x then y else x
/-- VIMAX. -/
def execVimax (l : LentB) (t : Ty) (d a b : BitVec 7) (s : State) : Out :=
  s.vec2 2 l t d a b fun x y => if tyInt t x < tyInt t y then y else x
/-- VAND. -/
def execVand (l : LentB) (t : Ty) (d a b : BitVec 7) (s : State) : Out := s.vec2 2 l t d a b fun x y => x &&& y
/-- VOR. -/
def execVor (l : LentB) (t : Ty) (d a b : BitVec 7) (s : State) : Out := s.vec2 2 l t d a b fun x y => x ||| y
/-- VXOR. -/
def execVxor (l : LentB) (t : Ty) (d a b : BitVec 7) (s : State) : Out := s.vec2 2 l t d a b fun x y => x ^^^ y
/-- VNOT. -/
def execVnot (l : LentB) (t : Ty) (d a : BitVec 7) (s : State) : Out := s.vec1 2 l t d a fun x => 2 ^ t.width - 1 - x
/-- VSHL. -/
def execVshl (l : LentB) (t : Ty) (d a b : BitVec 7) (s : State) : Out := s.vec2 2 l t d a b fun x y => x <<< (y % t.width)
/-- VSHR. -/
def execVshr (l : LentB) (t : Ty) (d a b : BitVec 7) (s : State) : Out := s.vec2 2 l t d a b fun x y => x >>> (y % t.width)
/-- VSAR. -/
def execVsar (l : LentB) (t : Ty) (d a b : BitVec 7) (s : State) : Out :=
  s.vec2 2 l t d a b fun x y => ofSigned t.width (toSigned t.width x / (2 ^ (y % t.width) : Nat))
/-- VPOPC. -/
def execVpopc (l : LentB) (t : Ty) (d a : BitVec 7) (s : State) : Out := s.vec1 2 l t d a (oneBits t.width)
/-- VCLZ. -/
def execVclz (l : LentB) (t : Ty) (d a : BitVec 7) (s : State) : Out := s.vec1 2 l t d a (leadingZeros t.width)

/-- VMULW (R141): exact products of twice the width in a group of twice the size. -/
def execVmulw (l : LentB) (t : Ty) (d a b : BitVec 7) (s : State) : Out :=
  s.slot 1 fun x =>
    let g := l.g.size
    let w := t.width
    ((x.loadA a g).loadB b g).pushElems 4 d (2 * g) (2 * w) (x.mask l)
      (List.zipWith (fun p q => ofSigned (2 * w) (tyInt t p * tyInt t q)) (els w g (x.opA a g)) (els w g (x.opB b g)))

/-! ## The carry chain (R142, R143) -/

/-- The lanes of the mask below `n`. -/
def laneMask (m : PReg) (n : Nat) : PReg := m &&& BitVec.ofNat 1024 (2 ^ n - 1)

/-- A carry chain step: each lane's result and carry from two operands and the carry in. -/
def State.carry (s : State) (l : LentB) (d a b : BitVec 7) (p : BitVec 4) (f : Nat → Nat → Nat → Nat × Bool) : Out :=
  s.slot 1 fun x =>
    let g := l.g.size
    let c := x.p p.toNat
    let r := ((els 64 g (x.opA a g)).zip (els 64 g (x.opB b g))).zipIdx.map fun e =>
      f e.1.1 e.1.2 (if c.getLsbD e.2 then 1 else 0)
    (((x.loadA a g).loadB b g).pushElems 2 d g 64 (x.mask l) (r.map Prod.fst)).pushP 2 p (laneMask (x.mask l) (64 * g))
      (BitVec.ofNat 1024 (packElems 1 (r.map fun e => if e.2 then 1 else 0)))

/-- VADC. -/
def execVadc (l : LentB) (d a b : BitVec 7) (p : BitVec 4) (s : State) : Out :=
  s.carry l d a b p fun x y c => ((x + y + c) % 2 ^ 64, decide (2 ^ 64 ≤ x + y + c))
/-- VSBC. -/
def execVsbc (l : LentB) (d a b : BitVec 7) (p : BitVec 4) (s : State) : Out :=
  s.carry l d a b p fun x y c => ((x + 2 ^ 65 - y - c) % 2 ^ 64, decide (x < y + c))

/-- VMADC: low words in registers vd to vd + G − 1, high words in the next G; the addend is read through latch C. -/
def execVmadc (l : LentB) (d a b : BitVec 7) (p : BitVec 4) (s : State) : Out :=
  s.slot 1 fun x =>
    let g := l.g.size
    let c := x.p p.toNat
    let r := List.zipWith (fun e lo => e.1.1 * e.1.2 + lo + (if c.getLsbD e.2 then 1 else 0))
      ((els 64 g (x.opA a g)).zip (els 64 g (x.opB b g))).zipIdx (els 64 g (x.opC l.hc d g))
    ((((x.loadA a g).loadB b g).loadC l.hc d g).pushGroup 4 d.toNat g (x.mask l) 64 (64 * g) (packElems 64 r)).pushGroup 4
      (d.toNat + g) g (x.mask l) 64 (64 * g) (packElems 64 (r.map (· / 2 ^ 64)))

/-! ## Selection, packing and lane movement -/

/-- VSELP (R145): 32-bit lanes. -/
def execVselp (l : LentB) (d a b : BitVec 7) (p : BitVec 4) (s : State) : Out :=
  s.slot 1 fun x =>
    let g := l.g.size
    let c := x.p p.toNat
    ((x.loadA a g).loadB b g).pushElems 2 d g 32 (x.mask l)
      (((els 32 g (x.opA a g)).zip (els 32 g (x.opB b g))).zipIdx.map fun e => if c.getLsbD (e.2 % 1024) then e.1.1 else e.1.2)

/-- VPACK (R147): TY names the source type; the 2n elements have half its width. -/
def execVpack (l : LentB) (t : Ty) (d a b : BitVec 7) (s : State) : Out :=
  s.slot 1 fun x =>
    let g := l.g.size
    let w := t.width
    ((x.loadA a g).loadB b g).pushElems 2 d g (w / 2) (x.mask l) (els w g (x.opA a g) ++ els w g (x.opB b g))

/-- VUNPK (R147). -/
def execVunpk (l : LentB) (t : Ty) (d a : BitVec 7) (s : State) : Out :=
  s.slot 1 fun x =>
    let g := l.g.size
    let w := t.width
    (x.loadA a g).pushElems 2 d (2 * g) (2 * w) (x.mask l) ((els w g (x.opA a g)).map fun e => ofSigned (2 * w) (tyInt t e))

/-- VMOV (R154). -/
def execVmov (l : LentB) (t : Ty) (d a : BitVec 7) (s : State) : Out := s.vec1 2 l t d a id

/-- VBCST (R154). -/
def execVbcst (l : LentB) (t : Ty) (d : BitVec 7) (s1 : BitVec 6) (s : State) : Out :=
  s.slot 1 fun x => x.pushElems 2 d 1 t.width (x.mask l) (List.replicate (4096 / t.width) ((x.s s1).toNat % 2 ^ t.width))

/-- VEXT (R155): the mask is ignored. -/
def execVext (l : LentB) (t : Ty) (d : BitVec 6) (a : BitVec 7) (s2 : BitVec 6) (s : State) : Out :=
  s.slot 1 fun x =>
    let j := (x.s s2).toNat % (4096 / t.width)
    x.pushS 2 d (BitVec.ofInt 64 (tyInt t (elemAt t.width (x.group a.toNat l.g.size) j)))

/-- VINS (R155): element j, only if enabled. -/
def execVins (l : LentB) (t : Ty) (d : BitVec 7) (s1 s2 : BitVec 6) (s : State) : Out :=
  s.slot 1 fun x =>
    let w := t.width
    let j := (x.s s2).toNat % (4096 / w)
    x.push 2 (.v d.toNat (if enabled (x.mask l) j then BitVec.ofNat 512 ((2 ^ (w / 8) - 1) <<< (j * (w / 8))) else 0)
      (BitVec.ofNat 4096 (((x.s s1).toNat % 2 ^ w) <<< (j * w))))

/-- VSHFL (R156). -/
def execVshfl (l : LentB) (t : Ty) (d a b : BitVec 7) (s : State) : Out :=
  s.slot 1 fun x =>
    let g := l.g.size
    let va := x.opA a g
    ((x.loadA a g).loadB b g).pushElems 3 d g t.width (x.mask l)
      ((els t.width g (x.opB b g)).map fun j => elemAt t.width va (j % elems t g))

/-- VSLIDE (R157). -/
def execVslide (l : LentB) (t : Ty) (dn : Bool) (d a : BitVec 7) (b : BitVec 6) (s : State) : Out :=
  s.slot 1 fun x =>
    let g := l.g.size
    let n := elems t g
    let k := min (x.s b).toNat n
    let va := x.opA a g
    (x.loadA a g).pushElems 2 d g t.width (x.mask l) (els t.width g (if dn then va >>> (k * t.width) else va <<< (k * t.width)))

/-- VZIP (R158). -/
def execVzip (l : LentB) (t : Ty) (d a b : BitVec 7) (s : State) : Out :=
  s.slot 1 fun x =>
    let g := l.g.size
    let va := x.opA a g
    let vb := x.opB b g
    ((x.loadA a g).loadB b g).pushElems 2 d g t.width (x.mask l)
      ((List.range (elems t g)).map fun i => elemAt t.width (if i % 2 = 0 then va else vb) (i / 2))

/-- VUNZIP (R158). -/
def execVunzip (l : LentB) (t : Ty) (d a b : BitVec 7) (s : State) : Out :=
  s.slot 1 fun x =>
    let g := l.g.size
    let n := elems t g
    let va := x.opA a g
    let vb := x.opB b g
    ((x.loadA a g).loadB b g).pushElems 2 d g t.width (x.mask l)
      ((List.range n).map fun i => if 2 * i < n then elemAt t.width va (2 * i) else elemAt t.width vb (2 * i - n))

end Sys2Proof.Machine
end

