-- ==== Sys2Proof/Machine/Modular.lean ====
section
/-! DEFINITION. Slot B: modular lanes and the butterfly network (R164 to R175). -/

namespace Sys2Proof.Machine

/-- The bit length of a number. -/
def bitLength (q : Nat) : Nat := if q = 0 then 0 else Nat.log2 q + 1

/-- A legal modulus (R165). -/
def legalModulus (q : Nat) : Bool := decide (3 ≤ q) && decide (q < 2 ^ 62) && q != 2 ^ Nat.log2 q

/-- `barrett` (R168). -/
def barrett (x q k : Nat) : Nat :=
  let y : Nat := x / 2 ^ (bitLength q - 1)
  let t : Nat := y * k / 2 ^ 64
  let r := ofSigned 64 ((x : Int) - (t : Int) * (q : Int))
  let r := if q ≤ r then r - q else r
  if q ≤ r then r - q else r

/-- `modadd` (R168). -/
def modadd (a c q : Nat) : Nat := (if q ≤ a + c then a + c - q else a + c) % 2 ^ 64

/-- `modsub` (R168). -/
def modsub (a c q : Nat) : Nat := ofSigned 64 (if (a : Int) - (c : Int) < 0 then (a : Int) - c + q else (a : Int) - c)

/-- The lowest lane among those of the given elements whose modulus is unset (R167). -/
def Strand.unsetLane (x : Strand) (mi : BitVec 2) (is : List Nat) : Option Nat :=
  (List.range 64).find? fun j => x.mLane mi j == 0 && is.any fun i => i % 64 == j

/-- The enabled elements of a group of `g` registers of 64-bit lanes. -/
def enabledLanes (m : PReg) (g : Nat) : List Nat := (List.range (64 * g)).filter (enabled m)

/-- An element-wise modular instruction (R170): `f` of the element number, modulus and constant. -/
def State.modLanes (s : State) (lat : Nat) (l : LentB) (d : BitVec 7) (mi : BitVec 2) (load : Strand → Strand)
    (f : Nat → Nat → Nat → Nat) : Out :=
  let x := s.me
  let g := l.g.size
  match x.unsetLane mi (enabledLanes (x.mask l) g) with
  | some j => s.trapSlot 1 .modulus (BitVec.ofNat 64 j)
  | none => s.slot 1 fun x => (load x).pushElems lat d g 64 (x.mask l)
      ((List.range (64 * g)).map fun i => f i (x.mLane mi i).toNat (x.kLane mi i).toNat)

/-- VMODADD. -/
def execVmodadd (l : LentB) (d a b : BitVec 7) (mi : BitVec 2) (s : State) : Out :=
  let g := l.g.size
  let va := s.me.opA a g
  let vb := s.me.opB b g
  s.modLanes 2 l d mi (fun x => (x.loadA a g).loadB b g) fun i q _ => modadd (elemAt 64 va i) (elemAt 64 vb i) q
/-- VMODSUB. -/
def execVmodsub (l : LentB) (d a b : BitVec 7) (mi : BitVec 2) (s : State) : Out :=
  let g := l.g.size
  let va := s.me.opA a g
  let vb := s.me.opB b g
  s.modLanes 2 l d mi (fun x => (x.loadA a g).loadB b g) fun i q _ => modsub (elemAt 64 va i) (elemAt 64 vb i) q
/-- VMODMUL. -/
def execVmodmul (l : LentB) (d a b : BitVec 7) (mi : BitVec 2) (s : State) : Out :=
  let g := l.g.size
  let va := s.me.opA a g
  let vb := s.me.opB b g
  s.modLanes 6 l d mi (fun x => (x.loadA a g).loadB b g) fun i q k => barrett (elemAt 64 va i * elemAt 64 vb i) q k
/-- VMODMAC: the addend is read through latch C. -/
def execVmodmac (l : LentB) (d a b : BitVec 7) (mi : BitVec 2) (s : State) : Out :=
  let g := l.g.size
  let va := s.me.opA a g
  let vb := s.me.opB b g
  let vc := s.me.opC l.hc d g
  s.modLanes 6 l d mi (fun x => ((x.loadA a g).loadB b g).loadC l.hc d g) fun i q k =>
    barrett (elemAt 64 va i * elemAt 64 vb i + elemAt 64 vc i) q k
/-- VMODRED: exact for every 64-bit value. -/
def execVmodred (l : LentB) (d a : BitVec 7) (mi : BitVec 2) (s : State) : Out :=
  let g := l.g.size
  let va := s.me.opA a g
  s.modLanes 6 l d mi (fun x => x.loadA a g) fun i q _ => elemAt 64 va i % q
/-- VMODNEG. -/
def execVmodneg (l : LentB) (d a : BitVec 7) (mi : BitVec 2) (s : State) : Out :=
  let g := l.g.size
  let va := s.me.opA a g
  s.modLanes 2 l d mi (fun x => x.loadA a g) fun i q _ =>
    if elemAt 64 va i = 0 then 0 else ofSigned 64 ((q : Int) - (elemAt 64 va i : Nat))

/-- VMSETM (R166): MODULUS where an enabled lane would receive an illegal modulus. -/
def execVmsetm (l : LentB) (mi : BitVec 2) (a : BitVec 7) (s : State) : Out :=
  let x := s.me
  let v := x.opA a 1
  match (enabledLanes (x.mask l) 1).find? fun i => !legalModulus (elemAt 64 v i) with
  | some j => s.trapSlot 1 .modulus (BitVec.ofNat 64 j)
  | none => s.slot 1 fun x => (x.loadA a 1).push 2 (.m mi.toNat ((x.mask l).setWidth 64) (BitVec.ofNat 4096 v))

/-- VMSETK (R166): no check. -/
def execVmsetk (l : LentB) (mi : BitVec 2) (a : BitVec 7) (s : State) : Out :=
  s.slot 1 fun x => (x.loadA a 1).push 2 (.k mi.toNat ((x.mask l).setWidth 64) (BitVec.ofNat 4096 (x.opA a 1)))

/-! ## The butterfly network (R171 to R174) -/

/-- The lower element of pair `p` at stage `c` (R171). -/
def pairLow (c p : Nat) : Nat := (p >>> c) <<< (c + 1) + p % 2 ^ c

/-- The pair of element `i` at stage `c`. -/
def pairOf (c i : Nat) : Nat := (i >>> (c + 1)) <<< c + i % 2 ^ c

/-- Element `i` is the upper one of its pair. -/
def isUpper (c i : Nat) : Bool := i.testBit c

/-- A butterfly stage: `f x y z q k` gives both outputs of a pair. -/
def State.butterfly (s : State) (l : LentB) (d b : BitVec 7) (mi : BitVec 2) (c : Nat)
    (f : Nat → Nat → Nat → Nat → Nat → Nat × Nat) : Out :=
  let x := s.me
  let g := l.g.size
  match x.unsetLane mi ((enabledLanes (x.mask l) g).map fun i => pairLow c (pairOf c i)) with
  | some j => s.trapSlot 1 .modulus (BitVec.ofNat 64 j)
  | none => s.slot 1 fun x =>
    let dv := x.group d.toNat g
    let w := x.opB b 1
    let out := fun i =>
      let p := pairOf c i
      let j := pairLow c p
      let r := f (elemAt 64 dv j) (elemAt 64 dv (j + 2 ^ c)) (elemAt 64 w p) (x.mLane mi j).toNat (x.kLane mi j).toNat
      if isUpper c i then r.2 else r.1
    (x.loadB b 1).pushElems 8 d g 64 (x.mask l) ((List.range (64 * g)).map out)

/-- VBFLY. -/
def execVbfly (l : LentB) (d b : BitVec 7) (mi : BitVec 2) (c : BitVec 5) (s : State) : Out :=
  s.butterfly l d b mi c.toNat fun x y z q k => let v := barrett (y * z) q k; (modadd x v q, modsub x v q)
/-- VBFLYI. -/
def execVbflyi (l : LentB) (d b : BitVec 7) (mi : BitVec 2) (c : BitVec 5) (s : State) : Out :=
  s.butterfly l d b mi c.toNat fun x y z q k => (modadd x y q, barrett (modsub x y q * z) q k)

/-- The low `n` bits of a number in reverse order, the higher ones kept. -/
def reverseLow (n j : Nat) : Nat :=
  j / 2 ^ n * 2 ^ n + packElems 1 ((List.range n).map fun i => if j.testBit (n - 1 - i) then 1 else 0)

/-- The source element of VPERMB (R174). -/
def permSource (c j : Nat) : Nat := if c ≤ 6 then j ^^^ 2 ^ c else reverseLow (c - 16) j

/-- VPERMB. -/
def execVpermb (l : LentB) (d a : BitVec 7) (c : BitVec 5) (s : State) : Out :=
  s.slot 1 fun x =>
    let g := l.g.size
    let va := x.opA a g
    (x.loadA a g).pushElems 3 d g 64 (x.mask l) ((List.range (64 * g)).map fun j => elemAt 64 va (permSource c.toNat j))

end Sys2Proof.Machine
end

