-- ==== Sys2Proof/Machine/VecMem.lean ====
section
/-! DEFINITION. Slot B: SPAD access (R159 to R163). The holds of these instructions (bank conflicts, rings, fills, lines in use) are
tested where a bundle is presented; the meanings here act at issue. -/

namespace Sys2Proof.Machine

/-- A SPAD load into a group: the enabled bytes, visible three bundles later (R84). -/
def State.loadGroup (s : State) (view : View) (v g : Nat) (m : PReg) (w n : Nat) (ps : List Part) : Out :=
  let r := s.spadLoad view ps
  r.2.slot 1 fun x => x.pushGroup 3 v g m w n r.1

/-- The address of VLD and VST (R160). -/
def vmAddr (x : Strand) (a : BitVec 6) (off : BitVec 11) : Nat := addr64 (x.s a) (64 * off.toNat)

/-- VLD. -/
def execVld (l : LentB) (view : View) (v : BitVec 7) (a : BitVec 6) (off : BitVec 11) (s : State) : Out :=
  let x := s.me
  let q := vmAddr x a off
  let ps := wordParts (x.mask l) l.g.size q
  if ps.any (outside x.spadSize) then s.trapSlot 1 .bounds (BitVec.ofNat 64 q)
  else s.loadGroup view v.toNat l.g.size (x.mask l) 32 (128 * l.g.size) ps

/-- VST. -/
def execVst (l : LentB) (view : View) (v : BitVec 7) (a : BitVec 6) (off : BitVec 11) (s : State) : Out :=
  let x := s.me
  let q := vmAddr x a off
  let ps := wordParts (x.mask l) l.g.size q
  if ps.any (outside x.spadSize) then s.trapSlot 1 .bounds (BitVec.ofNat 64 q)
  else s.slot 1 fun x => x.spadStore view (x.group v.toNat l.g.size) ps

/-- The lowest-numbered enabled element outside the window (R161). -/
def firstOutside (size : Nat) (ps : List Part) : Option Part := ps.find? (outside size)

/-- VLDX. TVAL is the element's address with the bits below the element width cleared, as the access ignores them, a point R161 leaves open
(log entry 82). -/
def execVldx (l : LentB) (view : View) (t : Ty) (v : BitVec 7) (a : BitVec 6) (vi : BitVec 7) (s : State) : Out :=
  let x := s.me
  let ps := indexParts (x.mask l) t.width (x.s a) (x.v vi.toNat).toNat
  match firstOutside x.spadSize ps with
  | some p => s.trapSlot 1 .bounds (BitVec.ofNat 64 p.addr)
  | none => s.loadGroup view v.toNat l.g.size (x.mask l) t.width 128 ps

/-- VSTX: of two elements that name the same bytes the higher-numbered prevails. -/
def execVstx (l : LentB) (view : View) (t : Ty) (v : BitVec 7) (a : BitVec 6) (vi : BitVec 7) (s : State) : Out :=
  let x := s.me
  let ps := indexParts (x.mask l) t.width (x.s a) (x.v vi.toNat).toNat
  match firstOutside x.spadSize ps with
  | some p => s.trapSlot 1 .bounds (BitVec.ofNat 64 p.addr)
  | none => s.slot 1 fun x => x.spadStore view (x.group v.toNat l.g.size) ps

/-- The conditions under which VLDR (`drain` false) and VSTR trap (R162). -/
def ringBad (r : Ring) (store : Bool) (g off need : Nat) : Bool :=
  !r.en || decide (r.nslot < need) || decide (need * (64 * r.slsz) < 64 * off + 512 * g) || r.bind == (if store then 1 else 2)

/-- VLDR. -/
def execVldr (l : LentB) (view : View) (v : BitVec 7) (h : BitVec 4) (off : BitVec 8) (need : BitVec 5) (s : State) : Out :=
  let x := s.me
  let r := x.ring h.toNat
  if ringBad r false l.g.size off.toNat need.toNat then s.trapSlot 1 .ring (off.setWidth 64)
  else s.loadGroup view v.toNat l.g.size (x.mask l) 32 (128 * l.g.size)
    (ringParts (x.mask l) l.g.size r r.head (64 * off.toNat))

/-- VSTR. -/
def execVstr (l : LentB) (view : View) (v : BitVec 7) (h : BitVec 4) (off : BitVec 8) (need : BitVec 5) (s : State) : Out :=
  let x := s.me
  let r := x.ring h.toNat
  if ringBad r true l.g.size off.toNat need.toNat then s.trapSlot 1 .ring (off.setWidth 64)
  else s.slot 1 fun x => x.spadStore view (x.group v.toNat l.g.size)
    (ringParts (x.mask l) l.g.size r r.tail (64 * off.toNat))

end Sys2Proof.Machine
end

