-- ==== Sys2Proof/Machine/Present.lean ====
section
/-! DEFINITION. A bundle at the merge stage: the checks of decode that depend on the strand (R81, R82, R103, R106, R107), the registers it
reads (R131), the memory of the core it touches, and every cause that holds it at issue or freezes its core (R5, R8, R64, R87, R115,
R160 to R162, R187, R191, R200, R201, R206, R207, R213, R216, R228, R240, R287, R312). -/

namespace Sys2Proof.Machine

/-! ## Registers and rows that a bundle names -/

/-- The vector groups an instruction reads from the banks (R131): first register and size. A field of 0x7F is no read, and latch C held
by HC is none. `x` gives the matrix format, which sets the size of slot C groups (R176). -/
def vectorReads (x : Strand) : Instr → List (BitVec 7 × Nat)
  | .vadd l _ _ a b | .vsub l _ _ a b | .vmul l _ _ a b | .vmin l _ _ a b | .vmax l _ _ a b | .vcps l _ _ a b | .vdiv l _ _ a b
  | .viadd l _ _ a b | .visub l _ _ a b | .vimul l _ _ a b | .vimulh l _ _ a b | .vimin l _ _ a b | .vimax l _ _ a b
  | .vand l _ _ a b | .vor l _ _ a b | .vxor l _ _ a b | .vshl l _ _ a b | .vshr l _ _ a b | .vsar l _ _ a b | .vmulw l _ _ a b
  | .vpack l _ _ a b | .vshfl l _ _ a b | .vzip l _ _ a b | .vunzip l _ _ a b => [(a, l.g.size), (b, l.g.size)]
  | .vfma l _ d a b | .vfms l _ d a b | .vfnma l _ d a b | .vimad l _ d a b | .vscana l _ d a b =>
    [(a, l.g.size), (b, l.g.size), (if l.hc then 0x7F else d, l.g.size)]
  | .vabs l _ _ a | .vneg l _ _ a | .vrnd l _ _ _ a | .vclass l _ _ a | .vrcp l _ _ a | .vrsq l _ _ a | .vsqrt l _ _ _ a
  | .vexp2 l _ _ a | .vlog2 l _ _ a | .vsin l _ _ a | .vcos l _ _ a | .vtanh l _ _ a | .vsigm l _ _ a | .vnot l _ _ a
  | .vpopc l _ _ a | .vclz l _ _ a | .vunpk l _ _ a | .vradd l _ _ a | .vrmax l _ _ a | .vrmin l _ _ a | .vscan l _ _ a
  | .vmov l _ _ a | .vqnt l _ _ _ a | .vslide l _ _ _ a _ | .vmodred l _ a _ | .vmodneg l _ a _ | .vpermb l _ a _ => [(a, l.g.size)]
  | .vcvt l _ t u _ a => [(a, ((wide l.g.size t u).getD (0, 0)).2)]
  | .vdqnt l t k _ a => [(a, blockRegs k (elems t l.g.size))]
  | .vadc l _ a b _ | .vsbc l _ a b _ | .vselp l _ a b _ | .vcmp l _ _ _ a b | .vmodadd l _ a b _ | .vmodsub l _ a b _
  | .vmodmul l _ a b _ => [(a, l.g.size), (b, l.g.size)]
  | .vmadc l d a b _ | .vmodmac l d a b _ => [(a, l.g.size), (b, l.g.size), (if l.hc then 0x7F else d, l.g.size)]
  | .vmsetm _ _ a | .vmsetk _ _ a | .vext _ _ _ a _ => [(a, 1)]
  | .vbfly l d b _ _ | .vbflyi l d b _ _ => [(d, l.g.size), (b, 1)]
  | .vst l _ v _ _ => [(v, l.g.size)]
  | .vldx _ _ _ _ _ i => [(i, 1)]
  | .vstx l _ _ v _ i => [(v, l.g.size), (i, 1)]
  | .vstr l _ v _ _ _ => [(v, l.g.size)]
  | .mpush _ v _ _ _ | .mstg _ v => [(v, x.geo.da)]
  | .macc _ v _ | .mldacc _ v _ => [(v, x.unitRegs)]
  | .mshift _ v _ => [(v, x.geo.db)]
  | .mgath _ _ v _ => [(v, 1)]
  | .tst _ g v _ | .tsts _ g v _ | .rst _ g v _ => [(v, g.size)]
  | _ => []

/-- The registers of the groups read. -/
def readRegs (x : Strand) (i : Instr) : List Nat :=
  (vectorReads x i).flatMap fun e => if e.1 = 0x7F then [] else (List.range e.2).map fun k => e.1.toNat + k

/-- Vector registers an instruction names by its own fields (R68). Slot C groups count by their first register, since an odd one traps
FORMAT. -/
def namedRegs (x : Strand) (i : Instr) : List Nat :=
  ((i.dests.filterMap fun d => match d with
    | .v r => some r
    | _ => none)) ++
  match i with
  | .mpush _ v _ _ _ | .mstg _ v | .macc _ v _ | .mldacc _ v _ | .mshift _ v _ => if v = 0x7F then [] else [v.toNat]
  | _ => readRegs x i

/-- The ACC row an instruction names. -/
def namedRow : Instr → Option Nat
  | .mpush _ _ r _ _ | .macc _ _ r | .mldacc _ _ r | .mzero _ r | .mdrain _ _ _ _ r | .mdrainq _ _ _ _ r => some r.toNat
  | _ => none

/-! ## Decode against the strand (R81, R82) -/

/-- The opcode of a slot word (R60). -/
def opcodeOf (w : SlotWord) : Nat := (fld w 25 7).toNat

/-- Slot A opcodes that may not stand in the last bundle of a loop body (R107): BR, BRP, CALL, RET, JR, LOOP, LOOPS, LBRK, ERET. -/
def endsLoop (op : Nat) : Bool := (decide (0x40 ≤ op) && decide (op ≤ 0x47)) || op == 0x61

/-- The body end of a loop bundle lies in the image and holds no transfer (R106, R107). -/
def Strand.loopOk (x : Strand) (b len : Nat) : Bool :=
  decide (b + len < x.image.nbun) && !endsLoop (opcodeOf (slotOf (x.bundleAt (b + len)) 0))

/-- A slot A instruction is assigned at bundle `b` in the strand's mode (R31, R103, R106, R107, R112, R123). -/
def Strand.slotAOk (x : Strand) (b : Nat) : Instr → Bool
  | .br o => inImage x.image.nbun (relTarget b o)
  | .brp _ _ o => inImage x.image.nbun (relTarget b o)
  | .call _ o => inImage x.image.nbun (relTarget b o)
  | .loop _ _ len | .loops _ _ len => x.loopOk b len.toNat
  | .wrsr n _ => srAccess n.toNat != some .h || x.handler
  | .eret => x.handler
  | .region | .endreg => !x.handler
  | _ => true

/-- A slot of a bundle is unassigned for this strand (R12, R13, R68, R81). -/
def Strand.slotIllegal (x : Strand) (b : Nat) (w : BundleWord) (k : Nat) : Bool :=
  slotBad w k || (k == 2 && slotOf w 2 != 0 && !x.matrixOwn) ||
    match slotInstr w k with
    | none => false
    | some i =>
      (k == 0 && !x.slotAOk b i) || (namedRegs x i).any (fun r => decide (x.nvreg ≤ r)) ||
        ((namedRow i).map fun r => decide (x.accRows ≤ r)).getD false

/-- The ILLEGAL trap of a bundle, if it has one: slot and TVAL (R82). A bundle beyond the image holds no instruction. -/
def Strand.illegal (x : Strand) (b : Nat) (w : BundleWord) : Option (Nat × Nat) :=
  if x.image.nbun ≤ b then some (0, 0)
  else ((List.range 4).find? (x.slotIllegal b w)).map fun k => (k, (slotOf w k).toNat + k * 2 ^ 32)

/-! ## The bundle a strand presents -/

/-- The slots of the strand's next bundle that need not perform: those that have performed and those that hold no instruction. -/
def Strand.donePerf (x : Strand) (w : BundleWord) : BitVec 4 := ((x.reissue.map Replay.perf).getD 0) ||| idleSlots w

/-- The next bundle issues for the first time, so its header acts (R285). -/
def Strand.firstIssue (x : Strand) : Bool := (x.reissue.map Replay.first).getD true

/-- The instruction of slot `k` that is still to perform. -/
def Strand.todo (x : Strand) (w : BundleWord) (k : Nat) : Option Instr :=
  if (x.donePerf w).getLsbD k then none else slotInstr w k

/-- The strand has a bundle at the merge stage: it runs, no trap of it waits for an acceptance, no delay of a trap entry or of its dispatch runs,
and its chunks are claimed (R311). -/
def Strand.reaches (x : Strand) : Bool :=
  (x.life == .run || x.life == .draining) && !x.halted && x.iss.trapped.isNone && (x.holdFor == 0 || x.served) && !(x.chunks.any Chunk.claiming)

/-- The vector registers of each bank that the bundle reads (R131). -/
def Strand.bankReads (x : Strand) (w : BundleWord) : List Nat :=
  let regs := [1, 2, 3].flatMap fun k => ((x.todo w k).map (readRegs x)).getD []
  (List.range 6).map fun b => regs.countP fun r => r % 6 == b

/-- The hold cycles of bank reads (R131). -/
def bankHold (l : List Nat) : Nat := (l.map fun n => n - 2).foldl (· + ·) 0

/-! ## Core memory that a bundle touches -/

/-- The view and parts of a slot B access that does not trap (R160 to R162). -/
def Strand.spadParts (x : Strand) (i : Instr) : Option (View × List Part) :=
  let ok := fun (v : View) (ps : List Part) => if ps.any (outside x.spadSize) then none else some (v, ps)
  match i with
  | .vld l v _ a o | .vst l v _ a o => ok v (wordParts (x.mask l) l.g.size (vmAddr x a o))
  | .vldx l v t _ a i | .vstx l v t _ a i => ok v (indexParts (x.mask l) t.width (x.s a) (x.v i.toNat).toNat)
  | .vldr l v _ h o n =>
    let r := x.ring h.toNat
    if ringBad r false l.g.size o.toNat n.toNat then none else some (v, ringParts (x.mask l) l.g.size r r.head (64 * o.toNat))
  | .vstr l v _ h o n =>
    let r := x.ring h.toNat
    if ringBad r true l.g.size o.toNat n.toNat then none else some (v, ringParts (x.mask l) l.g.size r r.tail (64 * o.toNat))
  | _ => none

/-- A slot C instruction is governed off (R181). -/
def Strand.governedOff (x : Strand) (w : BundleWord) : Bool :=
  let l := LentC.ofBits (lentOf (slotOf w 0)).2.1
  l.qe && !x.q.getLsbD l.qi.toNat

/-- A slot D instruction is guarded off (R66). -/
def Strand.guardedOff (x : Strand) (w : BundleWord) : Bool :=
  !(x.p (((lentOf (slotOf w 0)).2.2.extractLsb' 0 4).toNat)).getLsbD 0

/-- The storage lines of the gather of a bundle. -/
def Strand.gatherLines (x : Strand) (i : Instr) : List Nat :=
  match i with
  | .mgath _ v n a =>
    let rows := gatherSegs x n a
    if gatherOutside x.spadSize rows = [] then ((rows.flatten.filterMap id).map fun u => viewLine v (u / 64)).eraseDups else []
  | _ => []

/-- The storage lines of the SPAD that slot B of the bundle touches. -/
def Strand.spadTouch (x : Strand) (w : BundleWord) : List Nat :=
  (((x.todo w 1).bind x.spadParts).map fun e => linesOf e.1 e.2).getD []

/-- The storage lines of the SPAD that the bundle gathers. -/
def Strand.gatherTouch (x : Strand) (w : BundleWord) : List Nat :=
  if x.governedOff w then [] else ((x.todo w 2).map x.gatherLines).getD []

/-- The ACC rows that the bundle touches. -/
def Strand.accTouch (x : Strand) (w : BundleWord) : List Nat :=
  if x.governedOff w then []
  else match (x.todo w 2).bind namedRow with
    | some r => if x.fp64 then [r, r + 1] else [r]
    | none => []

/-- The first byte of the SDM that the bundle touches, and how many. -/
def Strand.sdmTouch (x : Strand) (w : BundleWord) : Option (Nat × Nat) :=
  match x.todo w 0 with
  | some (.lds z _ a o) | some (.sts z _ a o) => if sdmOut x z a o then none else some (sdmAddr x a o, z.bytes)
  | _ => none

/-- M of VLDX and VSTX (R161): the most distinct lines that the access touches in one bank. An access that will trap BOUNDS touches none, so no
hold precedes its trap, a point R161 leaves open (log entry 82). -/
def Strand.bankLines (x : Strand) (w : BundleWord) : Nat :=
  match x.todo w 1 with
  | some (.vldx l v t d a i) =>
    let ls := ((x.spadParts (.vldx l v t d a i)).map fun e => linesOf e.1 e.2).getD []
    ((List.range 32).map fun b => ls.countP fun p => p % 32 == b).foldl max 0
  | some (.vstx l v t d a i) =>
    let ls := ((x.spadParts (.vstx l v t d a i)).map fun e => linesOf e.1 e.2).getD []
    ((List.range 32).map fun b => ls.countP fun p => p % 32 == b).foldl max 0
  | _ => 0

/-- The chunk of a store that an item lies in: a SPAD line, an ACC row, an SDM byte (R309). -/
def chunkOf : Store → Nat → Nat
  | .spad, l => l / 1024
  | .acc, r => r / 32
  | .sdm, b => b / 4096

/-- The items of a store that the bundle touches. -/
def Strand.touch (x : Strand) (w : BundleWord) : Store → List Nat
  | .spad => x.spadTouch w
  | .acc => x.accTouch w
  | .sdm => ((x.sdmTouch w).map fun e => [e.1, e.1 + e.2 - 1]).getD []

/-- The unfilled chunks that items of a store lie in (R312). -/
def Strand.unfilledChunks (x : Strand) (st : Store) (items : List Nat) : List Chunk :=
  x.chunks.filter fun c => c.unfilled && c.store == st && items.any fun i => chunkOf st i == c.index

/-- The unfilled pages of MAPR maps that storage lines lie in (R228): map index and page. -/
def Strand.unfilledPages (x : Strand) (lines : List Nat) : List (Nat × Nat) :=
  (x.maps.flatMap fun e => lines.filterMap fun l =>
    if e.off ≤ 64 * l ∧ 64 * l < e.off + e.size then
      let p := (64 * l - e.off) / 4096
      if e.filled.contains p then none else some (e.index, p)
    else none).eraseDups

/-- A command has a range of a strand's store in use (R240). -/
def CmdKind.uses (st : Store) (a n : Nat) : CmdKind → Bool
  | .seal true src len _ _ _ => st == .spad && meets src len a n
  | .unseal true dst cap _ _ => st == .spad && meets dst cap a n
  | .scrub 0 b len => st == .spad && meets b len a n
  | .scrub 1 b len => st == .acc && meets b len a n
  | .scrub 2 b len => st == .sdm && meets b len a n
  | _ => false

/-- Some uncompleted command of a strand has a range in use. -/
def State.inUse (s : State) (x : Strand) (st : Store) (a n : Nat) : Bool :=
  s.cmds.any fun c => c.gtag == x.gtag && c.sidx == x.sidx && c.kind.uses st a n

/-- Starts the fill of a page of a map (R228), unless it is in progress. Where a bundle is held for it (`hold`), the fill notes the mode of that
bundle, which meets the ADDRESS of an INVALID answer (R290, R298). -/
def State.startFill (s : State) (k : Nat) (hold : Bool) (e : Nat × Nat) : State :=
  let x := s.strand k
  let mine := fun (c : Cmd) => c.gtag == x.gtag && c.sidx == x.sidx && c.kind == .fill e.1 e.2
  if s.cmds.any mine then
    if hold then { s with cmds := s.cmds.map fun c => if mine c then { c with hnd := x.handler } else c } else s
  else
    let f := s.fresh
    { f.2 with cmds := f.2.cmds ++
        [{ id := f.1, strand := k, gtag := x.gtag, sidx := x.sidx, part := x.part, core := coreOf k, kind := .fill e.1 e.2, fd0 := 0,
           fd1 := 0, engine := snufferPort k, issued := none, accepted := some s.clk, order := f.1, promise := 0, raised := false,
           stop := false, progress := 0, fault := none, data := [], written := false, phase := 0, nonce := 0, measure := none, tdid := 0,
           hnd := hold && x.handler, net := .none }] }

/-- Starts the fills of unfilled chunks (R312). -/
def Strand.startChunks (x : Strand) (cs : List Chunk) : Strand :=
  { x with chunks := x.chunks.map fun c => if cs.contains c then { c with filling := true } else c }

/-- Starts every fill that items of the strand's stores need, and says whether one is needed (R228, R312). -/
def State.fillFor (s : State) (k : Nat) (hold : Bool) (touch : Store → List Nat) : Bool × State :=
  let x := s.strand k
  let pages := x.unfilledPages (touch .spad)
  let cs := [Store.spad, .acc, .sdm].flatMap fun st => x.unfilledChunks st (touch st)
  let t := if cs.isEmpty then s else s.setStrand k (x.startChunks cs)
  (!pages.isEmpty || !cs.isEmpty, pages.foldl (fun t e => t.startFill k hold e) t)

/-- Starts the fills that a gather's lines need: a bundle is held for a page of a map, and the gather alone waits for a chunk (R228, R312). -/
def State.fillGather (s : State) (k : Nat) (lines : List Nat) : Bool × State :=
  let x := s.strand k
  let pages := x.unfilledPages lines
  let cs := x.unfilledChunks .spad lines
  let t := if cs.isEmpty then s else s.setStrand k (x.startChunks cs)
  (!pages.isEmpty, pages.foldl (fun t e => t.startFill k true e) t)

/-! ## Gathers (R191, R240, R307, R312) -/

/-- The lines that a gather has still to read after a cycle in which it reads one line of each bank that `ok` lets it read and that is not among
`banks`, and the banks then read. -/
def readLines (ok : Nat → Bool) : List Nat → List Nat → List Nat × List Nat
  | banks, [] => ([], banks)
  | banks, l :: r =>
    if ok l && !banks.contains (l % 32) then readLines ok ((l % 32) :: banks) r
    else let t := readLines ok banks r; (l :: t.1, t.2)

/-- A cycle of gathers in issue order: the unit reads one line of each bank for all of them together, the earlier ones first (R191, R307). -/
def readGathers (ok : Nat → Bool) (now : Nat) : List Nat → List Gather → List Gather × List Nat
  | banks, [] => ([], banks)
  | banks, g :: r =>
    let a := if g.at' < now then readLines ok banks g.left else (g.left, banks)
    let t := readGathers ok now a.2 r
    ({ g with left := a.1 } :: t.1, t.2)

/-- The gathers of a strand after a core cycle, in which the unit has read the banks `banks` already: a gather of an earlier cycle reads a line of
a bank whose ports slot B and fills leave it, but no line in use by a command and none in an unfilled chunk. -/
def State.gatherReads (s : State) (full : Nat → Bool) (banks : List Nat) (k : Nat) : State × List Nat :=
  let x := s.strand k
  if x.mat.gathers.isEmpty then (s, banks)
  else
    let ok := fun l => !full (l % 32) && !s.inUse x .spad (64 * l) 64 && (x.unfilledChunks .spad [l]).isEmpty
    let t := readGathers ok s.clk banks x.mat.gathers
    (s.setStrand k { x with mat := { x.mat with gathers := t.1 } }, t.2)

/-- Line accesses still to serve after a cycle in which each bank serves as many as `room` says. -/
def unserved (room : Nat → Nat) (t : Tbl Nat) : Tbl Nat := (t.map fun e => (e.1, e.2 - room e.1)).filter fun e => e.2 != 0

/-- A core cycle of the gathers of core `c`, and of the line accesses of slot B and of fills, of which a bank serves four, slot B's first
(R307). -/
def State.gatherCycle (s : State) (c : Nat) : State :=
  let ports := (s.core c).ports
  let fills := (s.core c).fills
  let full := fun b => decide (4 ≤ Tbl.getD ports b 0 + Tbl.getD fills b 0)
  let a := s.gatherReads full [] (2 * c)
  let t := (a.1.gatherReads full a.2 (2 * c + 1)).1
  if ports.isEmpty && fills.isEmpty then t
  else t.setCore c { t.core c with ports := unserved (fun _ => 4) ports, fills := unserved (fun b => 4 - Tbl.getD ports b 0) fills }

/-- The lines that a fill which holds a bundle writes ask their banks for ports (R307). -/
def State.askFills (s : State) (core : Nat) (ls : List Nat) : State :=
  let c := s.core core
  s.setCore core { c with fills := ls.foldl (fun t l => Tbl.insert t (l % 32) (Tbl.getD t (l % 32) 0 + 1)) c.fills }

/-- The lines that slot B of a bundle reads or writes ask their banks for ports (R307). -/
def State.askPorts (s : State) (k : Nat) : State :=
  let x := s.strand k
  let ls := x.spadTouch (x.bundleAt x.pc)
  if ls.isEmpty then s
  else
    let c := s.core (coreOf k)
    s.setCore (coreOf k) { c with ports := ls.foldl (fun t l => Tbl.insert t (l % 32) (Tbl.getD t (l % 32) 0 + 1)) c.ports }

/-! ## Holds (R5) -/

/-- Entries of the operand latch present or in flight (R187). -/
def Strand.queued (x : Strand) : Nat :=
  let n := fun (w : Write) => match w.tgt with
    | .stage _ => 1
    | .gather _ _ _ rows => rows.length
    | _ => 0
  x.mat.queue.length + ((x.pend ++ x.pendH).map n).foldl (· + ·) 0

/-- The entries a slot C instruction adds: none where it traps, so one that traps is not held (log entry 23). -/
def Strand.adds (x : Strand) : Instr → Nat
  | .mstg _ v => if oddPair x.geo.da v then 0 else 1
  | .mgath _ _ v a => if gatherOutside x.spadSize (gatherSegs x v a) = [] then (gatherSegs x v a).length else 0
  | _ => 0

/-- A slot A instruction is held: a busy divider (R87, R94), a WAITC target (R115), the landings of a handler before ERET (R287). -/
def State.heldA (s : State) (k : Nat) : Instr → Bool
  | .div .. | .divn .. | .rem .. | .remn .. => (s.core (coreOf k)).divBusy != 0
  | .waitc a => !(s.strand k).released && decide (s.cyc (coreOf k) < ((s.strand k).s a).toNat)
  | .eret => (s.strand k).pendH.any fun w => w.land.isSome && !w.ready
  | _ => false

/-- A slot B instruction is held by a ring test (R162). -/
def Strand.heldB (x : Strand) : Instr → Bool
  | .vldr l _ _ h o n => !ringBad (x.ring h.toNat) false l.g.size o.toNat n.toNat && decide ((x.ring h.toNat).fill < n.toNat)
  | .vstr l _ _ h o n => !ringBad (x.ring h.toNat) true l.g.size o.toNat n.toNat && decide ((x.ring h.toNat).free < n.toNat)
  | _ => false

/-- The side log of a strand is full (R201). -/
def State.logFull (s : State) (k : Nat) : Bool :=
  decide (32 ≤ (s.reqs.filter fun r => r.strand == k && r.gtag == (s.strand k).gtag && r.stage == .sideLog).length)

/-- An SPAD access that the strand started earlier has not completed (R213). -/
def State.joinWaits (s : State) (k : Nat) : Bool :=
  let x := s.strand k
  (x.mat.gathers.any fun g => !g.left.isEmpty) || x.chunks.any Chunk.filling ||
    s.cmds.any fun c => c.gtag == x.gtag && c.sidx == x.sidx && c.kind.isFill

/-- A slot D instruction is held (R201, R213, R216, R236). -/
def State.heldD (s : State) (k : Nat) (i : Instr) : Bool :=
  let x := s.strand k
  let entry := decide (64 ≤ x.landings)
  let full := decide (16 ≤ s.outstanding k)
  match i with
  | .tld .. | .tlds .. | .tldm .. | .sldg .. | .rld .. => entry
  | .tst .. | .tsts .. | .sstg .. | .red .. => s.logFull k
  | .atadd _ _ d .. | .atfadd _ _ d .. | .atmin _ _ d .. | .atmax _ _ d .. | .atand _ _ d .. | .ator _ _ d .. | .atxor _ _ d ..
  | .atswp _ _ d .. | .atcas _ _ d .. => if d = 0 then s.logFull k else entry
  | .vjoin _ => s.joinWaits k
  | .strmx _ _ h => (x.ring h.toNat).en && (x.ring h.toNat).infl != 0
  | .strm .. | .cpy .. | .rst .. | .ratm .. | .xred .. | .wbr .. | .lease .. | .lrecl .. | .krot .. | .seal .. | .unseal .. | .scrub ..
  | .meas .. => full
  | _ => false

/-- Some slot of the bundle is held by a cause of its own. -/
def State.slotHolds (s : State) (k : Nat) (w : BundleWord) : Bool :=
  let x := s.strand k
  ((x.todo w 0).map (s.heldA k)).getD false || ((x.todo w 1).map x.heldB).getD false ||
    (!x.governedOff w && ((x.todo w 2).map fun i => x.adds i != 0 && decide (16 < x.queued + x.adds i)).getD false) ||
    (!x.guardedOff w && ((x.todo w 3).map (s.heldD k)).getD false) ||
    (match (x.todo w 1).bind x.spadParts with
     | some e => (linesOf e.1 e.2).any fun l => s.inUse x .spad (64 * l) 64
     | none => false) ||
    (x.accTouch w).any (fun r => s.inUse x .acc r 1) || ((x.sdmTouch w).map fun e => s.inUse x .sdm e.1 e.2).getD false

/-- STRMX stops its stream: no new slot starts (R216). `y` is the strand as its bundle sees it. -/
def State.stopStream (s : State) (k : Nat) (y : Strand) (w : BundleWord) : State :=
  let x := s.strand k
  match x.todo w 3 with
  | some (.strmx _ _ h) =>
    if y.guardedOff w then s
    else s.setStrand k { x with streams := x.streams.map fun m => if m.ring = h.toNat then { m with stop := true } else m }
  | _ => s

/-- The wait in the header of a bundle that issues for the first time (R64, R285): flag and count. -/
def Strand.headerWait (x : Strand) (w : BundleWord) : Option (Nat × Nat) :=
  if x.firstIssue then
    (hdrActions (slotOf w 0)).findSome? fun i => match i with
      | .syncWait f c => some (f.toNat, syncCount c)
      | _ => none
  else none

/-- The header hints that the bundle yields on a collision (R65). -/
def Strand.yieldHint (x : Strand) (w : BundleWord) : Bool := x.firstIssue && (hdrActions (slotOf w 0)).contains .mergeYield

/-! ## Freezes and FAULTWAIT (R8, R191, R206, R207, R275) -/

/-- A landing waits for a fault, or behind the side log (R207, R275). -/
def State.landFaults (s : State) (w : Write) : Bool :=
  w.faulted ||
    match w.land.bind s.req with
    | some r => s.behindLog r
    | none => false

/-- A page fill of the strand waits for a fault (R228). -/
def State.fillFaults (s : State) (x : Strand) : Bool :=
  s.cmds.any fun c => c.gtag == x.gtag && c.sidx == x.sidx && c.kind.isFill && c.fault.isSome

/-- The strand stands before a bundle that waits for a fault. -/
def State.faultBound (s : State) (x : Strand) : Bool := x.late.any s.landFaults || s.fillFaults x

/-- The core freezes for the strand: data due now have not arrived, or a gather due now has not completed (R8, R191). A bundle that is ILLEGAL
traps at decode and does not reach issue; a pending trap is taken once its bundle could issue. -/
def State.freezes (s : State) (k : Nat) : Bool :=
  let x := s.strand k
  (Tbl.find s.strands k).isSome && x.reaches && (x.illegal x.pc (x.bundleAt x.pc)).isNone && !s.faultBound x &&
    (!x.late.isEmpty || x.mat.gathers.any fun g => g.hnd == x.handler && decide (g.due ≤ x.nextN) && !g.left.isEmpty)

/-- FAULTWAIT is entered before a bundle that waits for a fault, and left once the fault is resolved (R36, R207, R228). -/
def State.faultState (s : State) (k : Nat) : State :=
  match Tbl.find s.strands k with
  | none => s
  | some x =>
    if x.life = .faultWait then
      if x.untaken.isNone = true ∧ s.faultBound x = false then s.setStrand k { x with life := x.back } else s
    else if x.reaches = true ∧ s.faultBound x = true then s.setStrand k { x with life := .faultWait }
    else s

/-! ## What becomes visible before a bundle issues -/

/-- Every write due at the strand's next bundle becomes visible (R83), gathers closing their choices first (R192); the SPAD log keeps the
stores of the last bundles. -/
def State.settleFor (s : State) (k : Nat) : State :=
  let x := s.strand k
  let n := x.nextN
  let due := fun (w : Write) => decide (w.vis ≤ n)
  let t := if x.handler then s.closeGathers k (fun _ => false) due else s.closeGathers k due fun _ => false
  let y := (t.strand k).settle x.handler n
  let z := if x.handler then y else y.accSettle n
  t.setStrand k { z with spadLog := z.spadLog.filter fun (e : SpadStore) => e.hnd != x.handler || decide (n < e.n + 16) }

end Sys2Proof.Machine
end

