-- ==== Sys2Proof/Machine/Engine.lean ====
section
/-! DEFINITION. The work of the copy engines, the Snuffer ports and the transfer units (R214 to R231, R236 to R251): each event moves a
command on by one unit, a page, a block or a row group, and ends it after its last. -/

namespace Sys2Proof.Machine

/-! ## Reads and writes of a command -/

/-- What keeps a command from a range: no translation, poison, or what it waits for: a line that is locked or whose counter is at its end (R321,
R324), a store of its cluster to the same bytes that is visible there and not yet performed, before a write (R255, R256, R271), the strand's earlier accesses where the range lies on an SO page (R261), or a path to the home slice (R368). -/
inductive Trouble where
  | miss (m : Miss) (va : Nat)
  | poison (pa : Nat)
  | wait
  deriving DecidableEq, Repr

/-- A command's cluster has no path now to the home slice of an address (R368). -/
def State.noWay (s : State) (c : Cmd) (pa : Nat) : Bool := (s.wayTo (clusterOf c.strand) (sliceOf (pageOf pa))).isNone

/-- The physical places of a range, cut at pages. A byte that lies outside the local half, as where a range or a stream runs out of it, faults at
stage 1: the manual gives it no trap (log entry 84). -/
def State.engPlaces (s : State) (c : Cmd) (rd wr : Bool) : List (Nat × Nat) → Except Trouble (List (Nat × Nat)) × State
  | [] => (.ok [], s)
  | e :: r =>
    let t := if 2 ^ 47 ≤ e.1 then (.error (.stage false), s) else s.translate (clusterOf c.strand) c.part e.1 rd wr
    match t.1 with
    | .error m => (.error (.miss m e.1), t.2)
    | .ok q =>
      let a := (q.phys e.1).pa
      if q.attr == .so && !t.2.soDone c.strand c.id true false false then (.error .wait, t.2)
      else if t.2.noWay c a then (.error .wait, t.2)
      else if t.2.poisonedIn a e.2 then (.error (.poison a), t.2)
      else if wr && (t.2.acceptedStores (clusterOf c.strand)).any (fun q => (q.2.pa.map fun b => meets b.pa q.2.len a e.2).getD false) then (.error .wait, t.2)
      else if (linesIn a e.2).any fun l => t.2.lineWaits l wr then
        (.error .wait, (linesIn a e.2).foldl (fun (u : State) l => u.holdFor true c.id l wr) t.2)
      else
        let u := t.2.engPlaces c rd wr r
        match u.1 with
        | .error x => (.error x, u.2)
        | .ok l => (.ok ((a, e.2) :: l), u.2)

/-- What a command does in trouble: it waits for a fault (R239, R291), poison ends its group (R322). -/
def State.inTrouble (s : State) (c : Cmd) (acc : Nat) : Trouble → State
  | .miss m va => s.cmdMiss c m va acc
  | .poison pa => s.integrity c.gtag c.part pa
  | .wait => s

/-- A request of a command for a page has taken its path and is done at its home slice (R328, R368). A MAPR fill and the write-back at a strand's end are of the class of the
group's engine commands: the table of R326 does not name them (log entry 100). -/
def State.cmdDeadline (s : State) (c : Cmd) (pa : Nat) : State :=
  (s.travel (clusterOf c.strand) (sliceOf (pageOf pa))).deadline (clusterOf c.strand) (sliceOf (pageOf pa)) c.part (s.bulkClass c.gtag) c.gtag

/-- Every home slice a range lies on has its deadline (R328). -/
def State.deadlines (s : State) (c : Cmd) (l : List (Nat × Nat)) : State := l.foldl (fun (t : State) e => t.cmdDeadline c e.1) s

/-- A command accesses one line whose place it knows, and goes on. -/
def State.withLine (s : State) (c : Cmd) (pa : Nat) (wr : Bool) (k : State → State) : State :=
  if s.noWay c pa then s
  else if s.poisoned (lineOf pa) then s.integrity c.gtag c.part pa
  else if s.lineWaits (lineOf pa) wr then s.holdFor true c.id (lineOf pa) wr
  else k (s.cmdDeadline c pa)

/-- Reads `n` bytes of a command's local range and goes on with them. -/
def State.withBytes (s : State) (c : Cmd) (va n : Nat) (k : State → List Byte → State) : State :=
  let r := s.engPlaces c true false (spans (n / 4096 + 2) va n)
  match r.1 with
  | .error t => r.2.inTrouble c 0 t
  | .ok l =>
    let b := l.flatMap fun e => r.2.engineBytes (clusterOf c.strand) e.1 e.2
    k (r.2.deadlines c l) b

/-- Writes bytes to a command's local range and goes on. -/
def State.withWrite (s : State) (c : Cmd) (va : Nat) (b : List Byte) (k : State → State) : State :=
  let r := s.engPlaces c false true (spans (b.length / 4096 + 2) va b.length)
  match r.1 with
  | .error t => r.2.inTrouble c 1 t
  | .ok l => k ((l.foldl (fun (e : State × List Byte) a => (e.1.put a.1 (e.2.take a.2), e.2.drop a.2)) (r.2.deadlines c l, b)).1)

/-- No message of a command is outstanding. -/
def State.answered (s : State) (id : Nat) : Bool := !(s.msgs.any fun m => m.isCmd && m.owner == id)

/-- The flag post that the last message of a command carries to a peer, if all of the command goes to that peer and its flag lies there: the peer makes
it once it has performed every message (R218, R382). -/
def State.peerPost (s : State) (c : Cmd) (peer : Nat) : Option PeerPost × State :=
  let count := bits c.fd1.toNat 47 32
  let va := bits c.fd0.toNat 47 0
  if c.net.peers.all (fun p => p == peer) = false ∨ (s.msgs.any fun m => m.isCmd && m.owner == c.id && m.acked) = true then (none, s)
  else if flagKind c.fd1 = 1 then (some (.group (c.net.sent + 1) c.fd0 count), s)
  else if flagKind c.fd1 = 2 ∧ va.testBit 47 = true then
    let t := s.translate (clusterOf c.strand) c.part va false true
    match t.1 with
    | .ok q => (if q.pa.hi = peer then some (.word (c.net.sent + 1) (q.phys va).addr count) else none, t.2)
    | .error _ => (none, t.2)
  else (none, s)

/-- A message of a command goes to a peer, in its place among the command's messages, with the flag post if it carries it. -/
def State.sendPart (s : State) (c : Cmd) (piece peer fia : Nat) (op : RemoteOp) (post : Option PeerPost) : State :=
  let t := s.sendMsg true c.id piece peer fia op
  let u : State := { t with msgs := t.msgs.map fun (m : Msg) => if m.id = s.nextId then { m with seq := c.net.sent, post := post } else m }
  u.onCmd c.id fun d =>
    { d with net := ⟨if d.net.peers.contains peer then d.net.peers else d.net.peers ++ [peer], d.net.sent + 1,
      if post.isSome then some false else d.net.carried⟩ }

/-- Sends a message of a command to the peer that a fabric address names, the command's last or not, and goes on; it waits for the peer's GREADY where
the command's gang is incomplete (R359), one for an SO page, or with a tail on one (`so`), follows the answers to those before it (R261), and a write
the strand's earlier loads of its lines (R278). An address past 2^48 lies in no half, and faults at stage 1 (log entry 84). -/
def State.withMsg (s : State) (c : Cmd) (va piece : Nat) (rd wr so last : Bool) (op : RemoteOp) (k : State → State) : State :=
  let t := if 2 ^ 48 ≤ va then (.error (.stage false), s) else s.translate (clusterOf c.strand) c.part va rd wr
  match t.1 with
  | .error m => t.2.cmdMiss c m va (accCode rd wr)
  | .ok r =>
    if t.2.gangHolds c.gtag r.pa.hi then t.2
    else if (so || r.attr == .so) && (!t.2.soDone c.strand c.id true false true || t.2.msgs.any fun m => m.isCmd && m.owner == c.id && !m.acked) then t.2
    else if wr && t.2.behindLoad c va (max 1 (opBytes op)) then t.2
    else
      let p := if last then t.2.peerPost c r.pa.hi else (none, t.2)
      k (p.2.sendPart c piece r.pa.hi (r.phys va).addr op p.1)

/-- A command has moved on by `n`. -/
def State.advance (c : Cmd) (n : Nat) (s : State) : State := s.onCmd c.id fun d => { d with progress := d.progress + n }

/-- A command all of whose work is done and answered ends (R220). -/
def State.finish (s : State) (id : Nat) : State := if s.answered id then s.commandDone id else s

/-! ## Copies (R219) -/

/-- The bytes that a copy onto an overlapping range writes, from the bytes that it reads: each is the value of its source byte before or,
`d` bytes on, after the copy's own write to it, by free choice. `done` holds those already chosen, the last first. -/
def State.chain (s : State) (d : Nat) (done : List Byte) : List Byte → List Byte × State
  | [] => (done, s)
  | a :: as =>
    match if d = 0 then none else done[d - 1]? with
    | none => s.chain d (a :: done) as
    | some b =>
      if a = b then s.chain d (a :: done) as
      else let q := s.choose 2; q.2.chain d ((if q.1 = 0 then a else b) :: done) as

/-- One unit of a copy within one half whose ranges overlap, in ascending order. The command first reads its source and fixes what it will
write; a source byte that another agent changes before its own unit comes is copied as that agent left it. -/
def State.copyOver (s : State) (c : Cmd) (src dst len : Nat) : State :=
  if c.phase = 0 then
    s.withBytes c src len fun t b =>
      let q := if src < dst then let r := t.chain (dst - src) [] b; (r.1.reverse, r.2) else t.chain (src - dst) [] b.reverse
      q.2.onCmd c.id fun d => { d with phase := 1, data := b ++ q.1 }
  else
    let k := c.progress
    let n := min (len - k) (4096 - (dst + k) % 4096)
    let own := fun (i : Nat) => if dst ≤ src + i ∧ src + i < dst + k then c.data[len + (src + i - dst)]? else none
    s.withBytes c (src + k) n fun t b =>
      let out := b.zipIdx.map fun e =>
        if some e.1 = c.data[k + e.2]? ∨ some e.1 = own (k + e.2) then (c.data[len + k + e.2]?).getD e.1 else e.1
      t.withWrite c (dst + k) out (State.advance c n)

/-- One unit of CPY; each byte lies in the half that its own address names. -/
def State.copyStep (s : State) (c : Cmd) (src dst len : Nat) : State :=
  let k := c.progress
  if len ≤ k then s.finish c.id
  else if (src + k).testBit 47 then
    let n := min (len - k) (min (4096 - (src + k) % 4096) (4096 - (dst + k) % 4096))
    s.withMsg c (src + k) k true false false false (.read n) (State.advance c n)
  else if (dst + k).testBit 47 then
    let n := min (len - k) (4096 - (dst + k) % 4096)
    s.withBytes c (src + k) n fun t b => t.withMsg c (dst + k) k false true false (decide (len ≤ k + n)) (.write (b.map some)) (State.advance c n)
  else if meets src len dst len ∧ src ≠ dst then s.copyOver c src dst len
  else
    let n := min (len - k) (4096 - (dst + k) % 4096)
    s.withBytes c (src + k) n fun t b => t.withWrite c (dst + k) b (State.advance c n)

/-! ## Remote stores, atomics and reductions (R223 to R225) -/

/-- One unit of RST: a write of 256 bytes, cut where a page ends (R378). -/
def State.rstStep (s : State) (c : Cmd) (a : Nat) (b : List Byte) : State :=
  let k := c.progress
  if b.length ≤ k then s.finish c.id
  else
    let n := min (min (b.length - k) 256) (4096 - (a + k) % 4096)
    s.withMsg c (a + k) k false true false (decide (b.length ≤ k + n)) (.write (((b.drop k).take n).map some)) (State.advance c n)

/-- RATM: the request; its answer writes the old value before the flag is posted. -/
def State.ratmStep (s : State) (c : Cmd) (op : AtomOp) (z : As) (a : Nat) (x e : W64) : State :=
  if c.progress = 0 then s.withMsg c a 0 true true false false (.atomic op z x e) (State.advance c 1) else s.finish c.id

/-- The element format of XRED. -/
def xredBk (e5m2 : Bool) : Bk := if e5m2 then .mxE5m2 else .mxE4m3

/-- The payload block that the source engine quantises from 32 FP32 values (R225). -/
def xredPayload (e5m2 : Bool) (b : List Byte) : Nat := quantise (xredBk e5m2) ((unpackElems 32 32 (leNat b)).map Fmt.f32.value)

/-- The block at the destination after one hop. -/
def xredCombine (e5m2 : Bool) (payload block : Nat) : Nat :=
  let k := xredBk e5m2
  quantise k ((List.range 32).map fun i =>
    Fmt.f32.value (Fmt.f32.round .rne (FV.add .rne (blockDecode k payload i).inF32 (blockDecode k block i).inF32)))

/-- The fabric address of the bytes that a block at a destination has on the next page, and whether that is an SO page, if it has any there. -/
def State.tailOf (s : State) (c : Cmd) (dst : Nat) : Except Miss (Option (Nat × Bool)) × State :=
  let k := 4096 - dst % 4096
  if 33 ≤ k then (.ok none, s)
  else if 2 ^ 48 ≤ dst + k then (.error (.stage false), s)
  else
    let t := s.translate (clusterOf c.strand) c.part (dst + k) true true
    (t.1.map fun r => some ((r.phys (dst + k)).addr, r.attr == .so), t.2)

/-- One unit of XRED: a block of a local destination, updated atomically, or a message of blocks to a peer. -/
def State.xredStep (s : State) (c : Cmd) (e5m2 : Bool) (src dst n : Nat) : State :=
  let b := c.progress
  if n / 32 ≤ b then s.finish c.id
  else if dst.testBit 47 then
    let m := max 1 (min (n / 32 - b) ((4096 - (dst + 33 * b) % 4096) / 33))
    s.withBytes c (src + 128 * b) (128 * m) fun t v =>
      let pay := (groupsOf 128 m v).flatMap fun g => natLe 33 (xredPayload e5m2 g)
      let u := t.tailOf c (dst + 33 * b)
      match u.1 with
      | .error e => u.2.cmdMiss c e (dst + 33 * b + 32) 2
      | .ok tail => u.2.withMsg c (dst + 33 * b) b true true ((tail.map Prod.snd).getD false) (decide (n / 32 ≤ b + m))
          (.xred e5m2 (tail.map Prod.fst) pay) (State.advance c m)
  else
    s.withBytes c (src + 128 * b) 128 fun t v => t.withBytes c (dst + 33 * b) 33 fun u d =>
      u.withWrite c (dst + 33 * b) (natLe 33 (xredCombine e5m2 (xredPayload e5m2 v) (leNat d))) (State.advance c 1)

/-! ## Write-backs (R229) -/

/-- The strand a command belongs to is resident. -/
def State.hasStrand (s : State) (c : Cmd) : Bool :=
  match Tbl.find s.strands c.strand with
  | some x => x.gtag == c.gtag && x.sidx == c.sidx
  | none => false

/-- The dirty pages of a range: SPAD offset, map index, page, global address. -/
def dirtyPages (x : Strand) (off size : Nat) : List (Nat × Nat × Nat × Nat) :=
  x.maps.flatMap fun e => (e.dirty.filter fun p => meets (e.off + 4096 * p) 4096 off size).map fun p =>
    (e.off + 4096 * p, e.index, p, e.addr + 4096 * p)

/-- One unit of WBR (R229, R333): a dirty page is translated, and is clean from then on; its 64 lines are stored in ascending order. `phase` holds
the SPAD page in progress plus 1, `nonce` its place. -/
def State.wbrStep (s : State) (c : Cmd) (off size : Nat) : State :=
  let x := s.strand c.strand
  if s.hasStrand c = false then s.dropCmd c.id
  else if c.phase = 0 then
    match dirtyPages x off size with
    | [] => s.commandDone c.id
    | d :: _ =>
      let r := s.engPlaces c false true [(d.2.2.2, 64)]
      match r.1 with
      | .error t => r.2.inTrouble c 1 t
      | .ok l =>
        (r.2.setStrand c.strand { r.2.strand c.strand with maps := (r.2.strand c.strand).maps.map fun e =>
          if e.index = d.2.1 then { e with dirty := e.dirty.filter fun p => p != d.2.2.1 } else e }).onCmd c.id fun e =>
            { e with phase := d.1 / 4096 + 1, progress := 0, nonce := (l.headD (0, 0)).1 }
  else
    let k := c.progress
    s.withLine c (c.nonce + 64 * k) true fun t =>
      (t.put (c.nonce + 64 * k) (Mem.readN x.spad (4096 * (c.phase - 1) + 64 * k) 64)).onCmd c.id fun e =>
        if k = 63 then { e with phase := 0, progress := 0 } else { e with progress := k + 1 }

/-! ## Operation records (R237) -/

/-- An operation record. -/
def opRecord (status op info progress : Nat) : List Byte :=
  wordBytes [place status 7 0 + place op 15 8 + place info 31 16, place progress 31 0]

/-- The record address of a command that keeps one, or the address of its status word. -/
def CmdKind.record : CmdKind → Nat
  | .krot _ _ _ r | .seal _ _ _ _ _ r | .unseal _ _ _ _ r | .lease _ _ _ r | .lrecl _ r => r
  | _ => 0

/-- The phase in which a command writes its record. -/
def recording : Nat := 100

/-- A lease operation posts its flag whatever its status (R230, R231). -/
def CmdKind.leases : CmdKind → Bool
  | .lease .. | .lrecl .. => true
  | _ => false

/-- Writes the record that a command holds, and ends it: with STATUS 0 its flag is posted (R237). -/
def State.writeRecord (s : State) (c : Cmd) : State :=
  s.withWrite c c.kind.record c.data fun t => if c.kind.leases ∨ c.data.head? = some 0 then t.commandDone c.id else t.dropCmd c.id

/-- A command ends with a record. -/
def State.endWith (s : State) (c : Cmd) (status op info progress : Nat) : State :=
  let d := { c with phase := recording, data := opRecord status op info progress }
  (s.onCmd c.id fun _ => d).writeRecord d

/-! ## Key rotation (R242) -/

/-- The written pages of a KeyID (R242). -/
def State.pagesOf (s : State) (kid : Nat) : Nat := (s.pages.filter fun e => keyOf e.1 == kid).length

/-- KeyIDs step to generation `t`, if they may: CUR is then `t`, and every written page is counted at CUR − 1. -/
def State.stepGen (s : State) (kid t : Nat) : Option State :=
  let k := s.key kid
  if t = (k.cur + 1).toNat ∧ k.lag = 0 then
    some { s with keys := Tbl.put ⟨none, 0, 0⟩ s.keys kid { k with cur := k.cur + 1, lag := s.pagesOf kid } }
  else if t = k.cur.toNat then some s
  else none

/-- The counter block of a page, or a tree node above it, is poisoned (R322). -/
def State.blockPoisoned (s : State) (page : Nat) : Bool := s.poison.contains (stackPage page, none)

/-- One unit of KROT (R242): a page whose generation is not CUR is rewritten, line by line, and a page at CUR is done; a stop is taken after a
page. It touches the counter block of a page that it looks at, and the lines of one that it rewrites (R322). A page that a store's overflow began
to rewrite, and that has still to take that store, waits for it (R321). -/
def State.krotStep (s : State) (c : Cmd) (start n tgt : Nat) : State :=
  let at' := fun (i : Nat) (k : State → Nat → State) =>
    let va := start + 4096 * i
    let r := if 2 ^ 47 ≤ va then (.error (.stage false), s) else s.translate (clusterOf c.strand) c.part va false true
    match r.1 with
    | .error m => r.2.cmdMiss c m va 1
    | .ok t => k r.2 (pageOf (t.phys va).pa)
  if c.phase = 0 then
    at' 0 fun t page => t.withBytes c c.kind.record 16 fun u b =>
      let w := leNat (b.take 8)
      let first := if bits w 15 8 = 0x50 ∧ bits w 7 0 = 1 ∧ bits w 31 16 = tgt then bits (leNat (b.drop 8)) 31 0 else 0
      match u.stepGen (keyOf page) tgt with
      | some v => v.onCmd c.id fun d => { d with phase := 1, progress := first, tdid := BitVec.ofNat 64 (keyOf page) }
      | none => u.endWith c 5 0x50 tgt 0
  else if n ≤ c.progress then s.endWith c 0 0x50 tgt n
  else
    at' c.progress fun t page =>
      if keyOf page ≠ c.tdid.toNat then t.endWith c 6 0x50 tgt c.progress
      else if t.noWay c (4096 * page) then t
      else if t.blockPoisoned page then t.integrity c.gtag c.part (4096 * page)
      else if (t.rewrite page).isSome ∨ t.owes page = true then t
      else if t.gen page ≠ (t.key (keyOf page)).cur then
        if t.poisonedIn (4096 * page) 4096 then t.integrity c.gtag c.part (4096 * page) else t.startRewrite page false
      else if c.stop then t.endWith c 1 0x50 tgt (c.progress + 1)
      else t.advance c 1

/-! ## The group measurement (R251) -/

/-- A command that takes a place in the order of a group's measurement, and has still to take it. -/
def Cmd.measures (c : Cmd) : Bool :=
  c.accepted.isSome && !c.written &&
    match c.kind with
    | .meas .. => true
    | .unseal .. => c.phase != recording
    | .seal .. => c.measure.isNone && c.phase != recording
    | _ => false

/-- One acceptance comes before another: in an earlier cycle, or in the same cycle from a lower strand, or from one strand first. -/
def Cmd.before (a b : Cmd) : Bool :=
  let t := fun (c : Cmd) => (c.accepted.getD 0)
  decide (t a < t b) || (t a == t b && (decide (a.strand < b.strand) || (a.strand == b.strand && decide (a.order < b.order))))

/-- A command's turn in the order of its group's measurement has come. -/
def State.myTurn (s : State) (c : Cmd) : Bool := !(s.cmds.any fun d => d.gtag == c.gtag && d.id != c.id && d.measures && d.before c)

/-- The bytes of a measurement. -/
def gmBytes (m : BitVec 384) : List Byte := natLe 48 m.toNat

/-- GM extended by data: SHA-384(GM ‖ SHA-384(data)). -/
def extended (m : BitVec 384) (d : List Byte) : BitVec 384 := BitVec.ofNat 384 (leNat (sha384 (gmBytes m ++ sha384 d)))

/-- A group's measurement takes an extension. -/
def State.extend (s : State) (g : Nat) (d : List Byte) : State :=
  match Tbl.find s.groups g with
  | some x => s.setGrp g { x with gm := extended x.gm d, nmeas := x.nmeas + 1 }
  | none => s

/-- The SEALs whose turn has come take the measurement as it stands. -/
def State.takeMeasures (s : State) : State :=
  { s with cmds := s.cmds.map fun c =>
      match c.kind with
      | .seal .. => if c.measures && s.myTurn c then { c with measure := some (s.grp c.gtag).gm } else c
      | _ => c }

/-- One unit of MEAS: 4 KiB of its data, then the extension in its turn. -/
def State.measStep (s : State) (c : Cmd) (a len out : Nat) : State :=
  let k := c.progress
  if k < len then
    let n := min (len - k) 4096
    s.withBytes c (a + k) n fun t b => t.onCmd c.id fun d => { d with progress := k + n, data := d.data ++ b }
  else if s.myTurn c = false then s
  else
    let m := extended (s.grp c.gtag).gm c.data
    if out = 0 then (s.extend c.gtag c.data).commandDone c.id
    else s.withWrite c out (gmBytes m) fun t => (t.extend c.gtag c.data).commandDone c.id

/-! ## Checkpoints (R245 to R248) -/

/-- The seal key of a trust domain that the vault holds for a partition. -/
def Partition.sealKey (q : Partition) (td : W64) : Option (BitVec 256) :=
  if td = 0 then none else (q.domains.find? fun d => d.1 == td).map fun d => Config.sealKey d.2.1 td

/-- Logical cluster of a physical one (R335): its place among the guaranteed clusters, 0 for any other. -/
def Partition.logical (q : Partition) (c : Nat) : Nat := ((q.guaranteed.zipIdx.find? fun e => e.1 == c).map Prod.snd).getD 0

/-- Header bytes 0 to 239 of a checkpoint (R246). -/
def ckptHeader (kind : Nat) (td : W64) (len gcl lcl : Nat) (label : W64) (nonce : Nat) (m : BitVec 384) : List Byte :=
  natLe 4 1 ++ natLe 4 kind ++ natLe 8 td.toNat ++ natLe 8 len ++ natLe 4 gcl ++ natLe 4 lcl ++ natLe 8 label.toNat ++
    natLe 4 Config.packageSerial.toNat ++ natLe 8 nonce ++ natLe 12 0 ++ gmBytes m ++ natLe 128 0

/-- Writes a part of a checkpoint at either half and goes on. -/
def State.withCkpt (s : State) (c : Cmd) (va : Nat) (b : List Byte) (k : State → State) : State :=
  if va.testBit 47 then s.withMsg c va 0 false true false false (.write (b.map some)) k else s.withWrite c va b k

/-- Reads 4 KiB of a source or destination kind's range. A page of the SPAD that a MAPR map has not filled is read as it stands: R228 names no SEAL
among the accesses that fill a page (log entry 100). -/
def State.withBody (s : State) (c : Cmd) (spad : Bool) (a : Nat) (k : State → List Byte → State) : State :=
  if spad then (if s.hasStrand c then k s (Mem.readN (s.strand c.strand).spad a 4096) else s.dropCmd c.id) else s.withBytes c a 4096 k

/-- One unit of SEAL (R247, R418): a page of the body, in ascending order, then the header. -/
def State.sealStep (s : State) (c : Cmd) (spad : Bool) (src len ckpt : Nat) (label : W64) : State :=
  let pages := len / 4096
  let q := s.part c.part
  match q.bind fun p => p.sealKey c.tdid with
  | none => s.endWith c 3 0x52 0 0
  | some key =>
    if s.answered c.id = false then s
    else if c.phase = 0 then { s.onCmd c.id fun d => { d with phase := 1, nonce := s.sealCnt } with sealCnt := s.sealCnt + 1 }
    else
      let iv := natLe 4 Config.packageSerial.toNat ++ natLe 8 c.nonce
      if c.progress < pages then
        s.withBody c spad (src + 4096 * c.progress) fun t b =>
          let ct := ((gcm true key iv [] (c.data ++ b)).1).drop c.data.length
          t.withCkpt c (ckpt + 4096 + 4096 * c.progress) ct fun u => u.onCmd c.id fun d =>
            { d with progress := d.progress + 1, data := d.data ++ b }
      else if c.phase = 1 then
        match c.measure with
        | none => s
        | some m =>
          let h := ckptHeader (if spad then 1 else 0) c.tdid len ((q.map fun p => p.guaranteed.length).getD 0)
            ((q.map fun p => p.logical (clusterOf c.strand)).getD 0) label c.nonce m
          let tag := (gcm true key iv h c.data).2
          s.withCkpt c ckpt (h ++ tag ++ natLe 3840 0) fun t => t.onCmd c.id fun d => { d with phase := 2 }
      else s.endWith c 0 0x52 0 pages

/-- A field of a checkpoint header that a command holds. -/
def Cmd.hdr (c : Cmd) (a n : Nat) : Nat := leNat ((c.data.drop a).take n)

/-- The page of a checkpoint that an UNSEAL reads next. -/
def State.readCkpt (s : State) (c : Cmd) (ckpt : Nat) : State :=
  let a := ckpt + c.data.length
  if a.testBit 47 then (if s.answered c.id then s.withMsg c a 0 true false false false (.read 4096) id else s)
  else s.withBytes c a 4096 fun t b => t.onCmd c.id fun d => { d with data := d.data ++ b }

/-- The check of R248 that an UNSEAL's header fails first: its STATUS. -/
def State.hdrFails (s : State) (c : Cmd) (cap : Nat) : Option Nat :=
  let q := s.part c.part
  if c.hdr 0 4 ≠ 1 ∨ (q.bind fun p => p.sealKey (BitVec.ofNat 64 (c.hdr 8 8))).isNone = true then some 3
  else if ((q.map fun p => p.guaranteed.length).getD 0) < c.hdr 24 4 then some 2
  else if cap < c.hdr 16 8 then some 4
  else none

/-- The log of SPAD stores without those to lines that a fill or an UNSEAL writes: every later access sees what it wrote, in both views (R248,
R277). -/
def Strand.unlogged (x : Strand) (ls : List Nat) : List SpadStore := x.spadLog.filter fun e => !ls.contains e.line

/-- Writes 4 KiB to a destination kind's range. A page of the SPAD that a MAPR map has not filled is written as it stands: R228 names no UNSEAL among
the accesses that fill a page (log entry 100). -/
def State.withDest (s : State) (c : Cmd) (spad : Bool) (a : Nat) (b : List Byte) (k : State → State) : State :=
  if spad then
    if s.hasStrand c then
      let x := s.strand c.strand
      let ls := (List.range 64).map fun i => a / 64 + i
      k (s.setStrand c.strand { x with
        spad := Mem.writeN x.spad a b, spadLog := x.unlogged ls, maps := markDirty x.maps ls, chunks := markWritten x.chunks .spad [a] 65536 })
    else s.dropCmd c.id
  else s.withWrite c a b k

/-- One unit of UNSEAL (R248): the header, the body and the tag in a first pass, a page of plaintext at a time in the second, then the
extension of the measurement in its turn. -/
def State.unsealStep (s : State) (c : Cmd) (spad : Bool) (dst cap ckpt : Nat) : State :=
  if c.phase = 0 then
    if c.data.length < 4096 then s.readCkpt c ckpt
    else match s.hdrFails c cap with
      | some st => s.endWith c st 0x53 0 0
      | none => s.onCmd c.id fun d => { d with phase := 1 }
  else
    let len := c.hdr 16 8
    let pages := len / 4096
    if c.phase = 1 then
      if c.data.length < 4096 + len then s.readCkpt c ckpt
      else match (s.part c.part).bind fun p => p.sealKey (BitVec.ofNat 64 (c.hdr 8 8)) with
        | none => s.endWith c 3 0x53 0 0
        | some key =>
          let r := gcm false key ((c.data.drop 40).take 12) (c.data.take 240) ((c.data.drop 4096).take len)
          if r.2 = (c.data.drop 240).take 16 then s.onCmd c.id fun d => { d with phase := 2, data := d.data.take 4096 ++ r.1 }
          else s.endWith c 3 0x53 0 0
    else if c.progress < pages then
      s.withDest c spad (dst + 4096 * c.progress) ((c.data.drop (4096 + 4096 * c.progress)).take 4096) (State.advance c 1)
    else if s.myTurn c then (s.extend c.gtag (c.data.take 256)).endWith c 0 0x53 (c.hdr 28 4) pages
    else s

/-! ## Scrubs (R249, R250) -/

/-- Snuffer's zeros over a unit of a strand's store. -/
def Strand.zeroStore (x : Strand) (kind a n : Nat) : Strand :=
  match kind with
  | 0 => { x with spad := Mem.zero x.spad a n, spadLog := x.spadLog.filter fun (e : SpadStore) => !meets (64 * e.line) 64 a n }
  | 1 => { x with accBase := Mem.zero x.accBase (512 * a) (512 * n), accOps := x.accOps.filter fun (w : AccWrite) => !(decide (a ≤ w.row) && decide (w.row < a + n)) }
  | _ => { x with sdm := Mem.zero x.sdm a n }

/-- What a scrub of a local store changes besides: mapped pages are unfilled and clean, SPAD chunks are released, and no chunk of the range
stays unfilled. -/
def Strand.scrubbed (x : Strand) (kind a n : Nat) : Strand :=
  let st := if kind = 0 then Store.spad else if kind = 1 then .acc else .sdm
  let unit := if kind = 0 then 65536 else if kind = 1 then 32 else 4096
  let within := fun (c : Chunk) => c.store == st && decide (a ≤ c.index * unit) && decide ((c.index + 1) * unit ≤ a + n)
  { x with
    maps := if kind = 0 then x.maps.map fun e => e.forget a n else x.maps
    chunks := x.chunks.map fun c => if within c then { c with unfilled := false, filling := false, released := kind == 0 || c.released } else c }

/-- SCRUB writes line `i` of a page as zeros: under the counters of its own rewrite, or as a store after the rewrite in progress has passed the
line (R324, R325). -/
def State.scrubLine (s : State) (page i : Nat) (own : Bool) : State :=
  let pa := 4096 * page + 64 * i
  let t := if own && (s.rewrite page).any Rewrite.scrub then
      let u := { s with mem := Mem.zero s.mem pa 64 }.dropLines none pa 64
      match u.rewrite page with
      | some w => { u with rewrites := if i = 63 then Tbl.erase u.rewrites page else Tbl.insert u.rewrites page { w with line := i + 1 } }
      | none => u
    else s.put pa (List.replicate 64 0)
  if i = 63 then t.mend page else t

/-- One unit of a SCRUB of global memory, a line. `phase` is 0 before a page, 1 in a page that the SCRUB rewrites, 2 in one whose rewrite for
another cause absorbs it; `nonce` holds the page. -/
def State.scrubGlobal (s : State) (c : Cmd) (a len : Nat) : State :=
  let k := c.progress
  let i := k / 64 % 64
  let next := fun (t : State) => (t.cmdDeadline c (4096 * c.nonce)).onCmd c.id fun d => { d with progress := k + 64, phase := if i = 63 then 0 else d.phase }
  match c.phase with
  | 0 =>
    if len ≤ k then s.commandDone c.id
    else
      let t := if 2 ^ 47 ≤ a + k then (.error (.stage false), s) else s.translate (clusterOf c.strand) c.part (a + k) false true
      match t.1 with
      | .error m => t.2.cmdMiss c m (a + k) 1
      | .ok r =>
        let page := pageOf (r.phys (a + k)).pa
        if (r.attr == .so && !t.2.soDone c.strand c.id true false false) || t.2.noWay c (4096 * page) then t.2
        else
          let own := (t.2.rewrite page).isNone
          (t.2.startRewrite page true).onCmd c.id fun d => { d with phase := if own then 1 else 2, nonce := page }
  | 1 => if s.noWay c (4096 * c.nonce) then s else next (s.scrubLine c.nonce i true)
  | _ =>
    if s.noWay c (4096 * c.nonce) then s
    else if (s.rewrite c.nonce).any fun w => decide (w.line ≤ i) then s
    else if s.lineWaits (64 * c.nonce + i) true then s.holdFor true c.id (64 * c.nonce + i) true
    else next (s.scrubLine c.nonce i false)

/-- A SCRUB that is abandoned within a page of global memory has zeroed all of it (R238). -/
def State.finishScrub (s : State) (c : Cmd) : State :=
  match c.kind with
  | .scrub 3 _ _ => if c.phase = 0 then s else (List.range (64 - c.progress / 64 % 64)).foldl (fun (t : State) j => t.scrubLine c.nonce (c.progress / 64 % 64 + j) (c.phase == 1)) s
  | _ => s

/-- One unit of SCRUB (R250): 64 bytes, or a row of the ACC. -/
def State.scrubStep (s : State) (c : Cmd) (kind a len : Nat) : State :=
  let k := c.progress
  if kind = 3 then s.scrubGlobal c a len
  else if s.hasStrand c = false then s.dropCmd c.id
  else if len ≤ k then
    let t := if kind = 0 then s.dropRange (s.strand c.strand) a len else s
    (t.setStrand c.strand ((s.strand c.strand).scrubbed kind a len)).commandDone c.id
  else
    let n := if kind = 1 then 1 else min 64 (len - k)
    (s.setStrand c.strand ((s.strand c.strand).zeroStore kind (a + k) n)).advance c n

/-! ## Leases (R230, R231, R391, R392) -/

/-- The status word of LEASE and LRECL. -/
def leaseWord (id status : Nat) : List Byte := natLe 8 (place id 31 0 + place status 39 32)

/-- A lease operation writes its status word, and posts its flag. -/
def State.leaseEnd (s : State) (c : Cmd) (id status : Nat) : State :=
  let d := { c with phase := recording, data := leaseWord id status }
  (s.onCmd c.id fun _ => d).writeRecord d

/-- The trust domain of a partition that extends to a peer (R391). -/
def State.domainFor (s : State) (p peer : Nat) : W64 :=
  (((s.part p).bind fun q => q.domains.find? fun d => d.2.2 == some peer).map fun d => d.1).getD 0

/-- LEASE sends its request to the lender, and waits for the answer. -/
def State.leaseStep (s : State) (c : Cmd) (peer size : Nat) : State :=
  if c.phase = 0 then (s.onCmd c.id fun d => { d with phase := 1 }).sendMgmt peer (.leaseRequest c.id (s.domainFor c.part peer) size) else s

/-- LRECL: the handshake begins, and LEVICT is sent; a lease that the partition does not own, that is not granted or that has ended gives
STATUS 5. The state of a lease: 0 granted and in use, 1 in the handshake, 2 + STATUS ended. -/
def State.lreclStep (s : State) (c : Cmd) (id : Nat) : State :=
  match s.leases.find? fun l => l.id == id && l.lender with
  | none => s.leaseEnd c id 5
  | some l =>
    if c.phase = 1 ∧ 2 ≤ l.state then s.leaseEnd c id (l.state - 2)
    else if l.part ≠ c.part ∨ 2 ≤ l.state then s.leaseEnd c id 5
    else if c.phase = 1 then s
    else
      let t := s.onCmd c.id fun d => { d with phase := 1 }
      if l.state = 1 then t
      else
        { t with leases := t.leases.map fun (m : Lease) =>
            if m.id = id ∧ m.lender = true then { m with state := 1, cmd := some c.id, since := c.accepted.getD s.clk } else m }.sendMgmt
          l.peer (.levict id)

/-! ## The steps of an engine -/

/-- A read's data that a peer has returned are written where the command wants them (R219, R223, R248). -/
def State.landAnswer (s : State) (c : Cmd) (m : Msg) (b : List Byte) : State :=
  let t := fun (u : State) => { u with msgs := u.msgs.filter fun e => e.id != m.id }
  match c.kind with
  | .cpy _ dst _ =>
    if (dst + m.piece).testBit 47 then s.withMsg c (dst + m.piece) m.piece false true false false (.write (b.map some)) t
    else s.withWrite c (dst + m.piece) b t
  | .ratm _ _ _ _ _ ret => if ret = 0 then t s else s.withWrite c ret b t
  | .unseal .. => t (s.onCmd c.id fun d => { d with data := d.data ++ b })
  | _ => t s

/-- A command that has been told to stop does so at this boundary (R238, R363): a key operation writes its record, any other just ends. A SEAL whose
header is written has not stopped: its checkpoint authenticates, and it completes (R247). -/
def State.stopCmd (s : State) (c : Cmd) : State :=
  match c.kind with
  | .krot _ _ tgt _ => s.endWith c 1 0x50 tgt c.progress
  | .seal .. => s.endWith c (if 2 ≤ c.phase then 0 else 1) 0x52 0 c.progress
  | .unseal .. => s.endWith c 1 0x53 (if 2 ≤ c.phase then c.hdr 28 4 else 0) (if 2 ≤ c.phase then c.progress else 0)
  | _ => s.dropCmd c.id

/-- A command that has been told to stop may do so here: before its first unit, at a 4 KiB boundary of what it writes, or of the range in progress
for a SCRUB of bytes; a SCRUB of the ACC after a row, KROT by its own rule after a page, a SEAL until its header is written (R238, R242, R247,
R363). -/
def Cmd.atBoundary (c : Cmd) : Bool :=
  match c.kind with
  | .krot .. => false
  | .seal .. => decide (c.phase < 2)
  | .scrub 1 _ _ => true
  | .scrub .. => c.progress % 4096 == 0
  | .rst a _ => c.progress == 0 || (a + c.progress) % 4096 == 0
  | .xred _ _ dst _ => c.progress == 0 || (dst + 33 * c.progress) / 4096 != (dst + 33 * (c.progress - 1)) / 4096
  | .wbr .. => c.phase == 0
  | _ => true

/-- An earlier command of the engine has work to do (R219). -/
def State.engineBusy (s : State) (c : Cmd) : Bool :=
  s.cmds.any fun d => d.engine == c.engine && d.kind.counted && d.accepted.isSome && d.order < c.order && !d.written

/-- The page on which a message's data land at the destination of a copy is an SO page. -/
def State.landsSO (s : State) (m : Msg) : Bool :=
  match s.cmd m.owner with
  | some c => (match c.kind with
    | .cpy _ dst _ => (match s.walk c.part (dst + m.piece) false true with
      | .ok t => t.attr == .so
      | .error _ => false)
    | _ => false)
  | none => false

/-- The data of a copy that land on an SO page follow those of its earlier parts that land on SO pages (R261). -/
def State.landsNow (s : State) (m : Msg) : Bool :=
  !(s.landsSO m && s.msgs.any fun e => e.isCmd && e.owner == m.owner && decide (e.piece < m.piece) && s.landsSO e)

/-- The data a peer has returned for a command and that are still to be written. -/
def State.returned (s : State) (id : Nat) : Option (Msg × List Byte) :=
  s.msgs.findSome? fun m => if m.isCmd && m.owner == id && m.acked && s.landsNow m then (match m.op with
    | .write b => some (m, b.map fun o => o.getD 0)
    | _ => none) else none

/-- The fabric addresses that a command names. -/
def Cmd.fabricAddrs (c : Cmd) : List Nat :=
  ((match c.kind with
    | .cpy src dst _ => [src, dst]
    | .rst a _ | .ratm _ _ a .. => [a]
    | .xred _ _ dst _ => [dst]
    | .seal _ _ _ a .. | .unseal _ _ _ a _ => [a]
    | _ => []) ++ if flagKind c.fd1 = 2 then [bits c.fd0.toNat 47 0] else []).filter fun a => a.testBit 47

/-- A command waits in its engine while its gang is incomplete and it names a fabric address of another member (R359). -/
def State.gangWaits (s : State) (c : Cmd) : Bool :=
  c.fabricAddrs.any fun a => match s.walk c.part a false false with
    | .ok t => s.gangHolds c.gtag t.pa.hi
    | .error _ => false

/-- A command moves on by one unit. -/
def State.engineStep (s : State) (id : Nat) : State :=
  let s := s.takeMeasures
  match s.cmd id with
  | none => s
  | some c =>
    if c.accepted.isNone ∨ c.written = true ∨ c.fault.isSome = true ∨ c.kind.counted = false ∨ s.engineBusy c = true ∨ s.gangWaits c = true then s
    else if c.phase = recording then s.writeRecord c
    else match s.returned id with
      | some (m, b) => s.landAnswer c m b
      | none =>
        if c.stop && c.atBoundary then s.stopCmd c
        else match c.kind with
          | .cpy src dst len => s.copyStep c src dst len
          | .rst a b => s.rstStep c a b
          | .ratm op z a x e _ => s.ratmStep c op z a x e
          | .xred e5 src dst n => s.xredStep c e5 src dst n
          | .wbr off size => s.wbrStep c off size
          | .lease peer size _ _ => s.leaseStep c peer size
          | .lrecl i _ => s.lreclStep c i
          | .krot a n t _ => s.krotStep c a n t
          | .seal sp src len ck lab _ => s.sealStep c sp src len ck lab
          | .unseal sp dst cap ck _ => s.unsealStep c sp dst cap ck
          | .scrub k a n => s.scrubStep c k a n
          | .meas a n o => s.measStep c a n o
          | .slot .. => s
          | .fill .. => s

/-- ENGINE_COMMAND_COMPLETE: the command moves on, and ends after its last unit. -/
def execEngineCommandComplete (id : Nat) (s : State) : Out := .next (s.engineStep id)

/-- A command that the memory queue held is accepted once its fences and the strand's earlier commands let it (R200, R212). -/
def State.acceptLate (s : State) (id : Nat) : State :=
  match s.cmd id with
  | none => s
  | some c =>
    let earlier := s.cmds.any fun d => d.gtag == c.gtag && d.sidx == c.sidx && d.kind.counted && d.accepted.isNone && d.id < id
    if c.accepted.isNone = true ∧ earlier = false ∧ s.commandFree c.strand id = true then (s.acceptCmd id).unawait c.strand id else s

/-- ENGINE_COMMAND_ACCEPT. -/
def execEngineCommandAccept (id : Nat) (s : State) : Out := .next (s.acceptLate id)

/-! ## Streams (R215) -/

/-- Element `k` of a stream: its address. -/
def Stream.addr (m : Stream) (k : Nat) : Nat :=
  let idx := fun (j : Nat) => k / streamTotal (m.counts.take j) % max 1 (m.counts.getD j 1)
  let a := ((List.range 4).map fun j => (idx j : Int) * (m.strides.getD j 0 - m.strides.getD j 0 % 64)).foldl (· + ·) ((m.base : Int))
  lineBase (ofSigned 64 a)

/-- The lines of a slot. -/
def slotLines (off size : Nat) : List Nat := (List.range (size / 64)).map fun i => off / 64 + i

/-- The slots of a ring that the transfer unit may move: those that the program's advance of the same cycle did not just give it (R20). -/
def Strand.slotsSeen (x : Strand) (h room : Nat) : Nat :=
  match x.adv with
  | some (i, n) => if i = h then room - n else room
  | none => room

/-- The transfer unit starts the next slot of a stream: a fill at TAIL with a free slot, a drain at HEAD with a filled one, from the cycle after
the binding on and once the fences before the stream let it, and not while an earlier fill slot has still to read its bytes (R272). A slot
whose lines need a fill, or are in use by a command, waits (R20, R228, R240, R312). -/
def State.slotStart (s : State) (k h : Nat) : State :=
  let x := s.strand k
  match x.streams.find? fun m => m.ring == h with
  | none => s
  | some m =>
    let r := x.ring h
    let size := 64 * r.slsz
    let off := r.base + size * (if m.drain then r.head else r.tail)
    let room := x.slotsSeen h (if m.drain then r.fill else r.free)
    let unread := s.cmds.any fun c => c.gtag == x.gtag && c.sidx == x.sidx && c.phase == 0 && (match c.kind with
      | .slot i false .. => i == h
      | _ => false)
    if unread = true ∨ s.clk ≤ m.born ∨ m.stop = true ∨ streamTotal m.counts ≤ m.next ∨ room = 0 ∨ s.fencesDone k m.after true false false = false ∨
        s.soDone k m.after false false false = false ∨ s.inUse x .spad off size = true then s
    else
      let f := s.fillFor k false fun st => if st = .spad then slotLines off size else []
      if f.1 then f.2
      else
        let n := s.fresh
        let a := m.addr m.next
        let ring := if m.drain then { r with head := (r.head + 1) % r.nslot, fill := r.fill - 1, infl := r.infl + 1 }
          else { r with tail := (r.tail + 1) % r.nslot, free := r.free - 1, infl := r.infl + 1 }
        let c : Cmd :=
          { id := n.1, strand := k, gtag := x.gtag, sidx := x.sidx, part := x.part, core := coreOf k, kind := .slot h m.drain a off size,
            fd0 := 0, fd1 := 0, engine := copyEngine k, issued := none, accepted := some s.clk, order := n.1, promise := 0, raised := false,
            stop := false, progress := 0, fault := none, data := if m.drain then Mem.readN x.spad off size else [], written := false, phase := 0,
            nonce := 0, measure := none, tdid := 0, hnd := false, net := .none }
        let y := { x.setRing h ring with streams := x.streams.map fun e => if e.ring = h then { e with next := e.next + 1 } else e }
        let t := { n.2 with cmds := n.2.cmds ++ [c] }.setStrand k y
        if m.drain then t else t.withBytes c a size fun u b => u.onCmd c.id fun d => { d with data := b, phase := 1 }

/-- STREAM_SLOT_START. -/
def execStreamSlotStart (k h : Nat) (s : State) : Out := .next (s.slotStart k h)

/-- The ring and the stream after a slot has completed; after the last one the binding ends. -/
def Strand.slotDone (x : Strand) (h : Nat) (drain : Bool) : Strand :=
  let r := x.ring h
  let y : Strand := { x with streams := x.streams.map fun (m : Stream) => if m.ring = h then { m with done := m.done + 1 } else m }
  let ended := y.streams.any fun (m : Stream) => m.ring == h && decide (streamTotal m.counts ≤ m.done)
  let r' := { r with
    infl := r.infl - 1
    fill := if drain then r.fill else r.fill + 1
    free := if drain then r.free + 1 else r.free
    bind := if ended then 0 else r.bind }
  { y.setRing h r' with streams := if ended then y.streams.filter fun (m : Stream) => m.ring != h else y.streams }

/-- The oldest slot in INFL of a ring's stream completes (R215): slots complete in slot order. A fill's bytes are in the SPAD, a drain's in
global memory. -/
def State.slotComplete (s : State) (k h : Nat) : State :=
  let x := s.strand k
  let mine := fun (c : Cmd) => c.gtag == x.gtag && c.sidx == x.sidx && (match c.kind with
    | .slot r .. => r == h
    | _ => false)
  match s.cmds.find? mine with
  | none => s
  | some c =>
    match c.kind with
    | .slot _ drain a off size =>
      if c.fault.isSome ∨ (Tbl.find s.strands k).isNone = true ∨ s.inUse x .spad off size = true then s
      else if drain then s.withWrite c a c.data fun t => (t.dropCmd c.id).setStrand k ((t.strand k).slotDone h true)
      else if c.phase = 0 then s.withBytes c a size fun t b => t.onCmd c.id fun d => { d with data := b, phase := 1 }
      else
        let y := { x with
          spad := Mem.writeN x.spad off c.data
          spadLog := x.unlogged (slotLines off size)
          maps := markDirty x.maps (slotLines off size)
          chunks := markWritten x.chunks .spad ((slotLines off size).map (64 * ·)) 65536 }
        (s.dropCmd c.id).setStrand k (y.slotDone h false)
    | _ => s

/-- STREAM_SLOT_COMPLETE. -/
def execStreamSlotComplete (k h : Nat) (s : State) : Out := .next (s.slotComplete k h)

/-! ## Fills (R228, R312) -/

/-- The fill of SPAD page `page` of a strand moves on (R228, R333): the page of its map is translated, once the fences before it let it, its 64
lines are read one by one, and then they are in the SPAD, whose chunk is no longer released (R250, log entry 100). `nonce` holds the page's place once `phase` is 1. -/
def State.fillDone (s : State) (k page : Nat) : State :=
  let x := s.strand k
  match x.maps.find? fun e => decide (e.off ≤ 4096 * page) && decide (4096 * page < e.off + e.size) with
  | none => s
  | some e =>
    let p := page - e.off / 4096
    match s.cmds.find? fun c => c.gtag == x.gtag && c.sidx == x.sidx && c.kind == .fill e.index p with
    | none => s
    | some c =>
      let after := Tbl.getD e.again p e.after
      if c.fault.isSome then s
      else if c.phase = 0 then
        if s.fencesDone k after true false false = false ∨ s.soDone k after false false false = false then s
        else
          let r := s.engPlaces c true false [(e.addr + 4096 * p, 64)]
          match r.1 with
          | .error t => r.2.inTrouble c 0 t
          | .ok l => r.2.onCmd c.id fun d => { d with phase := 1, nonce := (l.headD (0, 0)).1 }
      else if c.progress < 64 then
        let pa := c.nonce + 64 * c.progress
        s.withLine c pa false fun t =>
          t.onCmd c.id fun d => { d with progress := c.progress + 1, data := d.data ++ t.engineBytes (clusterOf k) pa 64 }
      else
        ((s.dropCmd c.id).askFills (coreOf k) (slotLines (4096 * page) 4096)).setStrand k { x with
          spad := Mem.writeN x.spad (4096 * page) c.data
          spadLog := x.unlogged (slotLines (4096 * page) 4096)
          chunks := markWritten x.chunks .spad [4096 * page] 65536
          maps := x.maps.map fun m => if m.index = e.index then { m with filled := m.filled ++ [p] } else m }

/-- MAPR_FILL_COMPLETE. -/
def execMaprFillComplete (k page : Nat) (s : State) : Out := .next (s.fillDone k page)

/-- The save or fill of a chunk reads or writes memory in class SYS (R326), at a home slice that the manual does not name. -/
def State.chunkMiss (s : State) (k p : Nat) : State := let q := s.choose 12; q.2.miss (clusterOf k) q.1 p 3

/-- The fill of a saved chunk completes; a fill whose authentication fails, for what the save area holds or otherwise, ends the group with INTEGRITY, and the GROUP_END record of that end is
the record that R312 names (log entry 89). -/
def State.chunkFilled (s : State) (k : Nat) (st : Store) (i : Nat) (intact : Bool) : State :=
  let x := s.strand k
  let here := fun (c : Chunk) => c.store == st && c.index == i && c.filling
  if x.chunks.any here then
    (if intact && s.authentic st x.gtag x.sidx i then
      let t : State := { s with areas := s.areas.filter fun a => !a.is x.gtag x.sidx st i }
      ((t.chunkMiss k x.part).askFills (coreOf k) (if st = .spad then slotLines (65536 * i) 65536 else [])).setStrand k
        { x with chunks := x.chunks.map fun c => if here c then { c with unfilled := false, filling := false } else c }
     else s.contextReset x.gtag .integrity)
  else s

/-- The claim of chunk `i` of a store ends (R311): the claims of a strand end one after another. -/
def State.chunkClaimed (s : State) (k : Nat) (st : Store) (i : Nat) : State :=
  let x := s.strand k
  match x.chunks.find? Chunk.claiming with
  | none => s
  | some c =>
    if c.store ≠ st ∨ c.index ≠ i then s
    else ((s.endClaim c (some (.live x.gtag x.sidx i))).chunkMiss k x.part).setStrand k
      { x with chunks := x.chunks.map fun e => if e.store = st ∧ e.index = i then { e with claiming := false } else e }

/-- CHUNK_FILL_COMPLETE: of a chunk that is still claimed, its claim ends (R311), of any other its fill. -/
def execChunkFillComplete (k : Nat) (st : Store) (i : Nat) (intact : Bool) (s : State) : Out :=
  .next (if (s.strand k).chunks.any Chunk.claiming then s.chunkClaimed k st i else s.chunkFilled k st i intact)

/-! ## Gathers (R191) -/

/-- GATHER_COMPLETE: gathers complete in issue order, each once it has read its lines. -/
def execGatherComplete (k : Nat) (s : State) : Out :=
  let x := s.strand k
  .next (match x.mat.gathers with
    | [] => s
    | g :: r => if g.left.isEmpty then s.setStrand k { x with mat := { x.mat with gathers := r } } else s)

end Sys2Proof.Machine
end

