-- ==== Sys2Proof/Machine/Registers.lean ====
section
/-! DEFINITION. The TDI registers that carry no launch (R295, R332), the fabric event ring's consumer index (R387), the class budgets
(R326), and the reset ladder (R363 to R365, R395, R401). -/

namespace Sys2Proof.Machine

/-! ## Rings (R295, R361, R387) -/

/-- EVENT_RING_OVERFLOW: once room has returned, the OVERFLOW record with the count of lost records is written. -/
def execEventRingOverflow (p : Nat) (s : State) : Out := .next (s.flushLost p)

/-- PRQCONS_WRITE. -/
def execPrqconsWrite (p : Nat) (v : W64) (s : State) : Out :=
  .next (s.onTdi p fun q => if consOk q.prqProd (v.setWidth 32) q.prqLsz then { q with prqCons := v.setWidth 32 } else q)

/-- EVCONS_WRITE. -/
def execEvconsWrite (p : Nat) (v : W64) (s : State) : Out :=
  .next (s.onTdi p fun q => if consOk q.evProd (v.setWidth 32) q.evLsz then { q with evCons := v.setWidth 32 } else q)

/-- A change through PF0's register window. -/
def State.onMgmt (s : State) (f : Mgmt → Mgmt) : State := if s.mgmtOpen then { s with mgmt := f s.mgmt } else s

/-- FEVCONS_WRITE. -/
def execFevconsWrite (v : W64) (s : State) : Out :=
  .next (s.onMgmt fun g => if consOk g.fevProd (v.setWidth 32) g.fevLsz then { g with fevCons := v.setWidth 32 } else g)

/-! ## Stage 1 (R332) -/

/-- S1ROOT keeps EN and ROOT; its write starts an invalidation of every result. -/
def execS1rootWrite (p : Nat) (v : W64) (s : State) : Out :=
  .next (s.onTdi p fun q =>
    { q with s1root := BitVec.ofNat 64 (place v.toNat 0 0 + place (bits v.toNat 47 12) 47 12), s1inv := some none })

/-- A write of S1INV: an invalidation starts unless one is in progress. -/
def Partition.invalidate (q : Partition) (v : W64) : Partition :=
  if v.toNat.testBit 0 = true ∧ q.s1inv.isNone = true then
    { q with s1inv := some (if v.toNat.testBit 1 then none else some (bits v.toNat 47 12)) }
  else q

/-- S1INV_ALL. -/
def execS1invAll (p : Nat) (s : State) : Out := .next (s.onTdi p fun q => q.invalidate 3)

/-- S1INV_PAGE. -/
def execS1invPage (p : Nat) (v : W64) (s : State) : Out := .next (s.onTdi p fun q => q.invalidate v)

/-- A cached result used the stage-1 leaf that covers a page. -/
def Trans.covers (t : Trans) (page : Nat) : Bool := t.vpage * 2 ^ t.span / 2 ^ t.leaf == page * 4096 / 2 ^ t.leaf

/-- A stage-1 table entry serves the translation of a page. -/
def TableEnt.onPath (e : TableEnt) (page : Nat) : Bool := e.pre == page * 4096 / 2 ^ (39 - 9 * e.level)

/-- No translation cache holds a result that `f` names, or a table entry that `g` names. -/
def State.dropTrans (s : State) (f : Trans → Bool) (g : TableEnt → Bool) : State :=
  { s with clusters := s.clusters.map fun e =>
      (e.1, { e.2 with trans := e.2.trans.filter fun t => !f t, ents := e.2.ents.filter fun t => !g t }) }

/-- No translation cache holds anything of a partition. -/
def State.dropPart (s : State) (p : Nat) : State := s.dropTrans (fun t => t.part == p) fun e => e.part == p

/-- S1_INVALIDATION_COMPLETE: BUSY returns to 0. -/
def execS1InvalidationComplete (p : Nat) (s : State) : Out :=
  .next (match (s.part p).bind Partition.s1inv with
    | none => s
    | some which =>
      (s.dropTrans (fun t => t.part == p && (match which with
        | none => true
        | some page => t.covers page)) fun e => e.part == p && !e.two && (match which with
        | none => true
        | some page => e.onPath page)).onPart p fun q => { q with s1inv := none })

/-! ## Class budgets (R326) -/

/-- MEMCLS at reset (R326). -/
def memclsReset : W64 := BitVec.ofNat 64 (500 + place 2000 31 16 + place 20000 47 32 + place 250 63 48)

/-- MEMCLS_WRITE: a budget of RT below the fused floor of 200 ns stores 200. -/
def execMemclsWrite (p : Nat) (v : W64) (s : State) : Out :=
  .next (if s.mgmtOpen = false then s else s.onPart p fun q =>
    { q with memcls := if bits v.toNat 15 0 < 200 then BitVec.ofNat 64 (place v.toNat 63 0 - bits v.toNat 15 0 + 200) else v })

/-! ## Rungs 1 to 3 (R364) -/

/-- Rung 1: the queue stops, its launches in progress end as a cancel without ABORT ends them, and its unread records are dropped. -/
def State.resetQueue (s : State) (p n : Nat) : State :=
  match s.part p with
  | none => s
  | some _ =>
    let ls := s.launches.filter fun l => l.part == p && l.lq == n
    let t := ls.foldl (fun (t : State) l => t.cancelLaunch l false t.dispatchedNow) s
    ((t.onPart p fun q => q.setQueue n { q.queue n with en := false, head := 0, tail := 0, marked := [] }).resetRecord p 1 .cancelled).rungFrom
      1 (8 * p + n) (ls.map Launch.id)

/-- QUEUE_RESET. -/
def execQueueReset (p n : Nat) (s : State) : Out := .next (if n < 8 then s.resetQueue p n else s)

/-- CONTEXT_RESET. -/
def execContextReset (g : Nat) (st : Status) (s : State) : Out := .next (s.resetContext g st)

/-- A command or slot of the copy engines and transfer units of a cluster. -/
def Cmd.onEngines (c : Cmd) (cl : Nat) : Bool := clusterOf c.strand == cl && decide (c.engine < 64)

/-- Rung 3: the issuing groups end with RESET, and every command and slot is abandoned; it is over once their work is and that of the groups
`stalled`. -/
def State.resetEngines (s : State) (cl : Nat) (stalled : List Nat) : State :=
  let cs := s.cmds.filter fun c => c.onEngines cl
  let t := ((cs.map Cmd.part).eraseDups).foldl (fun (t : State) p => t.resetRecord p 3 .reset) s
  let u := ((cs.map Cmd.gtag).eraseDups).foldl (fun (t : State) g => t.cutGroup g .reset) t
  let v := (u.cmds.filter fun c => c.onEngines cl).foldl State.finishScrub u
  { v with cmds := v.cmds.filter fun c => !c.onEngines cl }.rungFrom 3 cl (cs.map Cmd.gtag ++ stalled).eraseDups

/-- ENGINE_RESET. -/
def execEngineReset (cl : Nat) (s : State) : Out := .next (s.resetEngines cl [])

/-! ## Rung 4 (R365) -/

/-- Piece `i` of an accepted request completes; a rewrite that holds its line is finished first. -/
def State.finishPiece (s : State) (r : Req) (i : Nat) : State :=
  match (r.pieces[i]?).bind Piece.pa with
  | some a =>
    let t := s.onReq r.id fun q => { q with pieces := q.pieces.modify i fun p => { p with via := true } }
    (t.settleLine (lineOf a.pa) r.writes).homeSlice [r.id] i .sound
  | none => s

/-- What the gateways have accepted of the requests of a partition that write memory completes, in order of acceptance (R365 step 3). -/
def State.finishReqs (s : State) (p : Nat) : State :=
  (sortBy (fun (e : Nat × Req × Nat) => e.1) ((s.reqs.filter fun r => r.part == p && r.writes).flatMap fun r =>
    r.pieces.zipIdx.filterMap fun e => e.1.acc.map fun n => (n, r, e.2))).foldl (fun (t : State) e => t.finishPiece e.2.1 e.2.2) s

/-- A KROT, SEAL or UNSEAL that a reset stops has its record written, or not, by free choice (R238); a SEAL whose header is written completes
(R247). -/
def State.stopForReset (s : State) (c : Cmd) : State :=
  let q := s.choose 2
  let sealed : Bool := match c.kind with
    | .seal .. => decide (2 ≤ c.phase)
    | _ => false
  if q.1 = 0 ∧ sealed = false then q.2
  else match q.2.cmd c.id with
    | some d => q.2.stopCmd d
    | none => q.2

/-- Every unit of the memory system is done with a partition: accepted requests complete, commands stop, page-request entries are freed
(R365 step 3). -/
def State.drainPart (s : State) (p : Nat) : State :=
  let t := s.finishReqs p
  let v := (t.cmds.filter fun c => c.part == p && c.accepted.isSome && !c.written && c.kind.stops).foldl State.stopForReset t
  let u := (v.cmds.filter fun c => c.part == p).foldl State.finishScrub v
  { u with
    reqs := u.reqs.filter fun r => r.part != p
    cmds := u.cmds.filter fun c => c.part != p
    posts := u.posts.filter fun x => x.part != p
    faults := u.faults.filter fun f => f.part != p
    preqs := u.preqs.filter fun e => e.part != p }

/-- Borrowed clusters return to their owners, and every guaranteed and unlent margin cluster is scrubbed (R365 steps 1 and 4). -/
def State.clearClusters (s : State) (p : Nat) : State :=
  match s.part p with
  | none => s
  | some q =>
    let t := ((List.range 32).filter fun c => (s.cluster c).lentTo == some p).foldl (fun (t : State) c =>
      let u := t.clearCluster c
      u.setCluster c { u.cluster c with lentTo := none, reclaim := none }) s
    (q.guaranteed ++ q.margin.filter t.unlent).foldl State.clearCluster t

/-- Every TDI register of a partition returns to its reset value, and its miss counters to zero (R328, R365 step 5). -/
def State.clearTdi (s : State) (p : Nat) : State :=
  let t := s.onPart p fun q =>
    { q with
      lqs := [], ctrs := [], prqProd := 0, prqCons := 0, evProd := 0, evCons := 0, evSeq := 0, evLost := 0, evWait := [], s1root := 0, s1inv := none
      cancelBusy := false, tdx := Tdx.reset, refuse := false }
  { t.dropPart p with
    launches := t.launches.filter fun l => l.part != p
    gangs := t.gangs.filter fun g => g.part != p
    misscnt := t.misscnt.filter fun e => e.1 / 4 % 16 != p }

/-- A partition reset (R365): its RESET record is record 0, and a GROUP_END record follows for each group that it ended. -/
def State.resetPartition (s : State) (p rung : Nat) : State :=
  match s.part p with
  | none => s
  | some _ =>
    let gs := s.groups.filter fun g => g.2.part == p
    let t := s.onPart p fun q => { q with refuse := true, ctrs := [] }
    let u := gs.foldl (fun (t : State) g => t.cutGroup g.1 .reset) t
    let v := ((u.drainPart p).clearClusters p).clearTdi p
    gs.foldl (fun (t : State) g => t.event p 2 noStrand g.2.wid.toNat (statusCode .reset + place g.2.seq 63 32) g.2.lq) (v.resetRecord p rung .reset)

/-- PARTITION_RESET. -/
def execPartitionReset (p : Nat) (s : State) : Out := .next (s.resetPartition p 4)

/-- VF_FUNCTION_LEVEL_RESET: VF n + 1 is the TDI of partition n (R394, R395). -/
def execVfFunctionLevelReset (vf : Nat) (s : State) : Out := .next (if 1 ≤ vf then s.resetPartition (vf - 1) 4 else s)

/-! ## Rung 5 (R364, R401) -/

/-- The management window when Lantern starts from ROM: the flash, the fused minimum, the readback count and the power sensors stay. -/
def Mgmt.reboot (g : Mgmt) : Mgmt := { Mgmt.reset with flash := g.flash, minSvn := g.minSvn, pwr := g.pwr, rbCount := g.rbCount }

/-- No trust domain of a partition extends to a peer any more; the vault keeps the root keys (R401). -/
def Partition.unlinked (q : Partition) : Partition := { q with domains := (q.domains.map fun d => (d.1, d.2.1, none)).eraseDups }

/-- A device reset: every partition is reset, every TDI is in CONFIG_UNLOCKED, and the package starts anew but for the key vault, the KeyID
ownership table, the signature counter and the contents of the stacks. -/
def State.resetDevice (s : State) : State :=
  let t := (s.parts.map Prod.fst).foldl (fun (t : State) p => t.resetPartition p 5) s
  { State.reset with
    power := t.power, agenda := t.agenda, free := t.free, nextId := t.nextId, lskew := t.lskew, nextTag := t.nextTag, saves := t.saves
    parts := t.parts.map fun e => (e.1, { e.2.unlinked with tdisp := .unlocked, memcls := memclsReset })
    mem := t.mem, hostMem := t.hostMem, majors := t.majors, pages := t.pages, keys := t.keys, poison := t.poison, rewrites := t.rewrites
    sealCnt := t.sealCnt, xmss := t.xmss, mgmt := t.mgmt.reboot }

/-- DEVICE_RESET. -/
def execDeviceReset (s : State) : Out := .next s.resetDevice

/-- PF0_FUNCTION_LEVEL_RESET (R395). -/
def execPf0FunctionLevelReset (s : State) : Out := .next s.resetDevice

/-- The timeout of a rung, in LCYC cycles (R364). -/
def rungTimeout : Nat → Nat
  | 1 => 12500
  | 2 => 125000
  | _ => 250000

/-- The requests and commands of some groups that are still in progress: their partitions and strands. -/
def State.workOf (s : State) (gs : List Nat) : List (Nat × Nat) :=
  ((s.reqs.filter fun r => gs.contains r.gtag).map fun r => (r.part, r.strand)) ++
    (s.cmds.filter fun c => gs.contains c.gtag).map fun c => (c.part, c.strand)

/-- What a rung waits for has ended. -/
def State.rungOver (s : State) (r : Rung) : Bool :=
  if r.rung = 1 then !(s.launches.any fun l => r.left.contains l.id) else (s.workOf r.left).isEmpty

/-- The next rung is applied to the scope that holds what stalled: the groups of the launches, the engines of the clusters, the partitions. -/
def State.nextRung (s : State) (r : Rung) : State :=
  match r.rung with
  | 1 => ((s.launches.filter fun l => r.left.contains l.id).flatMap s.launchGroups).foldl (fun (t : State) g => t.resetContext g .reset) s
  | 2 => (((s.workOf r.left).map fun e => clusterOf e.2).eraseDups).foldl (fun (t : State) c => t.resetEngines c r.left) s
  | _ => (((s.workOf r.left).map Prod.fst).eraseDups).foldl (fun (t : State) p => t.resetPartition p 4) s

/-- RESET_RUNG_TIMEOUT (R364): a rung whose work has ended is over; one whose timeout has passed gives way to the next. Rungs 4 and 5 of this model
are complete in their own step, so no timeout of theirs passes (log entry 54). -/
def State.rungTimeout (s : State) (rung scope : Nat) : State :=
  match s.rungs.find? fun r => r.rung == rung && r.scope == scope with
  | none => s
  | some r =>
    let t := { s with rungs := s.rungs.filter fun e => !(e.rung == rung && e.scope == scope) }
    if s.rungOver r then t
    else if s.clk < r.since + Machine.rungTimeout rung then s
    else t.nextRung r

/-- RESET_RUNG_TIMEOUT. -/
def execResetRungTimeout (rung scope : Nat) (s : State) : Out := .next (s.rungTimeout rung scope)

end Sys2Proof.Machine
end

