-- ==== Sys2Proof/Machine/Fabric.lean ====
section
/-! DEFINITION. The die links' events (R367, R368) and the Prohirak ports: the rotor round, beacons, messages and flits, loss of light and
retraining (R369 to R376, R383 to R387, R390, R432). -/

namespace Sys2Proof.Machine

/-! ## Die links (R366 to R368) -/

/-- A DIELINK record (R387). -/
def State.dieRecord (s : State) (l what : Nat) : State := s.fabricEvent 0x106 l what 0

/-- A link goes down; the traffic of a mesh link takes another path while its dies have one. -/
def State.linkDown (s : State) (l : Nat) : State :=
  if l < 8 ∧ (s.link l).up = true then
    let t := (s.setLink l ⟨false, 0, s.clk⟩).dieRecord l 0
    if l < 4 ∧ ((linkDies l).all fun d => (dieLinks d).any fun k => (t.link k).up) = true then t.dieRecord l 2 else t
  else s

/-- DIELINK_TAG_FAIL: a flit's first failed tag is retried; the failed tag of the retried flit takes the link down (R367). -/
def execDielinkTagFail (e : LinkFlit) (s : State) : Out :=
  let l := s.link e.link
  .next (if e.again = true ∧ l.failed = 1 then s.linkDown e.link
    else if e.link < 8 ∧ l.up = true then s.setLink e.link { l with failed := 1 } else s)

/-- DIELINK_RETRAIN. -/
def execDielinkRetrain (l : Nat) (s : State) : Out :=
  .next (if (s.link l).up then s else (s.setLink l Link.reset).dieRecord l 1)

/-- DIE_LINK_DOWN. -/
def execDieLinkDown (l : Nat) (s : State) : Out := .next (s.linkDown l)

/-- DIE_ISOLATION_TIMEOUT (R368): a die with no link up for 1 ms. -/
def execDieIsolationTimeout (d : Nat) (s : State) : Out :=
  .next (if dieLinks d ≠ [] ∧ ((dieLinks d).all fun l => !(s.link l).up && decide ((s.link l).downAt + 1250000 ≤ s.clk)) = true then
    s.resetDevice else s)

/-! ## Flits sent and acknowledged (R371, R376, R383) -/

/-- Changes of the message of a number. -/
def State.onMsg (s : State) (id : Nat) (f : Msg → Msg) : State := { s with msgs := s.msgs.map fun m => if m.id = id then f m else m }

/-- `n` flits of a message return to it, and it has no route. -/
def Msg.back (m : Msg) (n : Nat) : Msg := { m with left := m.left + n, route := none, tried := 0 }

/-- A message is to be sent again as a whole. -/
def Msg.again (m : Msg) : Msg := { m with left := m.flits, route := none, tried := 0 }

/-- A port sends a nack, which names the first missing SEQ and the wavelengths lost (R383, R384). -/
def State.nackFrom (s : State) (p : Nat) (lost : BitVec 16) : State :=
  let x := s.port p
  s.setPort p { x with nacks := x.nacks + 1, nackSent := some (x.rxNext, lost) }

/-- `n` flits that were sent are taken back: a message's return to it; a relayed flit is never relayed a second time, and a nack goes out from
the port at which it came in (R376, R383). -/
def State.flitsBack (s : State) (c : Cargo) (n : Nat) : State :=
  match c with
  | .msg i => s.onMsg i fun m => m.back n
  | .relay q _ => s.nackFrom q 0
  | .spent => s

/-- The flits of a port that are not acknowledged are taken back. The messages routed to its past instances, or with `all` any of its instances, are
routed again (R383, R385). -/
def State.returnFlits (s : State) (p : Nat) (all : Bool) : State :=
  let t := (s.port p).sent.foldl (fun (t : State) e => t.flitsBack e.cargo e.n) s
  { t.setPort p { t.port p with sent := [], txSeq := 0, txEnd := 0, acked := 0, rxNext := 0, replay := none, rxPend := none, nackSent := none } with
    msgs := t.msgs.map fun m => match m.route with
      | some r => if r.port = p ∧ 0 < m.left ∧ (all = true ∨ r.slot < t.instanceOf p) then m.back 0 else m
      | none => m }

/-- The runs without their first `n` flits, each of `flit` units. -/
def dropFlits (flit : Nat) : Nat → List SentRun → List SentRun
  | _, [] => []
  | n, e :: r => if n < e.n then { e with n := e.n - n, start := e.start + n * flit } :: r else dropFlits flit (n - e.n) r

/-- The flits of some runs. -/
def flitCount (l : List SentRun) : Nat := l.foldl (fun n e => n + e.n) 0

/-- The flits of some runs whose transmission has begun at time `t`. -/
def begunOf (flit t : Nat) (l : List SentRun) : Nat :=
  l.foldl (fun n e => n + if t < e.start then 0 else min e.n ((t - e.start) / max 1 flit + 1)) 0

/-- The runs of a port without the flits of messages whose transmission has not begun at time `t`, and those flits. -/
def recallRuns (flit t : Nat) : List SentRun → List SentRun × List (Nat × Nat)
  | [] => ([], [])
  | e :: r =>
    let q := recallRuns flit t r
    match e.cargo with
    | .msg i =>
      let k := if t < e.start then 0 else min e.n ((t - e.start) / max 1 flit + 1)
      (if k = 0 then q.1 else { e with n := k } :: q.1, if k = e.n then q.2 else (i, e.n - k) :: q.2)
    | _ => (e :: q.1, q.2)

/-- Two rounds of rotor time, in instances (R376). -/
def twoRounds : Nat := 64

/-- A message that awaits no answer has been delivered once all its flits have been acknowledged; one that an intermediate relays, once the two
rounds have passed in which it may still be nacked. -/
def State.delivered (s : State) (m : Msg) : Bool :=
  m.left == 0 && !(s.ports.any fun e => e.2.sent.any fun k => k.cargo == .msg m.id) && (match m.op with
    | .answer .. | .mgmt _ => (m.route.map fun r => r.relay.isNone || decide (r.slot + twoRounds < s.instanceOf r.port)).getD false
    | _ => false)

/-- The messages that have been delivered are done. -/
def State.dropDelivered (s : State) : State := { s with msgs := s.msgs.filter fun m => !s.delivered m }

/-- Flits that the replay buffer of a port holds (R383). -/
def replayRoom : Nat := 512

/-- Flits go out behind those sent, from time `t` on, as far as the data slots before time `close` and the replay buffer hold them: the port, and the
number sent. -/
def Port.push (x : Port) (t a : Nat) (m : Meet) (close : Nat) (c : Cargo) (n : Nat) : Port × Nat :=
  let start := max x.txEnd (m.slotAt a (slotFrom t a m.flit))
  let k := min n (min ((close - start) / max 1 m.flit) (replayRoom - flitCount x.sent))
  (if k = 0 then x else { x with txSeq := max x.txSeq 1 + k, txEnd := start + k * m.flit, sent := x.sent ++ [⟨c, k, start⟩] }, k)

/-- The time at which the data slots of an instance end: slot S − 1 carries the final acknowledgement. -/
def Meet.close (m : Meet) (a : Nat) : Nat := m.slotAt a (m.slots - 1)

/-- The entry of the matching in which a port is. -/
def State.entNow (s : State) (p : Nat) : RotEnt := Tbl.getD (s.port p).ents (s.instanceOf p % 32) RotEnt.reset

/-- The port pair of a port's present matching has a link key (R390). -/
def State.keyed (s : State) (p : Nat) : Bool :=
  s.linkKeys.any fun k => k.port == p && k.peer == (s.entNow p).peer && k.pport == (s.entNow p).pport

/-- The relayed flits for the peer go out first, in the relay share (R371). -/
def State.sendRelayed (s : State) (p a : Nat) (m : Meet) : State :=
  (s.relayBuf.filter fun e => e.target == m.peer).foldl (fun (t : State) e =>
    let q := (t.port p).push (t.rotorTime p) a m (m.slotAt a (relayShare m.slots + 1)) (.relay e.port e.target) e.n
    { t.setPort p q.1 with
      relayBuf := (t.relayBuf.map fun f => if f = e then { f with n := f.n - q.2 } else f).filter fun f => f.n != 0 }) s

/-- The direct flits of the matching in progress that have not begun stand back for relayed flits in the relay share (R371): they are sent again behind
them. A flit that is replayed keeps its place. -/
def State.recall (s : State) (p a : Nat) (m : Meet) : State :=
  let x := s.port p
  let t := max (s.rotorTime p) ((x.replay.map fun r => r.2 - 1).getD 0)
  let q := recallRuns m.flit t x.sent
  if q.2 = [] then s
  else
    let n := q.2.foldl (fun k e => k + e.2) 0
    let stop := (q.1.map fun e => e.start + e.n * m.flit).foldl max (if q.1 = [] then ((x.sent.map SentRun.start).min?).getD 0 else 0)
    q.2.foldl (fun (u : State) e => u.onMsg e.1 fun y => { y with
      left := y.left + e.2, route := y.route.map fun r => { r with port := p, slot := a } })
      (s.setPort p { x with sent := q.1, txSeq := x.txSeq - n, txEnd := stop })

/-- A message that may be sent without a link key (R390). -/
def Msg.agrees (m : Msg) : Bool :=
  match m.op with
  | .mgmt (.agreement ..) => true
  | _ => false

/-- The flits of a message that is routed to the matching in progress go out; those that find no slot move to the port's next instance of the
same matching (R371, R385), and those that find the replay buffer full wait for acknowledgements (R383). -/
def State.sendMessage (s : State) (p a : Nat) (m : Meet) (x : Msg) : State :=
  let q := (s.port p).push (s.rotorTime p) a m (m.close a) (.msg x.id) x.left
  let t := s.setPort p q.1
  let moves := decide (q.2 < x.left) && decide (flitCount q.1.sent < replayRoom)
  t.onMsg x.id fun y => { y with
    left := y.left - q.2
    route := if moves then y.route.map fun r => { r with slot := r.slot + 32 } else y.route }

/-- A port sends in its present matching, once the peer's beacon has come (R373): relayed flits, then the messages routed to it in the order of their
reservations. Without a link key it sends only agreement messages (R390). -/
def State.sendFlits (s : State) (p : Nat) : State :=
  let a := s.instanceOf p
  match (s.port p).meet a with
  | none => s
  | some m =>
    if (s.port p).heard = false then s
    else
      let mine := fun (x : Msg) => decide (0 < x.left) && (x.route.map fun r => r.port == p && r.slot == a).getD false
      let l := sortBy Msg.rank (s.msgs.filter mine)
      if s.keyed p then
        let u := if s.relayBuf.any fun e => e.target == m.peer then (s.recall p a m).sendRelayed p a m else s
        (sortBy Msg.rank (u.msgs.filter mine)).foldl (fun (t : State) x => t.sendMessage p a m x) u
      else
        (l.filter Msg.agrees).foldl (fun (t : State) x => t.sendMessage p a m x)
          { s with msgs := s.msgs.map fun x => if mine x && !x.agrees then x.back 0 else x }

/-- A cumulative acknowledgement: every flit below SEQ `k` has arrived (R383). -/
def State.ackTo (s : State) (p k : Nat) : State :=
  let x := s.port p
  if x.acked < k ∧ k ≤ x.txSeq then
    let flit := ((x.meet (s.instanceOf p)).map Meet.flit).getD 1
    let t := s.setPort p { x with acked := k, sent := dropFlits flit (k - max x.acked 1) x.sent }
    t.dropDelivered.sendFlits p
  else s

/-! ## Routes (R375) -/

/-- The strand and the engine that a message comes from, as far as it serves a command or a request. -/
def State.sender (s : State) (m : Msg) : Option Nat × Option Nat :=
  if m.isCmd then (((s.cmd m.owner).map Cmd.strand), (s.cmd m.owner).map Cmd.engine) else ((s.req m.owner).map Req.strand, none)

/-- The fabric addresses that a message touches, with the bytes that a block has on another page. -/
def Msg.ranges (m : Msg) : List (Nat × Nat) :=
  match m.op with
  | .read k => [(m.fia, k)]
  | .write b => [(m.fia, b.length)]
  | .xred _ none b => [(m.fia, b.length)]
  | .xred _ (some t) b => let k := min b.length (4096 - m.fia % 4096); [(m.fia, k), (t, b.length - k)]
  | .answer .. | .mgmt _ | .groupFlag .. => []
  | _ => [(m.fia, 8)]

/-- Two messages of one sending endpoint, a strand or an engine, touch a common line of one target (R278, R375). -/
def State.collides (s : State) (a b : Msg) : Bool :=
  let u := s.sender a
  let v := s.sender b
  a.peer == b.peer && ((u.1.isSome && u.1 == v.1) || (u.2.isSome && u.2 == v.2)) &&
    a.ranges.any fun x => b.ranges.any fun y => x.2 != 0 && y.2 != 0 && decide (x.1 / 64 ≤ (y.1 + y.2 - 1) / 64) && decide (y.1 / 64 ≤ (x.1 + x.2 - 1) / 64)

/-- The round in progress, counted from 1. -/
def State.roundNow (s : State) : Nat := s.fabricTime / (32 * matchUnits) + 1

/-- A message takes a route; a port in that instance sends it. -/
def State.takeRoute (s : State) (m : Msg) (r : Route) : State :=
  let f := s.fresh
  let t := f.2.onMsg m.id fun x => { x with route := some r, relayed := r.relay.isSome, rank := f.1 }
  if r.slot = s.instanceOf r.port then t.sendFlits r.port else t

/-- The route of the messages that a message collides with, where it may follow them: one route, whose instance is not past. -/
def State.common (s : State) (l : List Msg) : Option Route :=
  match l.head?.bind Msg.route with
  | some r => if (l.all fun m => m.route == some r) ∧ s.instanceOf r.port ≤ r.slot then some r else none
  | none => none

/-- MESSAGE_ROUTE (R375): an engine takes up a message and reserves its slots. One that touches a line of earlier messages, or of any that are in flight,
follows them on their route or waits, by free choice; one without a candidate is held, and routed again at the start of each later round. -/
def State.routeMsg (s : State) (id : Nat) : State :=
  match s.msgs.find? fun m => m.id == id with
  | none => s
  | some m =>
    if m.route.isSome ∨ m.acked = true ∨ m.tried = s.roundNow then s
    else
      let before := s.msgs.filter fun e => e.id != id && (decide (e.id < id) || e.route.isSome) && !e.acked && s.collides e m
      if before ≠ [] then
        match s.common before with
        | some r => let q := s.choose 2; if q.1 = 0 then q.2 else q.2.takeRoute m r
        | none => s
      else match chooseRoute s.ownTables s.tablesOf s.reserved (s.aheadOf m) m.peer m.left s.fabricTime with
        | some c => s.takeRoute m c.2
        | none => s.onMsg id fun x => { x with tried := s.roundNow }

/-- MESSAGE_ROUTE. -/
def execMessageRoute (id : Nat) (s : State) : Out := .next (s.routeMsg id)

/-! ## Loss of light and restripes (R384, R385, R432) -/

/-- Time within the matching in progress. -/
def State.inMatch (s : State) (p : Nat) : Nat := s.rotorTime p % matchUnits

/-- The runs of a replay that begins at time `t` with flits of `flit` units and ends before `close`: what it sends, and what finds no slot. -/
def reflow (flit close : Nat) : Nat → List SentRun → List SentRun × List (Cargo × Nat)
  | _, [] => ([], [])
  | t, e :: r =>
    let k := min e.n ((close - t) / max 1 flit)
    let q := reflow flit close (t + k * flit) r
    (if k = 0 then q.1 else ⟨e.cargo, k, t⟩ :: q.1, if k = e.n then q.2 else (e.cargo, e.n - k) :: q.2)

/-- A flit that finds no slot moves to the port's next instance of the same matching (R371, R385). -/
def State.moveOn (s : State) (c : Cargo) (n : Nat) : State :=
  match c with
  | .msg i => s.onMsg i fun m => { m with left := m.left + n, route := m.route.map fun r => { r with slot := r.slot + 32 } }
  | _ => s.flitsBack c n

/-- The flits from the first unacknowledged one on are sent again, from time `t` on; those that had begun took `old` units each. -/
def State.replayFrom (s : State) (p t old : Nat) : State :=
  let x := s.port p
  match x.meet (s.instanceOf p) with
  | none => s
  | some m =>
    let q := reflow m.flit (m.close (s.instanceOf p)) t x.sent
    let first := max x.acked 1
    let u := s.setPort p { x with
      sent := q.1, txSeq := if x.txSeq = 0 then 0 else first + flitCount q.1, txEnd := t + flitCount q.1 * m.flit
      replay := some (first, t + begunOf old (s.rotorTime p) x.sent * m.flit) }
    q.2.foldl (fun (u : State) e => u.moveOn e.1 e.2) u

/-- A restripe to the set `new` (R384): a restripe flit goes out on it, and the first unacknowledged flit is replayed after it. A port left without
light is disabled, and its traffic goes over other ports (R385). -/
def State.restripeTo (s : State) (p : Nat) (new : BitVec 16) : State :=
  let x := s.port p
  if new = x.txu then s
  else if new = 0 then
    let t := s.returnFlits p true
    ((t.setPort p { t.port p with txu := 0, dis := true, pendMask := none }).fabricEvent 0x103 p 1 0)
  else
    let old := ((x.meet (s.instanceOf p)).map Meet.flit).getD 1
    let t := s.setPort p { x with txu := new, pendMask := none }
    let flit := (((t.port p).meet (s.instanceOf p)).map Meet.flit).getD 1
    (t.replayFrom p (s.rotorTime p + flit) old).fabricEvent 0x101 p (x.txu.toNat + place new.toNat 31 16) (begunOf old (s.rotorTime p) x.sent)

/-- The transmitter learns that wavelengths are lost: at once, or from the next matching where it learns it in the guard or in the last
microsecond. -/
def State.detect (s : State) (p : Nat) (lost : BitVec 16) : State :=
  let x := s.port p
  let m := s.inMatch p
  let set := x.pendMask.getD x.txu
  if set &&& lost = 0 then s
  else if x.lock = true ∧ (m < 200 * nsUnits ∨ 3000 * nsUnits ≤ m) then s.setPort p { x with pendMask := some (set &&& ~~~lost) }
  else s.restripeTo p (set &&& ~~~lost)

/-- A LOSS_OF_LIGHT record (R387). -/
def State.lightRecord (s : State) (p : Nat) (lost : BitVec 16) : State := s.fabricEvent 0x100 p lost.toNat (s.lcycOf (p / 8))

/-- LASER_MODULE_FAIL: the wavelengths of a module that are in use go dark (R369, R384). -/
def execLaserModuleFail (p k : Nat) (s : State) : Out :=
  let lost := BitVec.ofNat 16 (15 * 2 ^ (4 * (k % 4))) &&& (s.port p).pendMask.getD (s.port p).txu
  .next (if p < 32 ∧ lost ≠ 0 then (s.lightRecord p lost).detect p lost else s)

/-- LOSS_OF_LIGHT_DECLARE: this package's receiver reports lost wavelengths in a nack, and raises its record (R384, R432). -/
def execLossOfLightDeclare (p : Nat) (mask : BitVec 16) (s : State) : Out :=
  .next (if p < 32 ∧ mask ≠ 0 then (s.nackFrom p mask).lightRecord p mask else s)

/-- RESTRIPE: the peer sends on other wavelengths from the SEQ that its restripe flit names on. -/
def execRestripe (p : Nat) (mask : BitVec 16) (seq : Nat) (s : State) : Out :=
  .next (s.setPort p { s.port p with rxPend := some (seq, mask) })

/-- NACK (R383, R376, R432): every flit below the named SEQ has arrived; the transmitter replays from it, unless a replay under way covers
it. The nack of an intermediate that cannot relay a flit makes its message be routed again, and the later ones that followed it on its route because
they touch a line of it (R375); which nack it is, is free. Wavelengths that it reports
lost are removed. -/
def State.nacked (s : State) (p seq : Nat) (lost : BitVec 16) : State :=
  let t := s.ackTo p seq
  let x := t.port p
  let now := t.rotorTime p
  let covered := (x.replay.map fun r => decide (r.1 ≤ seq) && decide (now < r.2)).getD false
  let flit := ((x.meet (t.instanceOf p)).map Meet.flit).getD 1
  let relayed := t.msgs.filter fun (m : Msg) => !m.acked && m.relayed && (m.route.map fun r => r.relay == some (t.entNow p).peer).getD false
  let q := t.choose (relayed.length + 1)
  let u := match if q.1 = 0 then none else relayed[q.1 - 1]? with
    | some m =>
      let again := fun (e : Msg) => e.id == m.id || (decide (m.id < e.id) && !e.acked && e.route == m.route && t.collides m e)
      let ids := (t.msgs.filter again).map Msg.id
      let v := q.2.setPort p { x with sent := x.sent.map fun (e : SentRun) => match e.cargo with
        | .msg i => if ids.contains i then { e with cargo := .spent } else e
        | _ => e }
      { v with msgs := v.msgs.map fun (e : Msg) => if ids.contains e.id then e.again else e }
    | none => if covered ∨ x.sent = [] then q.2 else q.2.replayFrom p now flit
  u.detect p lost

/-- NACK. -/
def execNack (p seq : Nat) (lost : BitVec 16) (s : State) : Out := .next (s.nacked p seq lost)

/-! ## The rotor round (R372, R373) -/

/-- A relayed flit that has not gone out within two rounds is answered with a nack, in the matching in which its port meets the sender again (R376). -/
def State.dropStale (s : State) : State :=
  let stale := fun (e : RelayRun) => decide (e.since + twoRounds * matchUnits ≤ s.rotorTime e.port)
  if s.relayBuf.any stale = false then s
  else { (s.relayBuf.filter stale).foldl (fun (t : State) e => t.nackFrom e.port 0) s with relayBuf := s.relayBuf.filter fun e => !stale e }

/-- A port that has lost its lock passes a boundary: the entry of the matching that ends is valid only if its peer was seen (R374). -/
def State.passUnlocked (s : State) (p : Nat) : State :=
  let x := s.port p
  let i := (s.instanceOf p - 1) % 32
  let e := Tbl.getD x.ents i RotEnt.reset
  s.setPort p (if x.heard then { x with heard := false } else { x with agree := 0, ents := Tbl.put RotEnt.reset x.ents i { e with valid := false } })

/-- MATCHING_BOUNDARY (R371 to R374, R383, R384, R386): what is unacknowledged returns, an entry without a beacon becomes invalid, the
matching steps on, and a pending restripe applies. -/
def State.boundary (s : State) (p : Nat) : State :=
  let x := s.port p
  if x.lock = false then (if x.everLock then s.passUnlocked p else s)
  else
    let t := (s.returnFlits p false).dropDelivered
    let y := t.port p
    let e := Tbl.getD x.ents x.idx RotEnt.reset
    let u := t.setPort p { y with
      idx := (x.idx + 1) % 32
      round := if x.idx = 31 then x.round + 1 else x.round
      ents := if x.heard then x.ents else Tbl.put RotEnt.reset x.ents x.idx { e with valid := false }
      missed := if x.heard then 0 else x.missed + 1
      heard := false
      retrain := x.retrain || decide (16 < y.nacks)
      nacks := 0 }
    match x.pendMask with
    | some m => u.restripeTo p m
    | none => u

/-- MATCHING_BOUNDARY. -/
def execMatchingBoundary (p : Nat) (s : State) : Out := .next (s.boundary p)

/-- The distance of two phases within a round, in ns. -/
def phaseGap (a b : Nat) : Nat := let d := (a % 128000 + 128000 - b % 128000) % 128000; min d (128000 - d)

/-- A port loses its lock (R373): its traffic is routed again, and BEACON_LOST is raised. -/
def State.unlock (s : State) (p : Nat) : State :=
  let t := s.returnFlits p true
  (t.setPort p { t.port p with lock := false, agree := 0, missed := 0, heard := false }).fabricEvent 0x104 p (t.port p).round.toNat 0

/-- The step 1 message of an agreement (R389): trust domain, partition or port, nonce, identity key. -/
def step1Bytes (td : W64) (ppart draw : Nat) : List Byte :=
  natLe 8 td.toNat ++ natLe 1 ppart ++ natLe 32 (Config.nonce draw).toNat ++ Config.identityKey

/-- At the first meeting with a peer, the agreement of the port pair begins (R390), and again at a later one where it has not ended within 1 ms or
has failed (log entry 94). -/
def State.startLink (s : State) (p peer pport : Nat) : State :=
  let same := fun (r : LinkRun) => r.port == p && r.peer == peer && r.pport == pport
  if s.keyed p = true ∨ (s.linkRuns.any fun r => same r && decide (s.clk < r.since + 1250000)) = true then s
  else
    let f := s.fresh
    let b := step1Bytes 0 pport f.1
    let run : LinkRun := ⟨p, peer, pport, 1, f.1, b, [], s.clk⟩
    { f.2 with linkRuns := (f.2.linkRuns.filter fun r => !same r) ++ [run] }.sendMgmt peer (.agreement 1 p pport 0 b [] none)

/-- A locked port whose phase is more than 100 ns from that of the other locked ports is unlocked (R373); any other, which has heard its peer, begins
the agreement of the port pair and sends. -/
def State.meetPeer (s : State) (p peer pport phase : Nat) : State :=
  if (List.range 32).any fun q => q != p && (s.port q).lock && decide (100 < phaseGap (s.port q).phase phase) then s.unlock p
  else (s.startLink p peer pport).sendFlits p

/-- A beacon of the matching in progress (R372 to R374): the peer and its tables are recorded; two beacons that agree lock the port. -/
def State.beacon (s : State) (p : Nat) (b : BeaconMsg) : State :=
  let x := s.port p
  if b.digestOk = false ∨ 32 ≤ p ∨ x.dis = true then s
  else
    let i := b.index % 32
    let e := Tbl.getD x.ents i RotEnt.reset
    let seen := { x with
      ents := Tbl.put RotEnt.reset x.ents i { e with peer := b.package % 4096, pport := b.port % 32, valid := true }
      heard := true, rxNext := max x.rxNext 1 }
    let t := { s with peerSched := (b.package, b.port, b.sched) :: s.peerSched.filter fun k => !(k.1 == b.package && k.2.1 == b.port) }
    if x.lock then (t.setPort p seen).meetPeer p (b.package % 4096) (b.port % 32) b.phaseNs
    else
      let follows := x.agree = 1 ∧ i = (x.idx + 1) % 32 ∧ b.round % 2 ^ 32 = (if x.idx = 31 then x.round + 1 else x.round).toNat
      let y := { seen with idx := i, round := BitVec.ofNat 32 b.round, agree := 1 }
      if follows then
        (t.setPort p { y with lock := true, everLock := true, agree := 2, phase := b.phaseNs }).meetPeer p (b.package % 4096) (b.port % 32) b.phaseNs
      else t.setPort p y

/-- BEACON. -/
def execBeacon (p : Nat) (b : BeaconMsg) (s : State) : Out := .next (s.beacon p b)

/-- BEACON_LOSS_TIMEOUT (R373): a locked port has had no beacon for 32 consecutive matchings. -/
def execBeaconLossTimeout (p : Nat) (s : State) : Out :=
  .next (if (s.port p).lock = true ∧ 32 ≤ (s.port p).missed then s.unlock p else s)

/-! ## Received flits (R376, R383, R390, R432) -/

/-- The wavelengths of a restripe apply from the SEQ that its flit names on (R384). -/
def Port.applied (x : Port) (seq : Nat) : Port :=
  match x.rxPend with
  | some (n, m) => if n ≤ seq then { x with rxMask := m, rxPend := none } else x
  | none => x

/-- A data flit of a matching whose beacon has come, at a locked port (R373). One below the acknowledgement is discarded, and a gap or a failed tag sends
a nack (R383, R432); one in order is received, and a nack answers one that `keep` refuses. Without the port pair's key none is accepted (R390). -/
def State.flit (s : State) (p : Nat) (f : FlitMsg) (keep : State → Option State) : State :=
  let x := s.port p
  if x.lock = false ∨ x.heard = false ∨ s.keyed p = false then s
  else if f.tagOk = false then s.nackFrom p 0
  else
    let t := s.ackTo p f.ack
    let y := (t.port p).applied f.seq
    let u := t.setPort p y
    if f.seq < y.rxNext then u
    else if y.rxNext < f.seq then u.nackFrom p 0
    else
      let v := u.setPort p { y with rxNext := y.rxNext + 1 }
      (keep v).getD (v.nackFrom p 0)

/-- DATA_FLIT. -/
def execDataFlit (p : Nat) (f : FlitMsg) (s : State) : Out := .next (s.flit p f some)

/-- Flits that the relay buffer of a die, of 2 MiB, holds. -/
def relayRoom : Nat := 8192

/-- The ports that meet a target now send, the flits that they relay to it first (R371, R376). -/
def State.sendTo (s : State) (target : Nat) : State :=
  (List.range 32).foldl (fun (t : State) p => match (t.port p).meet (t.instanceOf p) with
    | some m => if m.peer = target then t.sendFlits p else t
    | none => t) s

/-- A relay flit is buffered for its meeting with the target, unless the die's buffer is full or no meeting comes within two rounds. -/
def State.buffer (s : State) (p target : Nat) : Option State :=
  let used := (s.relayBuf.filter fun e => e.port / 8 == p / 8).foldl (fun n e => n + e.n) 0
  if used < relayRoom ∧ (relayEnd s.ownTables target 0 1 s.fabricTime).isSome = true then
    let near := fun (e : RelayRun) => e.port == p && e.target == target && decide (s.rotorTime p < e.since + matchUnits)
    let t : State := { s with relayBuf := if s.relayBuf.any near then s.relayBuf.map fun e => if near e then { e with n := e.n + 1 } else e
      else s.relayBuf ++ [⟨p, target, 1, s.rotorTime p⟩] }
    some (t.sendTo target)
  else none

/-- RELAY_DATA_FLIT. -/
def execRelayDataFlit (p : Nat) (f : FlitMsg) (target : Nat) (s : State) : Out := .next (s.flit p f fun t => t.buffer p (target % 4096))

/-! ## Retraining (R386) -/

/-- PORT_RETRAIN: a write of RETRAIN retrains the port and clears DIS. -/
def execPortRetrain (p : Nat) (s : State) : Out :=
  .next (if s.mgmtOpen = true ∧ p < 32 then s.setPort p { s.port p with retrain := true, dis := false, fails := 0 } else s)

/-- One bit of the CRC-32 of IEEE 802.3. -/
def crcBit (c : BitVec 32) : BitVec 32 := if c.getLsbD 0 then (c >>> 1) ^^^ 0xEDB88320#32 else c >>> 1

/-- One byte of the CRC-32. -/
def crcByte (c : BitVec 32) (b : Byte) : BitVec 32 := crcBit (crcBit (crcBit (crcBit (crcBit (crcBit (crcBit (crcBit (c ^^^ b.setWidth 32))))))))

/-- The CRC-32 of IEEE 802.3 (R386). -/
def crc32 (l : List Byte) : BitVec 32 := ~~~ (l.foldl crcByte 0xFFFFFFFF#32)

/-- The 16 bytes of a state record: rate code, masks and lane map, in a layout that the manual leaves open (log entry 96). -/
def trainBytes (r : TrainRec) : List Byte :=
  natLe 4 (if r.rate then 1 else 0) ++ natLe 2 r.txUse.toNat ++ natLe 2 r.rxUse.toNat ++ natLe 8 r.lanes.toNat

/-- A lane map in ascending wavelength order over a mask: position k holds the k-th wavelength. -/
def laneMap (m : BitVec 16) : BitVec 64 :=
  BitVec.ofNat 64 (leNat16 ((List.range 16).filter fun w => m.getLsbD w))
where
  /-- Four-bit positions, the first lowest. -/
  leNat16 : List Nat → Nat
    | [] => 0
    | w :: r => w + 16 * leNat16 r

/-- What an attempt adopts: rate, transmit mask, receive mask and their lane maps. -/
structure Adopted where
  rate : Bool
  txm  : BitVec 16
  rxm  : BitVec 16
  txl  : BitVec 64
  rxl  : BitVec 64
  deriving DecidableEq, Repr

/-- The configuration that both ends adopt: records with equal digests are kept as exchanged, others give the lowest common one. -/
def adopt (mine peer : TrainRec) : Adopted :=
  if crc32 (trainBytes mine) = crc32 (trainBytes peer) then ⟨mine.rate, mine.txUse, mine.rxUse, mine.lanes, peer.lanes⟩
  else
    let tx := mine.txUse &&& peer.rxUse
    let rx := peer.txUse &&& mine.rxUse
    ⟨mine.rate || peer.rate, tx, rx, laneMap tx, laneMap rx⟩

/-- An attempt may be made in the matching in progress, instance `a`: the peer is live, no attempt has used the matching, and a retraining was called
for, or the entry waits for its training. -/
def Port.trains (x : Port) (a i : Nat) : Bool := x.lock && x.heard && !x.dis && x.idx == i && x.attempt != some a && (x.retrain || x.due.contains i)

/-- A retraining attempt (R386). The rate cap of R380 bounds the rate this package offers. After a success of a retraining that was called for, every
other entry is trained at its own next matching. -/
def State.train (s : State) (p i : Nat) (mine peer : TrainRec) (ok : Bool) : State :=
  let x := s.port p
  let a := s.instanceOf p
  if x.trains a i = false ∨ 32 ≤ p ∨ 32 ≤ i then s
  else if ok then
    let m := { mine with rate := mine.rate || !Config.rateFull }
    let c := adopt m peer
    let e := Tbl.getD x.ents i RotEnt.reset
    let below := c.rate || c.txm != 0xFFFF || c.rxm != 0xFFFF
    let t := s.setPort p { x with
      ents := Tbl.put RotEnt.reset x.ents i { e with rate := c.rate, txm := c.txm, rxm := c.rxm, txl := c.txl, rxl := c.rxl }
      txu := m.txUse, fails := 0, retrain := false, attempt := some a
      due := if x.retrain then (List.range 32).filter fun k => k != i else x.due.filter fun k => k != i }
    t.fabricEvent 0x102 p (place i 4 0 + place (if below then 1 else 0) 5 5 + place (x.fails + 1) 7 6)
      (c.txm.toNat + place c.rxm.toNat 31 16 + place (if c.rate then 1 else 0) 32 32)
  else
    let t := s.setPort p { x with fails := x.fails + 1, attempt := some a }
    if x.fails + 1 < 3 then t
    else
      let u := t.returnFlits p true
      (u.setPort p { u.port p with dis := true, retrain := false, due := [] }).fabricEvent 0x103 p 0 0

/-- RETRAIN_ATTEMPT. -/
def execRetrainAttempt (p i : Nat) (mine peer : TrainRec) (ok : Bool) (s : State) : Out := .next (s.train p i mine peer ok)

end Sys2Proof.Machine
end

