-- ==== Sys2Proof/Machine/Remote.lean ====
section
/-! DEFINITION. Transactions between packages: fabric windows (R380), the target's side and the sender's side of a message (R378, R381, R382),
key agreement (R388 to R390) and leases (R391, R392). -/

namespace Sys2Proof.Machine

/-! ## Fabric windows (R380) -/

/-- A fabric window entry. -/
def State.window (s : State) (i : Nat) : W64 × W64 × W64 := Tbl.getD s.fwin i (0, 0, 0)

/-- BASE, SRC, TPA, KEYID and the size in bytes of an entry. -/
structure Window where
  base : Nat
  src  : Nat
  tpa  : Nat
  key  : Nat
  rd   : Bool
  wr   : Bool
  en   : Bool
  size : Nat
  deriving DecidableEq, Repr

/-- The fields of an entry. -/
def windowOf (w : W64 × W64 × W64) : Window :=
  let a := w.1.toNat
  let b := w.2.1.toNat
  ⟨bits a 47 12 * 4096, bits a 59 48, bits b 47 12 * 4096, bits b 59 48, b.testBit 60, b.testBit 61, b.testBit 62, bits w.2.2.toNat 31 0 * 4096⟩

/-- An entry with one word written; reserved bits stay zero. -/
def writeWindow (w : W64 × W64 × W64) (word : Nat) (v : W64) : W64 × W64 × W64 :=
  match word with
  | 0 => (v &&& 0x0FFFFFFFFFFFF000#64, w.2.1, w.2.2)
  | 1 => (w.1, v &&& 0x7FFFFFFFFFFFF000#64, w.2.2)
  | _ => (w.1, w.2.1, v &&& 0xFFFFFFFF#64)

/-- An enabled entry breaks no rule of R380. -/
def State.windowOk (s : State) (i : Nat) (w : Window) : Bool :=
  (s.key w.key).owner.isSome && decide (w.tpa + w.size ≤ dataEnd) &&
    s.fwin.all fun e =>
      let o := windowOf e.2
      e.1 == i || !o.en || o.src != w.src || !(decide (w.base < o.base + o.size) && decide (o.base < w.base + w.size))

/-- The partition that owns a KeyID has its interface locked: the entries that name the KeyID are frozen (R397). -/
def State.frozenKey (s : State) (k : Nat) : Option Nat :=
  match (s.key k).owner with
  | some p => (match s.part p with
    | some q => if q.tdisp = .locked ∨ q.tdisp = .run then some p else none
    | none => none)
  | none => none

/-- A TDI moves to ERROR: rung 4 is applied, and no request is accepted (R397). -/
def State.toError (s : State) (p : Nat) : State := (s.resetPartition p 4).onPart p fun q => { q with tdisp := .error }

/-- FWIN_WRITE: a word of an entry, checked against the whole entry as it would stand. A change of an entry that names a locked TDI's KeyID, before
or after the write, moves that TDI to ERROR (R397). -/
def State.writeFwin (s : State) (i word : Nat) (v : W64) : State :=
  if s.mgmtOpen = false ∨ Config.fwinMax ≤ i ∨ 3 ≤ word then s
  else
    let o := s.window i
    let n := writeWindow o word v
    let w := windowOf n
    let locked := ((s.frozenKey (windowOf o).key).toList ++ (s.frozenKey w.key).toList).eraseDups
    if n = o then s
    else if locked ≠ [] then locked.foldl State.toError s
    else if w.en = true ∧ s.windowOk i w = false then s
    else { s with fwin := Tbl.put (0, 0, 0) s.fwin i n }

/-- FWIN_WRITE. -/
def execFwinWrite (i word : Nat) (v : W64) (s : State) : Out := .next (s.writeFwin i word v)

/-! ## The target (R378, R381, R382) -/

/-- A message count is accepted once, in the window of the latest 65,536 of its endpoint (R382). -/
def State.countOk (s : State) (src ep n : Nat) : Bool :=
  let mine := s.accepts.filter fun e => e.1 == src && e.2.1 == ep
  !(mine.any fun e => e.2.2 == n || decide (n + 65536 ≤ e.2.2))

/-- The accepted counts with one more; what falls below the window is forgotten. -/
def State.takeCount (s : State) (src ep n : Nat) : State :=
  { s with accepts := (src, ep, n) :: s.accepts.filter fun e => !(e.1 == src && e.2.1 == ep && decide (e.2.2 + 65536 ≤ n)) }

/-- A completion sets out for the sender of a message. -/
def State.reply (s : State) (r : RemoteReq) (access dropped poison failed : Bool) (data : List Byte) : State :=
  s.sendMsg false r.endpoint 0 r.src 0 (.answer r.count access dropped poison failed data)

/-- An operation needs the right to read a window, or the right to write it: an atomic needs the latter (R380). -/
def remoteReads (o : RemoteOp) : Bool :=
  match o with
  | .read _ => true
  | _ => false

/-- The bytes that an operation touches at the target. -/
def remoteBytes : RemoteOp → Nat
  | .read n => n
  | .write b => b.length
  | .atomic _ z _ _ => asBytes z
  | .xred _ _ b => b.length
  | .flagWord _ => 4
  | .groupFlag .. | .answer .. | .mgmt _ => 0

/-- A range cut at lines: addresses and lengths. -/
def lineCuts : Nat → Nat → Nat → List (Nat × Nat)
  | 0, _, _ => []
  | fuel + 1, a, n => if n = 0 then [] else let k := min n (64 - a % 64); (a, k) :: lineCuts fuel (a + k) (n - k)

/-- Where a block lies: the bytes that it has on the next page are at the fabric address `tail`. -/
def blockSpans (fia : Nat) (tail : Option Nat) : List (Nat × Nat) :=
  let k := 4096 - fia % 4096
  match tail with
  | some t => if k < 33 then [(fia, k), (t, 33 - k)] else [(fia, 33)]
  | none => [(fia, 33)]

/-- The requests that a message carries (R378), each with its fabric addresses and lengths: one for each line that it reads or writes, one for
each block of a reduction, or the one atomic or flag post. -/
def requestsOf (fia : Nat) (o : RemoteOp) : List (List (Nat × Nat) × RemoteOp) :=
  match o with
  | .read n => (lineCuts (n + 1) fia n).map fun e => ([e], .read e.2)
  | .write b => (lineCuts (b.length + 1) fia b.length).map fun e => ([e], .write ((b.drop (e.1 - fia)).take e.2))
  | .xred e5 tail b => (groupsOf 33 (b.length / 33) b).zipIdx.map fun e => (blockSpans (fia + 33 * e.2) tail, .xred e5 tail e.1)
  | .answer .. | .mgmt _ => []
  | _ => [([(fia, remoteBytes o)], o)]

/-- A message is one of R375 and R378: at most 4 KiB of data, and an atomic or a flag word at natural alignment. -/
def remoteOk (fia : Nat) (o : RemoteOp) : Bool :=
  match o with
  | .read n => decide (1 ≤ n ∧ n ≤ 4096)
  | .write b => decide (1 ≤ b.length ∧ b.length ≤ 4096)
  | .atomic _ z _ _ => fia % asBytes z == 0
  | .xred _ _ b => decide (33 ≤ b.length ∧ b.length ≤ 4096) && b.length % 33 == 0
  | .flagWord _ => fia % 4 == 0
  | .groupFlag .. => true
  | .answer .. | .mgmt _ => false

/-- The bytes at some places. -/
def State.readAt (s : State) (l : List (Nat × Nat)) : List Byte := l.flatMap fun e => Mem.readN s.mem e.1 e.2

/-- Bytes written at some places. -/
def State.putAt (s : State) (l : List (Nat × Nat)) (b : List Byte) : State :=
  (l.foldl (fun (r : State × List Byte) e => (r.1.put e.1 (r.2.take e.2), r.2.drop e.2)) (s, b)).1

/-- The home slice performs a remote request on plaintext at its places, of which only a block can have two: the state, whether a flag post was
dropped, and the data returned. -/
def State.performRemote (s : State) (owner : Nat) (l : List (Nat × Nat)) (o : RemoteOp) : State × Bool × List Byte :=
  let pa := (l.head?.map Prod.fst).getD 0
  match o with
  | .read n => (s, false, Mem.readN s.mem pa n)
  | .write b => (s.store none pa b, false, [])
  | .atomic op z x e =>
    let old := leNat (Mem.readN s.mem pa (asBytes z))
    (s.put pa (natLe (asBytes z) (atomNew op z old x.toNat e.toNat)), false, natLe (asBytes z) old)
  | .xred e5 _ b => (s.putAt l (natLe 33 (xredCombine e5 (leNat b) (leNat (s.readAt l)))), false, [])
  | .flagWord c => (s.put pa (natLe 4 ((leNat (Mem.readN s.mem pa 4) + c) % 2 ^ 32)), false, [])
  | .groupFlag fd0 c =>
    let p : Post := ⟨0, owner, bits fd0.toNat 37 14, bits fd0.toNat 8 0, bits fd0.toNat 13 9, c, none, none, none⟩
    match s.postGroup p with
    | some g => if (s.grp g).part = owner then (s.addFlag g p.flag c, false, []) else (s, true, [])
    | none => (s, true, [])
  | .answer .. | .mgmt _ => (s, false, [])

/-- What the requests of a message have come to so far: whether one was answered ACCESS, dropped its flag post or met poison, and the data. -/
structure Served where
  access  : Bool
  dropped : Bool
  poison  : Bool
  data    : List Byte
  deriving DecidableEq, Repr

/-- The partition and the place that the windows give a span of fabric addresses for an operation, if every check of R381 passes. -/
def State.windowPlace (s : State) (r : RemoteReq) (o : RemoteOp) (fia n : Nat) : Option (Nat × Nat) :=
  let fits := fun (w : Window) => w.en && w.src == r.src && decide (w.base ≤ fia) && decide (fia < w.base + w.size)
  let held := fun (p : Nat) => ((s.part p).map fun q => q.domains.any fun d => d.1 == r.tdid).getD false
  match (s.fwin.map fun e => windowOf e.2).find? fits with
  | none => none
  | some w =>
    match (s.key w.key).owner with
    | none => none
    | some p =>
      if held p = false ∨ (if remoteReads o then w.rd else w.wr) = false ∨ w.base + w.size < fia + n then none
      else some (p, w.key * 2 ^ 48 + w.tpa + (fia - w.base))

/-- One request of a message is matched against the windows, checked, and performed (R381). A line that is being rewritten is finished first
(R324). -/
def State.serve (s : State) (r : RemoteReq) (k : Served) (spans : List (Nat × Nat)) (o : RemoteOp) : State × Served :=
  let l := spans.filterMap fun e => (s.windowPlace r o e.1 e.2).map fun w => (w.1, w.2, e.2)
  match l.head? with
  | none => (s, { k with access := true })
  | some (p, pa, _) =>
    if l.length ≠ spans.length then (s, { k with access := true })
    else match l.find? fun e => decide (0 < e.2.2) && s.poisonedIn e.2.1 e.2.2 with
      | some e => (s.poisonRecord e.1 e.2.1, { k with poison := true })
      | none =>
        let t := ((l.flatMap fun e => linesIn e.2.1 e.2.2).foldl (fun (t : State) n => t.settleLine n (!remoteReads o)) s).miss 32 (sliceOf (pageOf pa)) p r.cls
        let u := t.performRemote p (l.map Prod.snd) o
        (u.1, { k with dropped := k.dropped || u.2.1, data := k.data ++ u.2.2 })

/-- A message of a command that posts a flag here has been performed: with the last of them the post is due (R382). -/
def State.farDone (s : State) (r : RemoteReq) (cmd : Nat) : Option PeerPost × State :=
  let mine := fun (e : FarCmd) => e.src == r.src && e.ep == r.endpoint && e.cmd == cmd
  let e := (s.far.find? mine).getD ⟨r.src, r.endpoint, cmd, [], none⟩
  let n : FarCmd := { e with done := if e.done.contains r.seq then e.done else r.seq :: e.done, post := e.post.or r.post }
  let rest := s.far.filter fun e => !mine e
  let all := match n.post with
    | some (.word k _ _) | some (.group k _ _) => decide (k ≤ n.done.length)
    | none => false
  if all then (n.post, { s with far := rest }) else (none, { s with far := rest ++ [n] })

/-- What a performed message leads to: the flag post that its command carries, once all of the command is performed (R382). -/
def State.farPost (s : State) (r : RemoteReq) (k : Served) : State × Served :=
  match if k.access || k.poison then none else r.cmd with
  | none => (s, k)
  | some c =>
    let t := s.farDone r c
    match t.1 with
    | some (.word _ fia n) => t.2.serve r k [(fia, 4)] (.flagWord n)
    | some (.group _ fd0 n) => t.2.serve r k [(r.fia, 0)] (.groupFlag fd0 n)
    | none => (t.2, k)

/-- FABRIC_REQUEST_RECEIVE (R381, R382): a message whose tag fails is discarded, and the sender is told, whose group it ends (R316); of one whose count
is new, each request is served, and a command's flag posted after the last; one completion answers it. -/
def State.receive (s : State) (r : RemoteReq) : State :=
  if r.tagOk = false then (s.toLantern (.fabric r.src r.endpoint)).reply r false false false true []
  else if s.countOk r.src r.endpoint r.count = false ∨ remoteOk r.fia r.op = false then s
  else
    let u := (requestsOf r.fia r.op).foldl (fun (u : State × Served) e => u.1.serve r u.2 e.1 e.2)
      (s.takeCount r.src r.endpoint r.count, ⟨false, false, false, []⟩)
    let v := u.1.farPost r u.2
    v.1.reply r v.2.access v.2.dropped v.2.poison false v.2.data

/-- FABRIC_REQUEST_RECEIVE. -/
def execFabricRequestReceive (r : RemoteReq) (s : State) : Out := .next (s.receive r)

/-! ## The sender (R381, R382) -/

/-- The virtual address of a message of a command. -/
def Cmd.msgVa (c : Cmd) (m : Msg) : Nat :=
  match c.kind, m.op with
  | .cpy src _ _, .read _ => src + m.piece
  | .cpy _ dst _, .write _ => dst + m.piece
  | .rst a _, .write _ => a + m.piece
  | .xred _ _ dst _, .xred .. => dst + 33 * m.piece
  | .unseal _ _ _ ck _, .read _ => ck + c.data.length
  | k, .flagWord _ => if flagKind c.fd1 = 2 then bits c.fd0.toNat 47 0 else k.dest
  | k, _ => k.dest

/-- The rights that a message's operation used. -/
def Msg.rights (m : Msg) : Nat :=
  match m.op with
  | .read _ => 0
  | .atomic .. | .xred .. => 2
  | _ => 1

/-- An ACCESS answer is a stage-2 fault of the access (R381). -/
def State.accessFault (s : State) (m : Msg) : State :=
  let t := { s with msgs := s.msgs.filter fun e => e.id != m.id }
  if m.isCmd then (match t.cmd m.owner with
    | some c =>
      let f := t.addFault true c.part c.gtag c.strand (c.msgVa m) m.rights 2 true (true, c.id)
      f.2.onCmd c.id fun c => { c with fault := some f.1 }
    | none => t)
  else match t.req m.owner with
    | some r =>
      let va := ((r.pieces[m.piece]?).map Piece.va).getD 0
      let f := t.addFault true r.part r.gtag r.strand va (accCode r.needs.1 r.needs.2) r.src true (false, r.id)
      (f.2.onReq r.id fun q => { q with fault := some f.1 }).markLand r.strand r.id true
    | none => t

/-- A completion that is no ACCESS answer: of the writes of a command, the last of which may report that the target dropped its flag post (R218). -/
def State.completed (s : State) (m : Msg) (a : RemoteAnswer) : State :=
  let t := { s with msgs := s.msgs.filter fun e => e.id != m.id }
  let post := t.posts.find? fun p => p.cmd == some m.owner
  if m.isCmd = false then t.pieceDone m.owner m.piece a.data
  else match m.op with
    | .read _ | .atomic .. =>
      { s with msgs := s.msgs.map fun e => if e.id = m.id then { e with acked := true, op := .write (a.data.map some) } else e }
    | .flagWord _ | .groupFlag .. =>
      (match post, t.cmd m.owner with
      | some p, some c => (if a.dropped then t.dropPost c c.fd0 c.fd1 else t).endPost p
      | _, _ => t)
    | _ => if a.dropped then t.onCmd m.owner fun c => { c with net := { c.net with carried := c.net.carried.map fun _ => true } } else t

/-- The group and partition that a message serves. -/
def State.msgGroup (s : State) (m : Msg) : Nat × Nat :=
  if m.isCmd then ((s.cmd m.owner).map fun c => (c.gtag, c.part)).getD (0, 0) else ((s.req m.owner).map fun r => (r.gtag, r.part)).getD (0, 0)

/-- A lease that is being evicted and whose window has no request outstanding gives LACK, and is over (R392). -/
def State.sendLacks (s : State) : State :=
  let busy := fun (l : Lease) => s.msgs.any fun m => m.peer == l.peer && !m.acked && decide (l.fwin ≤ m.fia) && decide (m.fia < l.fwin + 4096 * l.pages) &&
    (match m.op with
      | .answer .. | .mgmt _ => false
      | _ => true)
  let waiting := fun (l : Lease) => !l.lender && l.state == 1 && !busy l
  (s.leases.filter waiting).foldl (fun (t : State) l => t.sendMgmt l.peer (.lack l.id)) { s with leases := s.leases.filter fun l => !waiting l }

/-- FABRIC_COMPLETION: the completion of a message, by the message's number; duplicates are ignored (R382). One whose tag fails, or that reports
that the message's tag failed or that it met poison, ends the group (R316, R322). -/
def execFabricCompletion (a : RemoteAnswer) (s : State) : Out :=
  .next (match s.msgs.find? fun m => m.id == a.target && m.isCmd == a.isCmd && !m.acked with
    | none => s
    | some m =>
      let drop := { s with msgs := s.msgs.filter fun e => e.id != m.id }
      match m.op with
      | .answer .. | .mgmt _ => s
      | _ =>
        (if a.tagOk = false ∨ a.failed = true then drop.badMessage (s.msgGroup m).1 (s.msgGroup m).2
        else if a.poison then drop.contextReset (s.msgGroup m).1 .integrity
        else if a.access then s.accessFault m
        else s.completed m a).sendLacks)

/-! ## Key agreement (R388 to R390) -/

/-- Cycles in a millisecond. -/
def milli : Nat := 1250000

/-- A change of a partition's key-agreement unit. -/
def State.onTdx (s : State) (p : Nat) (f : Tdx → Tdx) : State := s.onPart p fun q => { q with tdx := f q.tdx }

/-- An agreement ends: STATUS is written, BUSY clears, and TD_AGREEMENT is raised on both rings (R387, R388). An armed acceptance stays armed. -/
def State.endTdx (s : State) (p : Nat) (td : W64) (peer status : Nat) : State :=
  let t := s.onTdx p fun x => { x with busy := false, status := status, step := 0, log := [], secret := [] }
  (t.fabricEvent 0x105 td.toNat peer status).event p 0x105 noStrand td.toNat peer status

/-- The trust domains that a partition holds. -/
def Partition.tds (q : Partition) : List W64 := (q.domains.map fun d => d.1).eraseDups

/-- A further trust domain would be a seventeenth (R388). -/
def Partition.atLimit (q : Partition) (td : W64) : Bool := !q.tds.contains td && decide (16 ≤ q.tds.length)

/-- The signature counter has run out (R390). -/
def State.exhausted (s : State) : Bool := decide (2 ^ 20 ≤ s.xmss)

/-- A signature under the next index of the counter (R390). -/
def State.sign (s : State) (b : List Byte) : List Byte × State := (Config.xmssSign s.xmss b, { s with xmss := s.xmss + 1 })

/-- PEER and PPART of a TDXCTL write. -/
def tdxPeer (v : W64) : Nat × Nat := (bits v.toNat 27 16, bits v.toNat 31 28)

/-- A message of an agreement goes to the peer (R389): step, own partition or port, the peer's, trust domain, contents, signature. -/
def State.sendStep (s : State) (peer step source part : Nat) (td : W64) (body sign : List Byte) : State :=
  s.sendMgmt peer (.agreement step source part td body sign none)

/-- The peer is told that an agreement has ended with a STATUS: the message takes the place of step `step`. -/
def State.sendEnd (s : State) (peer step source part : Nat) (td : W64) (status : Nat) : State :=
  s.sendMgmt peer (.agreement step source part td [] [] (some status))

/-- Step 2 of the accepter from step 1 (R389): its contents, its signature, its draw number and the transcript. -/
def State.makeStep2 (s : State) (one : List Byte) : (List Byte × List Byte × Nat × List Byte) × State :=
  let f := s.fresh
  let mine := natLe 32 (Config.nonce f.1).toNat ++ Config.identityKey ++ Config.kemPublic f.1
  let g := f.2.sign (one ++ mine)
  ((mine, g.1, f.1, one ++ mine ++ g.1), g.2)

/-- H of R389, over steps 1 and 2 and the ciphertext of step 3 (log entry 94). -/
def agreeHash (log : List Byte) : List Byte := shake256 64 log

/-- KW and KC: the 64 bytes of SHAKE256(shared secret ‖ H ‖ "VZ9-TDX"). -/
def agreeKeys (secret log : List Byte) : BitVec 256 × List Byte :=
  let k := shake256 64 (secret ++ agreeHash log ++ [0x56, 0x5A, 0x39, 0x2D, 0x54, 0x44, 0x58])
  (BitVec.ofNat 256 (beNat (k.take 32)), k.drop 32)

/-- The confirmation: the first 32 bytes of SHAKE256(KC ‖ H). -/
def confirmation (secret log : List Byte) : List Byte := shake256 32 ((agreeKeys secret log).2 ++ agreeHash log)

/-- The encapsulation key that step 2 holds, behind a nonce of 32 bytes and a public key of 68. -/
def kemOf (two : List Byte) : List Byte := two.drop 100

/-- Bytes of the ciphertext of an encapsulation. -/
def ciphertextBytes : Nat := 1568

/-- Step 3 of the initiator: its contents, its signature, the transcript and the shared secret. A tenant's root key goes wrapped under KW; a
port pair wraps none (R390). -/
def State.makeStep3 (s : State) (draw : Nat) (log : List Byte) (m : TdxMsg) (root : Option (BitVec 256)) :
    (List Byte × List Byte × List Byte × List Byte) × State :=
  let e := Config.kemEncap draw (kemOf m.body)
  let l := log ++ m.body ++ m.sign ++ e.1
  let body := e.1 ++ match root with
    | some k => keyWrap (agreeKeys e.2 l).1 (natBe 32 k.toNat)
    | none => []
  let g := s.sign (log ++ m.body ++ m.sign ++ body)
  ((body, g.1, l, e.2), g.2)

/-- What the accepter takes from step 3: the transcript and the shared secret. -/
def takeStep3 (draw : Nat) (log : List Byte) (m : TdxMsg) : List Byte × List Byte :=
  (log ++ m.body.take ciphertextBytes, Config.kemDecap draw (m.body.take ciphertextBytes))

/-- TDX_INITIATE: an initiation starts; one that cannot start ends at once. Without the trust domain its STATUS is REFUSED or AUTH. -/
def State.initiate (s : State) (p : Nat) (v : W64) : State :=
  match s.tdi p with
  | none => s
  | some q =>
    let td := q.tdx.tdid
    let n := tdxPeer v
    if v.toNat.testBit 0 = false ∨ v.toNat.testBit 1 = true ∨ q.tdx.busy = true then s
    else if s.exhausted then s.endTdx p td n.1 4
    else if q.atLimit td then s.endTdx p td n.1 5
    else if td = 0 ∨ q.tds.contains td = false then let c := s.choose 2; c.2.endTdx p td n.1 (c.1 + 1)
    else
      let f := s.fresh
      let one := step1Bytes td n.2 f.1
      (f.2.onTdx p fun x =>
        { x with busy := true, goal := td, peer := n.1, ppart := n.2, step := 1, draw := f.1, log := one, secret := [], since := s.clk }).sendStep
          n.1 1 p n.2 td one []

/-- TDX_INITIATE. -/
def execTdxInitiate (p : Nat) (v : W64) (s : State) : Out := .next (s.initiate p v)

/-- TDX_ACCEPT_ARM. -/
def execTdxAcceptArm (p : Nat) (v : W64) (s : State) : Out :=
  .next (s.onTdi p fun q =>
    if v.toNat.testBit 0 = true ∧ v.toNat.testBit 1 = true ∧ q.tdx.busy = false then
      { q with tdx := { q.tdx with armed := some ((tdxPeer v).1, (tdxPeer v).2, q.tdx.tdid, s.clk) } }
    else q)

/-- TDX_ACCEPT_EXPIRY: an armed acceptance lapses after 1 ms. -/
def execTdxAcceptExpiry (p : Nat) (s : State) : Out :=
  .next (s.onTdx p fun x => match x.armed with
    | some a => if a.2.2.2 + milli ≤ s.clk then { x with armed := none } else x
    | none => x)

/-- TDX_AGREEMENT_TIMEOUT: an agreement that has not ended within 1 ms. -/
def execTdxAgreementTimeout (p : Nat) (s : State) : Out :=
  .next (match s.part p with
    | some q => if q.tdx.busy = true ∧ q.tdx.since + milli ≤ s.clk then s.endTdx p q.tdx.goal q.tdx.peer 3 else s
    | none => s)

/-! ### The agreement of a port pair (R390) -/

/-- The run of a port pair at a step. -/
def State.linkRun (s : State) (peer : Nat) (m : TdxMsg) (step : Nat) : Option LinkRun :=
  s.linkRuns.find? fun r => r.port == m.part && r.peer == peer && r.pport == m.source && r.step == step

/-- The run of a port pair ends. -/
def State.dropRun (s : State) (peer : Nat) (m : TdxMsg) : State :=
  { s with linkRuns := s.linkRuns.filter fun r => !(r.port == m.part && r.peer == peer && r.pport == m.source) }

/-- The port pair has its link key: KW of its agreement. What the port holds for the peer may go out. -/
def State.setLinkKey (s : State) (peer : Nat) (m : TdxMsg) (k : BitVec 256) : State :=
  { s.dropRun peer m with
    linkKeys := (s.linkKeys.filter fun (e : LinkKey) => !(e.port == m.part && e.peer == peer && e.pport == m.source)) ++ [LinkKey.mk m.part peer m.source k] }.sendFlits
      m.part

/-- The run of a port pair fails, and the peer is told. -/
def State.failLink (s : State) (peer : Nat) (m : TdxMsg) (step status : Nat) : State := (s.dropRun peer m).sendEnd peer step m.part m.source 0 status

/-- A message of a step passes its checks (R389): its signature is right, and the identity key that steps 1 and 2 hold is the one that the sender's
certificate carries. -/
def passes (m : TdxMsg) (peer step : Nat) : Bool :=
  let known := fun (place : Nat) => (m.body.drop place).take 68 == Config.certifiedKey peer
  m.checked && match step with
    | 1 => known 41
    | 2 => known 32
    | _ => true

/-- A message for the run of a port pair goes on, or ends the run. -/
def State.onLink (s : State) (peer : Nat) (m : TdxMsg) (step back : Nat) (k : LinkRun → State) : State :=
  match s.linkRun peer m step with
  | none => s
  | some r => if m.verdict.isSome then s.dropRun peer m else if passes m peer (step + 1) then k r else s.failLink peer m back 2

/-- Step 1 of a port pair: of two initiations that cross, the one from the lower package number proceeds. -/
def State.linkStep1 (s : State) (peer : Nat) (m : TdxMsg) : State :=
  if (s.linkRun peer m 1).isSome ∧ Config.packageNumber.toNat < peer then s
  else if s.exhausted then s.failLink peer m 2 4
  else if passes m peer 1 = false then s.failLink peer m 2 2
  else
    let q := s.makeStep2 m.body
    let r : LinkRun := ⟨m.part, peer, m.source, 2, q.1.2.2.1, q.1.2.2.2, [], s.clk⟩
    { q.2.dropRun peer m with linkRuns := (q.2.dropRun peer m).linkRuns ++ [r] }.sendStep peer 2 m.part m.source 0 q.1.1 q.1.2.1

/-- Step 2 of a port pair. -/
def State.linkStep2 (s : State) (peer : Nat) (m : TdxMsg) : State :=
  s.onLink peer m 1 3 fun r =>
    if s.exhausted then s.failLink peer m 3 4
    else
      let q := s.makeStep3 r.draw r.log m none
      let n : LinkRun := { r with step := 3, log := q.1.2.2.1, secret := q.1.2.2.2 }
      { q.2.dropRun peer m with linkRuns := (q.2.dropRun peer m).linkRuns ++ [n] }.sendStep peer 3 m.part m.source 0 q.1.1 q.1.2.1

/-- Step 3 of a port pair: the accepter has the key. -/
def State.linkStep3 (s : State) (peer : Nat) (m : TdxMsg) : State :=
  s.onLink peer m 2 4 fun r =>
    let k := takeStep3 r.draw r.log m
    (s.setLinkKey peer m (agreeKeys k.2 k.1).1).sendStep peer 4 m.part m.source 0 (confirmation k.2 k.1) []

/-- Step 4 of a port pair: the initiator has the key, if the confirmation is right. -/
def State.linkStep4 (s : State) (peer : Nat) (m : TdxMsg) : State :=
  s.onLink peer m 3 3 fun r =>
    if m.body = confirmation r.secret r.log then s.setLinkKey peer m (agreeKeys r.secret r.log).1 else s.failLink peer m 3 2

/-! ### The agreement of a tenant's partitions -/

/-- An agreement ends here with a STATUS, and the peer is told in place of step `step`. -/
def State.failTdx (s : State) (peer : Nat) (m : TdxMsg) (step status : Nat) : State :=
  (s.endTdx m.part m.tdid peer status).sendEnd peer step m.part m.source m.tdid status

/-- An initiation toward a peer of a trust domain is in its first step. -/
def Tdx.crosses (x : Tdx) (peer : Nat) (td : W64) : Bool := x.busy && x.step == 1 && x.peer == peer && x.goal == td

/-- The initiation of a partition gives way to a peer's of the same trust domain that comes from a lower package number (R390). -/
def Tdx.gives (x : Tdx) (peer : Nat) (td : W64) : Bool := x.crosses peer td && decide (peer < Config.packageNumber.toNat)

/-- An armed acceptance matches an initiation (R388). -/
def Tdx.accepts (x : Tdx) (peer part : Nat) (td : W64) (now : Nat) : Bool :=
  match x.armed with
  | some (a, b, c, t) => !x.busy && a == peer && b == part && c == td && decide (now < t + milli)
  | none => false

/-- KEY_AGREEMENT_STEP1: the accepter takes an initiation that its armed acceptance matches, and answers with step 2. One that crosses an
initiation of this partition is dropped where this package has the lower number; any other is refused. -/
def State.step1 (s : State) (peer : Nat) (m : TdxMsg) : State :=
  if m.tdid = 0 then s.linkStep1 peer m
  else match s.part m.part with
    | none => s.sendEnd peer 2 m.part m.source m.tdid 1
    | some q =>
      if q.tdx.accepts peer m.source m.tdid s.clk ∨ q.tdx.gives peer m.tdid = true then
        if s.exhausted then s.failTdx peer m 2 4
        else if q.atLimit m.tdid then s.failTdx peer m 2 5
        else if passes m peer 1 = false then s.failTdx peer m 2 2
        else
          let r := s.makeStep2 m.body
          (r.2.onTdx m.part fun x =>
            { x with busy := true, goal := m.tdid, peer := peer, ppart := m.source, step := 2, draw := r.1.2.2.1, log := r.1.2.2.2, secret := []
                     since := s.clk }).sendStep peer 2 m.part m.source m.tdid r.1.1 r.1.2.1
      else if q.tdx.crosses peer m.tdid then s
      else s.sendEnd peer 2 m.part m.source m.tdid 1

/-- KEY_AGREEMENT_STEP1. -/
def execKeyAgreementStep1 (peer : Nat) (m : TdxMsg) (s : State) : Out := .next (s.step1 peer m)

/-- The agreement in progress that a message belongs to, at a step. -/
def State.inStep (s : State) (peer : Nat) (m : TdxMsg) (n : Nat) : Option Tdx :=
  match s.part m.part with
  | some q => if q.tdx.busy = true ∧ q.tdx.step = n ∧ q.tdx.peer = peer ∧ q.tdx.goal = m.tdid then some q.tdx else none
  | none => none

/-- A message of an agreement goes on, or ends it: with the STATUS that the sender gives, or with AUTH at both ends where a check fails (R389). -/
def State.onStep (s : State) (peer : Nat) (m : TdxMsg) (n back : Nat) (k : Tdx → State) : State :=
  match s.inStep peer m n with
  | none => s
  | some x =>
    match m.verdict with
    | some st => s.endTdx m.part m.tdid peer st
    | none => if passes m peer (n + 1) then k x else s.failTdx peer m back 2

/-- KEY_AGREEMENT_STEP2: the initiator encapsulates, wraps its root key and answers with step 3. -/
def execKeyAgreementStep2 (peer : Nat) (m : TdxMsg) (s : State) : Out :=
  .next (if m.tdid = 0 then s.linkStep2 peer m
    else s.onStep peer m 1 3 fun x =>
      if s.exhausted then s.failTdx peer m 3 4
      else
        let root := ((s.part m.part).bind fun q => q.domains.find? fun d => d.1 == m.tdid).map fun d => d.2.1
        let q := s.makeStep3 x.draw x.log m (some (root.getD 0))
        (q.2.onTdx m.part fun x => { x with step := 3, log := q.1.2.2.1, secret := q.1.2.2.2 }).sendStep peer 3 m.part m.source m.tdid q.1.1 q.1.2.1)

/-- A trust domain of a partition extends to a peer. -/
def Partition.extendTo (q : Partition) (td : W64) (key : BitVec 256) (peer : Nat) : Partition :=
  if q.domains.any fun d => d.1 == td && d.2.2 == some peer then q else { q with domains := q.domains ++ [(td, key, some peer)] }

/-- The accepter's agreement has ended well, and its confirmation turns out wrong at the initiator: AUTH at both ends (R389). -/
def State.lateAuth (s : State) (peer : Nat) (m : TdxMsg) : State :=
  match s.part m.part with
  | none => s
  | some q =>
    if q.tdx.busy = false ∧ q.tdx.step = 4 ∧ q.tdx.peer = peer ∧ q.tdx.goal = m.tdid ∧ m.verdict.isSome = true then
      (s.onPart m.part fun q => { q with domains := q.domains.filter fun d => !(d.1 == m.tdid && d.2.2 == some peer) }).endTdx m.part m.tdid peer
        (m.verdict.getD 2)
    else s

/-- KEY_AGREEMENT_STEP3: the accepter unwraps the root key; its vault takes it, it confirms, and the agreement ends there. -/
def execKeyAgreementStep3 (peer : Nat) (m : TdxMsg) (s : State) : Out :=
  .next (if m.tdid = 0 then s.linkStep3 peer m
    else if (s.inStep peer m 2).isNone then s.lateAuth peer m
    else s.onStep peer m 2 4 fun x =>
      let k := takeStep3 x.draw x.log m
      match keyUnwrap (agreeKeys k.2 k.1).1 (m.body.drop ciphertextBytes) with
      | none => s.failTdx peer m 4 2
      | some root =>
        let t := (s.onPart m.part fun q => q.extendTo m.tdid (BitVec.ofNat 256 (beNat root)) peer).endTdx m.part m.tdid peer 0
        (t.onTdx m.part fun x => { x with step := 4 }).sendStep peer 4 m.part m.source m.tdid (confirmation k.2 k.1) [])

/-- KEY_AGREEMENT_STEP4: the confirmation; where it is right, the agreement ends at the initiator, and its trust domain extends to the peer. -/
def execKeyAgreementStep4 (peer : Nat) (m : TdxMsg) (s : State) : Out :=
  .next (if m.tdid = 0 then s.linkStep4 peer m
    else s.onStep peer m 3 3 fun x =>
      if m.body ≠ confirmation x.secret x.log then s.failTdx peer m 3 2
      else
        (s.onPart m.part fun q => match q.domains.find? fun d => d.1 == m.tdid with
          | some d => q.extendTo m.tdid d.2.1 peer
          | none => q).endTdx m.part m.tdid peer 0)

/-! ## Leases (R230, R231, R391, R392) -/

/-- The windows that a lender's leases take of its pool: first page and pages. -/
def State.lent (s : State) : List (Nat × Nat) :=
  (s.leases.filter fun l => l.lender && decide (l.state < 2)).map fun l => (l.base / 4096, l.pages)

/-- The first place in the pool that no lease takes: at its start, or behind a lease. -/
def State.poolPlace (s : State) (n : Nat) : Option Nat :=
  let p := Config.lendingPool
  (p.1 :: s.lent.map fun e => e.1 + e.2).find? fun a =>
    decide (p.1 ≤ a) && decide (a + n ≤ p.1 + p.2) && s.lent.all fun e => !meets a n e.1 e.2

/-- A fabric address from which a source's enabled windows leave room: 0, or the end of one. -/
def State.freeFia (s : State) (src n : Nat) : Option Nat :=
  let o := (s.fwin.map fun e => windowOf e.2).filter fun w => w.en && w.src == src
  (0 :: o.map fun w => w.base + w.size).find? fun a => decide (a + n ≤ 2 ^ 48) && o.all fun w => !meets a n w.base w.size

/-- A KeyID that no partition owns. -/
def State.freeKey (s : State) : Option Nat := (List.range 4095).map (· + 1) |>.find? fun k => (s.key k).owner.isNone

/-- A KeyID goes to an owner, under which none of its pages has been written (R233). -/
def State.giveKey (s : State) (k : Nat) (p : Option Nat) : State :=
  { s with
    keys := Tbl.put ⟨none, 0, 0⟩ s.keys k { s.key k with owner := p, lag := 0 }
    pages := s.pages.filter fun e => keyOf e.1 != k
    rewrites := s.rewrites.filter fun e => keyOf e.1 != k }

/-- The pool's partition may use a KeyID of a trust domain: it holds the domain (R381, R391). -/
def State.poolHolds (s : State) (td : W64) : Bool := ((s.part Config.poolPartition).map fun q => q.tds.contains td).getD false

/-- LEASE_REQUEST (R391): the lender grants a lease where the pool has room, the borrower's trust domain extends to it and a lease KeyID
can be assigned to the pool's partition; it installs the window. The answer goes to the borrower, with the fabric address. -/
def State.lend' (s : State) (peer cmd : Nat) (td : W64) (bytes : Nat) : State :=
  let answer := fun (t : State) (id st fia : Nat) => t.sendMgmt peer (.leaseAnswer cmd st id fia)
  let n := bytes / 4096
  let extended := s.parts.any fun e => e.2.domains.any fun d => d.1 == td && d.2.2 == some peer
  let entry := (List.range Config.fwinMax).find? fun i => (windowOf (s.window i)).en == false
  if Config.leaseForbidden peer td then answer s 0 2 0
  else if extended = false ∨ s.poolHolds td = false then answer s 0 1 0
  else match s.poolPlace n, s.freeKey, entry, s.freeFia peer bytes with
    | some page, some k, some i, some fia =>
      let w0 : W64 := BitVec.ofNat 64 (place (fia / 4096) 47 12 + place peer 59 48)
      let w1 : W64 := BitVec.ofNat 64 (place page 47 12 + place k 59 48 + place 7 62 60)
      let f := (s.giveKey k (some Config.poolPartition)).fresh
      answer { f.2 with
        fwin := Tbl.insert s.fwin i (w0, w1, BitVec.ofNat 64 n)
        leases := s.leases ++ [⟨f.1, true, peer, Config.poolPartition, n, 4096 * page, i, none, 0, 0⟩] } f.1 0 fia
    | _, _, _, _ => answer s 0 1 0

/-- LEASE_REQUEST. -/
def execLeaseRequest (e : PeerCmd) (td : W64) (bytes : Nat) (s : State) : Out := .next (s.lend' e.peer e.cmd td bytes)

/-- A LEASE that waits for its answer. -/
def State.leaseWaiting (s : State) (id : Nat) : Option (Cmd × Nat × Nat × Nat) :=
  (s.cmd id).bind fun c => match c.kind with
    | .lease peer size window _ =>
      if c.accepted.isSome ∧ c.phase ≠ recording ∧ c.written = false ∧ c.fault.isNone = true then some (c, peer, size, window) else none
    | _ => none

/-- The borrower's side of an answer (R230): on a grant the window is mapped before the status word is written; then the flag is posted. -/
def State.leaseAnswered (s : State) (id st lid fia : Nat) : State :=
  match s.leaseWaiting id with
  | none => s
  | some (c, peer, size, window) =>
    let t := if st = 0 then { s with leases := s.leases ++ [⟨lid, false, peer, c.part, size / 4096, window, fia, some id, 0, 0⟩] } else s
    t.leaseEnd c (if st = 0 then lid else 0) st

/-- LEASE_ANSWER. -/
def execLeaseAnswer (id st lid fia : Nat) (s : State) : Out := .next (s.leaseAnswered id st lid fia)

/-- LEASE_ANSWER_TIMEOUT (R391): no answer within 256 µs. -/
def execLeaseAnswerTimeout (id : Nat) (s : State) : Out :=
  .next (match s.leaseWaiting id with
    | some (c, _) => if (c.accepted.map fun t => decide (t + 320000 ≤ s.clk)).getD false then s.leaseAnswered id 3 0 0 else s
    | none => s)

/-- LEVICT at the borrower (R392): it is reported once, and the window's translations go; once every request to the window has been answered, LACK is
sent and the lease is over. -/
def State.evict (s : State) (peer id : Nat) : State :=
  let mine := fun (l : Lease) => l.id == id && !l.lender && l.peer == peer && l.state == 0
  match s.leases.find? mine with
  | none => s
  | some l =>
    let t := (s.event l.part 6 noStrand id l.base 0).dropTrans
      (fun t => t.part == l.part && t.pa.fab && t.pa.hi == peer && meets t.pa.addr (2 ^ t.span) l.fwin (4096 * l.pages)) fun _ => false
    { t with leases := t.leases.map fun m => if mine m then { m with state := 1 } else m }.sendLacks

/-- LEVICT. -/
def execLevict (peer id : Nat) (s : State) : Out := .next (s.evict peer id)

/-- The lender ends a lease (R392): the window is disabled, LEASE_END is raised, its pages are zeroed under new major counters and return
to the pool. -/
def State.endLease (s : State) (l : Lease) (st : Nat) : State :=
  let w := s.window l.fwin
  let k := (windowOf w).key
  let t := { s with
    fwin := Tbl.put (0, 0, 0) s.fwin l.fwin (w.1, w.2.1 &&& 0xBFFFFFFFFFFFFFFF#64, w.2.2)
    leases := s.leases.map fun (m : Lease) => if m.id = l.id ∧ m.lender = true then { m with state := 2 + st } else m }
  let u := t.fabricEvent 0x107 l.id l.peer st
  ((List.range l.pages).foldl (fun (u : State) i => u.zeroPage (k * 2 ^ 36 + l.base / 4096 + i)) u).giveKey k none

/-- A lease of this package in its handshake. -/
def State.evicting (s : State) (id : Nat) : Option Lease := s.leases.find? fun l => l.id == id && l.lender && l.state == 1

/-- LACK. -/
def execLack (id : Nat) (s : State) : Out :=
  .next (match s.evicting id with
    | some l => s.endLease l 0
    | none => s)

/-- LACK_TIMEOUT: 250,000 cycles after the acceptance of the LRECL. At the borrower a lease in its handshake gives LACK as soon as it may. -/
def execLackTimeout (id : Nat) (s : State) : Out :=
  .next (match s.evicting id with
    | some l => if l.since + 250000 ≤ s.clk then s.endLease l 4 else s
    | none => s.sendLacks)

end Sys2Proof.Machine
end

