-- ==== Sys2Proof/Machine/Trust.lean ====
section
/-! DEFINITION. The host and trust: boot and recovery (R400, R401), features (R403), partitions (R404), TDISP (R397), SPDM and measurements
(R398, R399), IDE (R396), the aperture (R394), register windows (R395, R405), readback (R405), power (R406). -/

namespace Sys2Proof.Machine

/-! ## Boot and recovery (R400) -/

/-- The most bytes an image holds. -/
def imageMax : Nat := 16 * 1024 * 1024

/-- ERR of an image as the ROM checks it: size, signature, security version. -/
def Mgmt.imageErr (g : Mgmt) (b : List Byte) : Nat :=
  if b = [] then 1
  else if imageMax < b.length then 5
  else if Config.imageSigned b = false then 2
  else if (Config.imageSvn b).toNat < max Config.fusedMinSvn.toNat g.minSvn.toNat then 3
  else 0

/-- An image runs, and may raise the fused minimum to its own version. -/
def Mgmt.run (g : Mgmt) (b : List Byte) : Mgmt :=
  { g with
    phase := 2, err := 0, svn := Config.imageSvn b, running := b
    minSvn := if Config.imageRaises b then BitVec.ofNat 32 (max g.minSvn.toNat (Config.imageSvn b).toNat) else g.minSvn }

/-- The image in the flash: the one that recovery wrote, else the one the module came with. -/
def Mgmt.flashed (g : Mgmt) : Option (List Byte) := g.flash.or Config.flashImage

/-- The end of the verification of an image that the host staged (R400): it is written to the flash and started, or recovery goes on with ERR set. -/
def Mgmt.verified (g : Mgmt) : Mgmt :=
  let b := Mem.readN g.staging 0 g.recLen
  let e := g.imageErr b
  let h := { g with recBusy := false }
  if e = 0 then { h.run b with flash := some b } else { h with phase := 3, err := e }

/-- The next step of a boot: the image is read, the `n`-th free choice telling whether the flash reads; it is checked and started, or recovery is
entered; the links and stacks are trained. -/
def Mgmt.boot (g : Mgmt) (n : Nat) : Mgmt :=
  match g.phase with
  | 0 =>
    if Config.flashReads n = false then { g with phase := 3, err := 4 }
    else match g.flashed with
      | none => { g with phase := 3, err := 1 }
      | some b => if imageMax < b.length then { g with phase := 3, err := 5 } else { g with phase := 1 }
  | 1 =>
    if g.recBusy then g.verified else
    let b := g.flashed.getD []
    let e := g.imageErr b
    if e = 0 then g.run b else { g with phase := 3, err := e }
  | 2 => { g with phase := 4 }
  | _ => g

/-- POWER_UP: power returns if it was removed, and the ROM goes on by one step. -/
def execPowerUp (s : State) : Out :=
  .next (if s.power then { s with mgmt := s.mgmt.boot s.free, free := s.free + 1 } else { s with power := true })

/-- RECOVCTL_GO: in recovery the verification of the staged image begins, with BUSY set; the ROM's next step ends it (log entry 65). -/
def Mgmt.recover (g : Mgmt) (v : W64) : Mgmt :=
  if g.phase ≠ 3 ∨ v.toNat.testBit 24 = false ∨ g.recBusy = true then g
  else { g with phase := 1, recBusy := true, recLen := bits v.toNat 23 0 }

/-- RECOVCTL_GO. -/
def execRecovctlGo (v : W64) (s : State) : Out := .next (if s.power then { s with mgmt := s.mgmt.recover v } else s)

/-! ## Features (R403) -/

/-- FEATDEV0 to FEATDEV3. -/
def featDev : List W64 := [0xFFFF, 0, 0, 0]

/-- FEATCTL.GO: FEATACT is latched, or stays 0 where a feature that cannot be switched off is missing. -/
def Mgmt.negotiate (g : Mgmt) : Mgmt :=
  if ((g.featDrv.headD 0) &&& 0xFFFF) = 0xFFFF then { g with featAct := List.zipWith (· &&& ·) featDev g.featDrv, featStat := 1 }
  else { g with featAct := [0, 0, 0, 0], featStat := 2 }

/-- FEATCTL_GO: refused while any partition exists. -/
def execFeatctlGo (s : State) : Out := .next (if s.parts.isEmpty then s.onMgmt Mgmt.negotiate else s)

/-! ## Partitions (R334, R404) -/

/-- Clusters of a descriptor, guaranteed and margin. -/
def descClusters (d : List W64) : W64 := let w := d.headD 0; (w &&& 0xFFFFFFFF) ||| (w >>> 32)

/-- A descriptor breaks no rule of R334, beside the partitions that exist. -/
def State.descOk (s : State) (p : Nat) (d : List W64) : Bool :=
  let w := wordAt d
  let lsz := fun (x : Nat) => decide (4 ≤ x) && decide (x ≤ 12)
  d.length == 6 && bits (w 0) 31 0 != 0 && (bits (w 0) 31 0 &&& bits (w 0) 63 32) == 0 && bits (w 1) 20 19 != 3 && bits (w 1) 63 21 == 0 &&
    bits (w 2) 11 0 == 0 && bits (w 2) 63 48 == 0 && bits (w 3) 63 32 == 0 && bits (w 4) 11 0 == 0 && bits (w 4) 63 52 == 0 &&
    lsz (bits (w 4) 51 48) && bits (w 5) 11 0 == 0 && bits (w 5) 63 52 == 0 && lsz (bits (w 5) 51 48) &&
    s.parts.all fun e => e.1 == p || (descClusters e.2.desc &&& descClusters d) == 0

/-- The page of a new stage-2 table, empty. -/
def State.newTable (s : State) : Nat × State :=
  let f := s.fresh
  let page := Config.tablePage f.1 % 2 ^ 36
  (page * 4096, f.2.zeroPage page)

/-- A new partition. -/
def newPartition (d : List W64) (root : Nat) : Partition :=
  { desc := d, tdisp := .unlocked, lqs := [], ctrs := [], prqProd := 0, prqCons := 0, evProd := 0, evCons := 0, evSeq := 0, evLost := 0
    s1root := 0, s1inv := none, s2root := root, cancelBusy := false, tdx := Tdx.reset, evWait := [], domains := [], memcls := memclsReset, refuse := false }

/-- PCTL of an action of Lantern: its STAT, and BUSY until the cycle ends (log entry 67). -/
def State.pctl (s : State) (st : Nat) : State := { s with mgmt := { s.mgmt with pctlStat := st, pctlBusy := true } }

/-- PARTITION_CREATE: ignored while Lantern acts. -/
def State.create (s : State) (p : Nat) : State :=
  if s.mgmtOpen = false ∨ 16 ≤ p ∨ s.mgmt.pctlBusy = true then s
  else if s.mgmt.featStat ≠ 1 then s.pctl 5
  else if (s.part p).isSome then s.pctl 2
  else if s.descOk p s.mgmt.pdesc = false then s.pctl 1
  else
    let t := s.newTable
    { t.2 with parts := Tbl.insert t.2.parts p (newPartition s.mgmt.pdesc t.1) }.pctl 0

/-- PARTITION_CREATE. -/
def execPartitionCreate (p : Nat) (s : State) : Out := .next (s.create p)

/-- The KeyIDs that a partition owns, ascending. -/
def State.keysOf (s : State) (p : Nat) : List Nat := (s.keys.filter fun e => e.2.owner == some p).map Prod.fst

/-- A KeyID returns to Lantern, and its pages are zeroed under new major counters (R404). -/
def State.takeKey (s : State) (k : Nat) : State :=
  (((s.pages.map Prod.fst).filter fun p => keyOf p == k).foldl State.zeroPage s).giveKey k none

/-- PARTITION_DESTROY: ignored while Lantern acts. -/
def State.destroy (s : State) (p : Nat) : State :=
  if s.mgmtOpen = false ∨ s.mgmt.pctlBusy = true then s
  else match s.part p with
    | none => s.pctl 3
    | some q =>
      if q.tdisp ≠ .unlocked then s.pctl 4
      else
        let t := s.resetPartition p 4
        let u := (t.keysOf p).foldl State.takeKey t
        { u with
          parts := Tbl.erase u.parts p, ide := u.ide.filter fun e => e.2.1 != p, spdm := Tbl.erase u.spdm (p + 1)
          leases := u.leases.filter fun l => l.part != p }.pctl 0

/-- PARTITION_DESTROY. -/
def execPartitionDestroy (p : Nat) (s : State) : Out := .next (s.destroy p)

/-! ## SPDM (R398) -/

/-- The mailbox of a function. -/
def State.box (s : State) (fn : Nat) : Spdm := Tbl.getD s.spdm fn Spdm.reset

/-- A function's mailbox answers: PF0's, and that of a VF whose partition exists, while Lantern runs. -/
def State.boxOpen (s : State) (fn : Nat) : Bool := s.mgmtOpen && (fn == 0 || (s.part (fn - 1)).isSome)

/-- A request on a mailbox whose condition holds changes it and is answered; any other is answered with nothing. -/
def State.onBox (s : State) (fn : Nat) (ok : Spdm → Bool) (f : Spdm → Spdm) : State :=
  if s.boxOpen fn then
    let x := s.box fn
    { s with spdm := Tbl.put Spdm.reset s.spdm fn (if ok x then f x else { x with reply := [] }) }
  else s

/-- GET_VERSION: version 1.3; the negotiation begins anew. -/
def execGetVersion (fn : Nat) (s : State) : Out :=
  .next (s.onBox fn (fun _ => true) fun x => { x with version := true, caps := false, algs := false, reply := [0x13] })

/-- GET_CAPABILITIES. -/
def execGetCapabilities (fn : Nat) (s : State) : Out :=
  .next (s.onBox fn Spdm.version fun x => { x with caps := true, algs := false, reply := [1] })

/-- NEGOTIATE_ALGORITHMS: only ECDSA P-384 with SHA-384, secp384r1 and AES-256-GCM. -/
def execNegotiateAlgorithms (fn : Nat) (o : SpdmOffer) (s : State) : Out :=
  .next (s.onBox fn (fun x => x.caps && o.ecdsaP384 && o.sha384 && o.secp384r1 && o.aesGcm) fun x => { x with algs := true, reply := [1] })

/-- GET_DIGESTS: the digest of the chain in slot 0. -/
def execGetDigests (fn : Nat) (s : State) : Out := .next (s.onBox fn Spdm.algs fun x => { x with reply := sha384 Config.certChain })

/-- GET_CERTIFICATE: slot 0 alone holds a chain. -/
def execGetCertificate (fn slot : Nat) (s : State) : Out :=
  .next (s.onBox fn (fun x => x.algs && slot == 0) fun x => { x with reply := Config.certChain })

/-- CHALLENGE: the nonce signed by the device identity. -/
def execChallenge (fn : Nat) (nonce : List Byte) (s : State) : Out :=
  .next (s.onBox fn Spdm.algs fun x => { x with reply := Config.spdmSign nonce })

/-- KEY_EXCHANGE: a session opens, to be finished. -/
def execKeyExchange (fn : Nat) (_share : List Byte) (s : State) : Out :=
  .next (s.onBox fn Spdm.algs fun x =>
    { x with sessions := x.sessions ++ [(x.nextSess, false)], nextSess := x.nextSess + 1, reply := Config.spdmShare x.nextSess })

/-- FINISH: the handshake of a session ends; an invalid one ends the session. -/
def execFinish (fn session : Nat) (valid : Bool) (s : State) : Out :=
  .next (s.onBox fn (fun x => x.sessions.contains (session, false)) fun x =>
    let rest := x.sessions.filter fun e => e.1 != session
    if valid then { x with sessions := rest ++ [(session, true)], reply := [1] } else { x with sessions := rest, reply := [] })

/-- A secure session of a mailbox. -/
def Spdm.secure (x : Spdm) (session : Nat) : Bool := x.sessions.contains (session, true)

/-- KEY_UPDATE: the session goes on under new keys. -/
def execKeyUpdate (fn session : Nat) (s : State) : Out := .next (s.onBox fn (fun x => x.secure session) fun x => { x with reply := [1] })

/-- HEARTBEAT. -/
def execHeartbeat (fn session : Nat) (s : State) : Out := .next (s.onBox fn (fun x => x.secure session) fun x => { x with reply := [1] })

/-- END_SESSION. -/
def execEndSession (fn session : Nat) (s : State) : Out :=
  .next (s.onBox fn (fun x => x.secure session) fun x => { x with sessions := x.sessions.filter fun e => e.1 != session, reply := [1] })

/-! ## Measurements (R399) -/

/-- A group's record in a measurement block. -/
def Group.record (g : Group) : List Byte := natLe 8 g.wid.toNat ++ gmBytes g.gm ++ natLe 4 g.nmeas ++ natLe 3 g.gtag ++ [0]

/-- The existing groups of a partition by ascending WID, then GTAG. -/
def State.groupsOf (s : State) (p : Nat) : List Group :=
  sortBy (fun g => g.wid.toNat * 2 ^ 24 + g.gtag) ((s.groups.map Prod.snd).filter fun g => g.part == p)

/-- A measurement block as one function reads it; none where that function may not. -/
def State.block (s : State) (tdi : Option Nat) (i : Nat) : Option (List Byte) :=
  match i, tdi with
  | 1, _ => some (sha384 Config.romBytes)
  | 2, _ => some (sha384 s.mgmt.running)
  | 3, _ => some (natLe 4 s.mgmt.svn.toNat)
  | 4, _ => some (natLe 4 Config.fwinMax ++ natLe 4 (if Config.rateFull then 0 else 1) ++ natLe 4 Config.powerFuse.toNat ++
      natLe 4 (max Config.fusedMinSvn.toNat s.mgmt.minSvn.toNat))
  | 5, _ => some (s.mgmt.featAct.flatMap fun w => natLe 8 w.toNat)
  | 6, some p => (s.part p).map fun q => q.desc.flatMap fun w => natLe 8 w.toNat
  | i, some p =>
    if 16 ≤ i ∧ i ≤ 79 then
      let gs := s.groupsOf p
      some (natLe 4 gs.length ++ ((gs.drop (64 * (i - 16))).take 64).flatMap Group.record)
    else none
  | _, none => none

/-- The blocks that an index asks for: one, or with 255 all that the session may read. -/
def State.blocks (s : State) (tdi : Option Nat) (index : Nat) : List Byte :=
  (if index = 255 then List.range 80 else [index]).flatMap fun i => match s.block tdi i with
    | some b => natLe 1 i ++ natLe 2 b.length ++ b
    | none => []

/-- GET_MEASUREMENTS: every block of the response is taken at this instant. Blocks of a partition are answered only on a
session to its TDI. -/
def execGetMeasurements (e : SpdmAsker) (index : Nat) (s : State) : Out :=
  .next (s.onBox e.fn (fun x => x.algs && e.session.all x.secure) fun x =>
    { x with reply := s.blocks (if 1 ≤ e.fn ∧ e.session.any x.secure = true then some (e.fn - 1) else none) index })

/-! ## IDE and the key vault (R396, R418) -/

/-- A secure session to a partition's TDI exists. -/
def State.session (s : State) (p : Nat) : Bool := s.boxOpen (p + 1) && (s.box (p + 1)).sessions.any Prod.snd

/-- IDE_KM: a selective stream of the 32 is bound to a TDI. -/
def execIdeKm (session stream p : Nat) (key : BitVec 256) (s : State) : Out :=
  .next (if stream < 32 ∧ s.session p = true ∧ (s.box (p + 1)).secure session = true then { s with ide := Tbl.insert s.ide stream (p, key) } else s)

/-- TENANT_ROOT_KEY_PROVISION: the vault takes a tenant's root key under its trust domain, one of at most 16. -/
def execTenantRootKeyProvision (p : Nat) (td : W64) (key : BitVec 256) (s : State) : Out :=
  .next (if s.session p then
      s.onPart p fun q =>
        if td = 0 ∨ q.atLimit td = true then q
        else { q with domains := (q.domains.filter fun d => !(d.1 == td && d.2.2.isNone)) ++ [(td, key, none)] }
    else s)

/-! ## TDISP (R397) -/

/-- A TDISP message over a session to the TDI: the state it moves to, and its answer. -/
def State.tdisp (s : State) (p : Nat) (f : Partition → State → State × List Byte) : State :=
  match s.part p with
  | none => s
  | some q =>
    if s.session p then
      let r := f q s
      r.1.onBox (p + 1) (fun _ => true) fun x => { x with reply := r.2 }
    else s

/-- Codes of the TDISP states. -/
def Tdisp.code : Tdisp → Nat
  | .unlocked => 0
  | .locked => 1
  | .run => 2
  | .error => 3

/-- GET_TDISP_VERSION. -/
def execGetTdispVersion (p : Nat) (s : State) : Out := .next (s.tdisp p fun _ t => (t, [0x10]))

/-- GET_TDISP_CAPABILITIES. -/
def execGetTdispCapabilities (p : Nat) (s : State) : Out := .next (s.tdisp p fun _ t => (t, [1]))

/-- GET_DEVICE_INTERFACE_STATE. -/
def execGetDeviceInterfaceState (p : Nat) (s : State) : Out := .next (s.tdisp p fun q t => (t, natLe 1 q.tdisp.code))

/-- A change of a TDI's state. -/
def State.toTdisp (s : State) (p : Nat) (x : Tdisp) : State := s.onPart p fun q => { q with tdisp := x }

/-- LOCK_INTERFACE_REQUEST. -/
def execLockInterfaceRequest (p : Nat) (s : State) : Out :=
  .next (s.tdisp p fun q t => if q.tdisp = .unlocked then (t.toTdisp p .locked, [1]) else (t, []))

/-- START_INTERFACE_REQUEST. -/
def execStartInterfaceRequest (p : Nat) (s : State) : Out :=
  .next (s.tdisp p fun q t => if q.tdisp = .locked then (t.toTdisp p .run, [1]) else (t, []))

/-- STOP_INTERFACE_REQUEST: with rung 4 from CONFIG_LOCKED or RUN. -/
def execStopInterfaceRequest (p : Nat) (s : State) : Out :=
  .next (s.tdisp p fun q t => match q.tdisp with
    | .unlocked => (t, [1])
    | .error => (t.toTdisp p .unlocked, [1])
    | _ => ((t.resetPartition p 4).toTdisp p .unlocked, [1]))

/-- The interface report: the sizes of the BARs, the descriptor, FEATACT, the security version, the KeyIDs ascending. -/
def State.report (s : State) (p : Nat) (q : Partition) : List Byte :=
  natLe 8 0x10000 ++ natLe 8 (2 ^ 39) ++ (q.desc.flatMap fun w => natLe 8 w.toNat) ++ (s.mgmt.featAct.flatMap fun w => natLe 8 w.toNat) ++
    natLe 4 s.mgmt.svn.toNat ++ (s.keysOf p).flatMap fun k => natLe 2 k

/-- GET_DEVICE_INTERFACE_REPORT: of a locked or running interface. -/
def execGetDeviceInterfaceReport (p : Nat) (s : State) : Out :=
  .next (s.tdisp p fun q t => if q.tdisp = .locked ∨ q.tdisp = .run then (t, t.report p q) else (t, []))

/-! ## Changes through Lantern (R397) -/

/-- The table that a level of the walk of a guest physical address reads, none where the walk does not come so far, or the address of poison that
Lantern met on the way (R322). -/
def State.tableFor (s : State) (g : Nat) : Nat → Nat → Except Nat (Option Nat)
  | 0, root => .ok (some root)
  | l + 1, root =>
    match s.tableFor g l root with
    | .ok (some t) =>
      let a := entryAddr t l g
      let e := (Mem.word s.mem a).toNat
      if s.poisoned (lineOf a) then .error a
      else if entryOk l 61 e = true ∧ e.testBit 1 = true then .ok (some (bits e 47 12 * 4096)) else .ok none
    | r => r

/-- A lease KeyID is mapped in no stage 2 of this package (R391). -/
def State.leaseKey (s : State) (k : Nat) : Bool :=
  s.leases.any fun l => l.lender && decide (l.state < 2) && (windowOf (s.window l.fwin)).key == k

/-- Lantern writes a word of its tables, after the rewrite of a line that the write must wait for (R321, R324). -/
def State.putEntry (s : State) (a v : Nat) : State := (s.settleLine (lineOf a) true).put a (natLe 8 v)

/-- Lantern writes a stage-2 entry; a new table is an empty page of its own. -/
def State.setEntry (s : State) (a level : Nat) (e : W64) : State :=
  if e.toNat.testBit 0 = true ∧ e.toNat.testBit 1 = true ∧ level < 3 then
    let t := s.newTable
    t.2.putEntry a (3 + place (t.1 / 4096) 47 12)
  else if e.toNat.testBit 0 = true ∧ e.toNat.testBit 60 = false ∧ s.leaseKey (bits e.toNat 59 48) = true then s
  else s.putEntry a e.toNat

/-- The address of the stage-2 entry that a level reads for a guest physical address, or of poison that Lantern met there or on the way. -/
def State.entryOf (s : State) (q : Partition) (level g : Nat) : Except Nat (Option Nat) :=
  if level < 4 then
    match s.tableFor g level q.s2root with
    | .ok (some t) => let a := entryAddr t level g; if s.poisoned (lineOf a) then .error a else .ok (some a)
    | r => r
  else .ok none

/-- A change that a locked interface does not take moves it to ERROR; an unlocked one takes it. -/
def State.frozen (s : State) (p : Nat) (q : Partition) (f : State → State) : State :=
  match q.tdisp with
  | .unlocked => f s
  | .error => s
  | _ => s.toError p

/-- A change of a stage-2 entry: of an invalid one it is an addition, which leaves the TDI's state as it is; one that leaves the entry as it was
changes nothing. Where an entry is replaced, no translation cache keeps anything of the partition. Poison in a table is reported, and nothing changes
(R322, log entry 99). -/
def State.changeEntry (s : State) (p : Nat) (q : Partition) (level g : Nat) (e : W64) : State :=
  match s.entryOf q level g with
  | .error pa => s.poisonRecord p pa
  | .ok none => s
  | .ok (some a) =>
    let old := Mem.word s.mem a
    if old = e then s
    else if old.toNat.testBit 0 then s.frozen p q fun t => (t.setEntry a level e).dropPart p
    else if q.tdisp = .error then s
    else s.setEntry a level e

/-- STAGE2_CHANGE_REQUEST: a request that changes nothing leaves the TDI's state as it is. Lantern takes none in recovery (R400). -/
def State.change (s : State) (p : Nat) (c : Stage2Change) : State :=
  match s.part p with
  | none => s
  | some q =>
    if s.mgmtOpen = false then s else
    match c with
    | .add level g e | .change level g e => s.changeEntry p q level g e
    | .descriptor w v =>
      let d := q.desc.set w v
      if d = q.desc then s else s.frozen p q fun t => if t.descOk p d then t.onPart p fun q => { q with desc := d } else t
    | .keyid k true => if 1 ≤ k ∧ k < 4096 ∧ (s.key k).owner.isNone = true then s.frozen p q fun t => t.giveKey k (some p) else s
    | .keyid k false => if (s.key k).owner = some p then s.frozen p q fun t => (t.takeKey k).dropPart p else s

/-- STAGE2_CHANGE_REQUEST. -/
def execStage2ChangeRequest (p : Nat) (c : Stage2Change) (s : State) : Out := .next (s.change p c)

/-! ## The aperture (R394, R396): the other BARs are in HostRead -/

/-- The request arrives as a running interface demands: on an IDE stream bound to it, with T set. -/
def State.ideOk (s : State) (p : Nat) (q : Partition) (a : HostAccess) : Bool :=
  match q.tdisp with
  | .run => a.tbit && (match a.stream with
    | some n => ((Tbl.find s.ide n).map fun e => e.1 == p).getD false
    | none => false)
  | .error => false
  | _ => true

/-- The bytes that an access reads or writes. -/
def accessSize (a : HostAccess) : Nat := (a.write.map List.length).getD a.len

/-- Unsupported Request. -/
def State.unsupported (s : State) : State := { s with answer := none }

/-- The access is accepted and answered with some bytes. -/
def State.replied (s : State) (b : List Byte) : State := { s with answer := some b }

/-- The places of a range of guest physical memory, if stage 2 maps every page for the access. The walks and the access itself are of class SYS
(R326). -/
def State.hostPlaces (s : State) (p g n : Nat) (wr : Bool) : Except Miss (List (Nat × Nat)) × State :=
  (spans (n / 4096 + 2) g n).foldr (fun e (acc : Except Miss (List (Nat × Nat)) × State) =>
    let w := s.stage2By [] p e.1 (!wr) wr
    let t := w.2.foldl (fun (t : State) x => t.miss 32 (sliceOf (pageOf x.pa)) p 3) acc.2
    (match w.1, acc.1 with
      | .ok l, .ok r => if l.fab then .error (.stage true) else .ok ((l.pa e.1, e.2) :: r)
      | .error m, _ => .error m
      | _, .error m => .error m, t)) (.ok [], s)

/-- An access at one place: the rewrite of a line that it must wait for ends first (R321, R324). -/
def State.hostLines (s : State) (p : Nat) (wr : Bool) (e : Nat × Nat) : State :=
  ((linesIn e.1 e.2).foldl (fun (t : State) l => t.settleLine l wr) s).miss 32 (sliceOf (pageOf e.1)) p 3

/-- An access to the aperture: a load or store of guest physical memory, or Unsupported Request. Poison is answered so too, and reported. -/
def State.aperture (s : State) (p : Nat) (a : HostAccess) : State :=
  match s.part p with
  | none => s.unsupported
  | some q =>
    if s.mgmtOpen = false ∨ q.refuse = true ∨ s.ideOk p q a = false ∨ 2 ^ 39 < a.addr + accessSize a then s.unsupported
    else
      let r := s.hostPlaces p a.addr (accessSize a) a.write.isSome
      match r.1 with
      | .error (.stage _) => r.2.unsupported
      | .error (.poison pa) => (r.2.poisonRecord p pa).unsupported
      | .ok l =>
        let t := l.foldl (fun (t : State) e => t.hostLines p a.write.isSome e) r.2
        match l.find? fun e => t.poisonedIn e.1 e.2 with
        | some e => (t.poisonRecord p e.1).unsupported
        | none =>
          match a.write with
          | none => t.replied (l.flatMap fun e => Mem.readN t.mem e.1 e.2)
          | some b => (l.foldl (fun (r : State × List Byte) e => (r.1.put e.1 (r.2.take e.2), r.2.drop e.2)) (t, b)).1.replied []

/-! ## Readback (R405) -/

/-- RBREQ_GO: the request is kept and BUSY set; ignored while BUSY. The read in progress keeps the request that began it. -/
def Mgmt.readback (g : Mgmt) (v : W64) : Mgmt :=
  if v.toNat.testBit 17 = false ∨ g.rbBusy = true then g
  else { g with rbreq := v &&& 0xFFFFFFFFFFF1FFFF#64, rbAsk := v &&& 0xFFFFFFFFFFF1FFFF#64, rbBusy := true, rbDeny := false }

/-- RBREQ_GO. -/
def execRbreqGo (v : W64) (s : State) : Out := .next (s.onMgmt fun g => g.readback v)

/-- A result: bytes, tag words and MAC. -/
structure Readback where
  data : BitVec 512
  tag  : List W64
  mac  : BitVec 128
  deny : Bool
  deriving DecidableEq, Repr

/-- A clear result. -/
def Readback.clear (v : Nat) : Readback := ⟨BitVec.ofNat 512 v, [0, 0], 0, false⟩

/-- The generation and the major counter that a line stands under: from the pointer of a rewrite on, the old ones (R324). -/
def State.lineUnder (s : State) (line : Nat) : BitVec 16 × Nat :=
  let page := line / 64
  match s.rewrite page with
  | some w => if line % 64 < w.line then (s.gen page, s.major page) else (w.gen, w.major)
  | none => (s.gen page, s.major page)

/-- A line of a page as the stack holds it (R320): counter block b holds the address, the counters and b. -/
def State.lineCipher (s : State) (line : Nat) : List Byte :=
  let page := line / 64
  let u := s.lineUnder line
  let key := roundKeys (Config.dataKey (BitVec.ofNat 12 (keyOf page)) u.1)
  let ctr := fun (b : Nat) => place (line % 2 ^ 42) 127 86 + place u.2 85 22 + place (s.minor page (line % 64)).toNat 21 15 + place b 14 13
  ((List.range 4).flatMap fun b => aesBlock sboxTable key (natBe 16 (ctr b))).zipWith (· ^^^ ·) (Mem.readN s.mem (64 * line) 64)

/-- The MAC of a line (R320). The KeyID stands before the ciphertext as two bytes, the high one first, a place and a width that R320 leaves open (log
entry 99). -/
def State.lineMac (s : State) (line : Nat) : Nat :=
  let page := line / 64
  let u := s.lineUnder line
  let iv := place (line % 2 ^ 42) 95 54 + place (s.minor page (line % 64)).toNat 53 47 + place u.2 46 0
  beNat ((gcm true (Config.macKey (BitVec.ofNat 12 (keyOf page)) u.1) (natBe 12 iv) (natBe 2 (keyOf page) ++ s.lineCipher line) []).2) % 2 ^ 64

/-- The partition of a group, the one whose save area names it where the group itself is no more. -/
def State.tagPart (s : State) (g : Nat) : Option Nat :=
  ((Tbl.find s.groups g).map Group.part).or ((s.areas.find? fun a => a.gtag == g).map SaveSlot.part)

/-- The group that a physical chunk serves, saved or running. -/
def ChunkState.tag : ChunkState → Option Nat
  | .free => none
  | .live g _ _ | .parked g _ _ | .saving g _ _ => some g

/-- The store and the physical chunk of a core at an offset of 64-byte units: SPAD's 24 chunks of 64 KiB, ACC's 16 of 32 rows of 512 bytes, SDM's 16
of 4 KiB, one behind the other (an order that R405 leaves open: log entry 71). -/
def chunkAt (off : Nat) : Store × Nat :=
  if off < 24576 then (.spad, off / 1024)
  else if off < 28672 then (.acc, (off - 24576) / 256)
  else (.sdm, (off - 28672) / 64)

/-- The partition that owns what a request names: its strand, the chunk of its core, saved or running, or the groups of its cluster, which else is
its borrower's or its owner's. None owns an idle strand or a chunk that is free. -/
def State.unitPart (s : State) (cls u off : Nat) : Option Nat :=
  match cls with
  | 1 => (Tbl.find s.strands u).map Strand.part
  | 3 => let c := chunkAt off; (Tbl.getD ((s.core u).chunkTbl c.1) c.2 .free).tag.bind s.tagPart
  | _ => (((s.groups.find? fun e => e.2.cluster == u && e.2.saved.isEmpty).map fun e => e.2.part).or (s.cluster u).lentTo).or (s.ownerOf u)

/-- The tenant root key from which a partition's readback key is derived: of the trust domain that TDXID names, else of its first (log entry 71). -/
def Partition.rootKey (q : Partition) : Option (BitVec 256) :=
  ((q.domains.find? fun d => d.1 == q.tdx.tdid).or q.domains.head?).map fun d => d.2.1

/-- A result sealed under the owning partition's readback key. -/
def State.sealed (s : State) (p : Option Nat) (req : Nat) (item : BitVec 512) : Readback :=
  let n := natLe 4 Config.packageSerial.toNat ++ natLe 8 s.mgmt.rbCount
  let r := gcm true (Config.readbackKey p ((p.bind s.part).bind Partition.rootKey)) n (natLe 8 req) (natLe 64 item.toNat)
  ⟨BitVec.ofNat 512 (leNat r.1), [BitVec.ofNat 64 Config.packageSerial.toNat, BitVec.ofNat 64 s.mgmt.rbCount], BitVec.ofNat 128 (leNat r.2), false⟩

/-- A clear result: the 64 bytes of a list at an offset in 64-byte units, with zeros behind its end. -/
def Readback.unit (l : List Byte) (off : Nat) : Readback := .clear (leNat ((l.drop (64 * off)).take 64))

/-- The configuration of a core's array: whose it is (0 and 1 the strands of the core, 2 none), KR and NC (R179). -/
def State.arrayConfig (s : State) (c : Nat) : List Byte :=
  match [2 * c, 2 * c + 1].find? fun x => (s.strand x).matrixOwn with
  | some x => [BitVec.ofNat 8 (x % 2), BitVec.ofNat 8 (s.strand x).mat.kr, BitVec.ofNat 8 (s.strand x).mat.nc]
  | none => [2, 96, 128]

/-- Core state (class 2): CYC, the tie bit and the configuration of the array. -/
def State.coreItem (s : State) (c : Nat) : List Byte :=
  natLe 8 (s.cyc c) ++ [if (s.core c).tie then 1 else 0] ++ s.arrayConfig c

/-- Lamplighter's state (class 6): LCYC of a die, the heads of the partitions' queues, and the states of their contracts. -/
def State.lamplighterItem (s : State) (d : Nat) : List Byte :=
  let parts := (List.range 16).map s.part
  natLe 8 (s.lcycOf d) ++
    (parts.flatMap fun q => (List.range 8).flatMap fun n => natLe 8 ((q.map fun q => (q.queue n).head).getD 0)) ++
    parts.flatMap fun q => (List.range 16).map fun n => BitVec.ofNat 8 ((q.map fun q => (q.ctr n).state).getD 0)

/-- The result of a request (R405). -/
def State.result (s : State) : Readback :=
  let v := s.mgmt.rbAsk.toNat
  let cls := bits v 7 0
  let u := bits v 16 8
  let off := bits v 63 20
  let item := Config.readbackItem cls v s.free
  match cls with
  | 0 => .clear (s.sysReg u off).toNat
  | 2 => .unit (s.coreItem u) off
  | 6 => .unit (s.lamplighterItem u) off
  | 5 =>
    match s.pages.find? fun e => stackPage e.1 == off / 64 % 2 ^ 36 with
    | some e =>
      let line := e.1 * 64 + off % 64
      ⟨BitVec.ofNat 512 (leNat (s.lineCipher line)), [BitVec.ofNat 64 (s.lineUnder line).2, (s.minor e.1 (off % 64)).setWidth 64], BitVec.ofNat 128 (s.lineMac line), false⟩
    | none => .clear item.toNat
  | 1 | 3 | 4 => s.sealed (s.unitPart cls u off) v item
  | _ => ⟨0, [0, 0], 0, true⟩

/-- A readback of class 5 is a load at the home slice: it waits for a line that a rewrite has locked, and its class is SYS. -/
def State.readbackLoad (s : State) : State :=
  let v := s.mgmt.rbAsk.toNat
  match s.pages.find? fun e => stackPage e.1 == bits v 63 20 / 64 % 2 ^ 36 with
  | some e => if bits v 7 0 = 5 then (s.settleLine (e.1 * 64 + bits v 63 20 % 64) false).sysMiss 32 e.1 else s
  | none => s

/-- READBACK_COMPLETE. -/
def execReadbackComplete (s : State) : Out :=
  .next (if s.mgmt.rbBusy then
      let s := s.readbackLoad
      let r := s.result
      { s with
        free := s.free + 1
        mgmt := { s.mgmt with rbBusy := false, rbDeny := r.deny, rbdata := r.data, rbtag := r.tag, rbmac := r.mac, rbCount := s.mgmt.rbCount + 1 } }
    else s)

/-! ## Power (R401, R406) -/

/-- The cycles of the last 1 ms, at 1.25 GHz. -/
def clampWindow : Nat := 1250000

/-- The cycles of the last 1 ms in which the clamp froze some core, each once. -/
def State.clampCycles (s : State) : List Nat :=
  (s.cores.flatMap fun e => e.2.clamps.filter fun n => decide (s.clk < n + clampWindow)).eraseDups

/-- The share of clamp cycles in the last 1 ms, in units of 1/256 (log entry 66). -/
def State.clampShare (s : State) : Nat := min 255 (s.clampCycles.length * 256 / clampWindow)

/-- POWER_CLAMP: cores freeze for a cycle; one that hosts a contracted strand only where every other core freezes too. -/
def State.clamp (s : State) (cs : List Nat) : State :=
  let held := fun (c : Nat) => (s.strand (2 * c)).contract || (s.strand (2 * c + 1)).contract
  let all := (List.range 256).all fun c => held c || cs.contains c
  (cs.filter fun c => decide (c < 256) && (all || !held c)).foldl
    (fun (t : State) c => t.setCore c { t.core c with
      frozen := true, clamps := s.clk :: (t.core c).clamps.filter fun n => decide (s.clk < n + clampWindow) }) s

/-- POWER_CLAMP. -/
def execPowerClamp (cs : List Nat) (s : State) : Out := .next (s.clamp cs)

/-- Power is removed: the key vault, the KeyID ownership table and the signature counter are lost, and nothing that the stacks held can be
read again (R401). The flash, the fuses and the counts that never repeat stay. -/
def State.powerOff (s : State) : State :=
  { State.reset with
    power := false, agenda := s.agenda, free := s.free, nextId := s.nextId, lskew := s.lskew, nextTag := s.nextTag, saves := s.saves
    hostMem := s.hostMem, sealCnt := s.sealCnt
    mgmt := { Mgmt.reset with flash := s.mgmt.flash, minSvn := s.mgmt.minSvn, rbCount := s.mgmt.rbCount } }

/-- POWER_REMOVAL. -/
def execPowerRemoval (s : State) : Out := .next s.powerOff

/-- THERMAL_SHUTDOWN: power is removed, and PWRSTAT says why. -/
def execThermalShutdown (s : State) : Out :=
  .next { s.powerOff with mgmt := { s.powerOff.mgmt with pwr := BitVec.ofNat 64 (2 ^ 32) } }

/-! ## Register windows (R10, R353, R388, R395, R400, R403 to R405) -/

/-- A write of a contract register that is not its command register: ignored while the contract is admitted. -/
def Partition.writeCtr (q : Partition) (i r : Nat) (v : W64) : Partition :=
  let c := q.ctr i
  if c.state = 1 then q
  else match r with
    | 0 => q.setCtr i { c with a := v }
    | 1 => q.setCtr i { c with b := v }
    | _ => q.setCtr i { c with c := v &&& 0xFFFFFFFF03FFFFFF#64 }

/-- A write of CTRn.D: GO asks for admission, REMOVE removes. -/
def State.ctrCommand (s : State) (p i : Nat) (v : W64) : State :=
  let t := s.onTdi p fun q =>
    let c := q.ctr i
    if v.toNat.testBit 0 = true ∧ (c.state = 0 ∨ c.state = 2) then q.setCtr i { c with asked := true } else q
  if v.toNat.testBit 1 = true ∧ (t.tdi p).isSome = true then t.removeCtr p i else t

/-- A write of a TDI register that stores its fields, or asks for a contract's admission or removal. -/
def State.writeTdi (s : State) (p off : Nat) (v : W64) : State :=
  if off = 0x30 then s.onTdi p fun q => { q with tdx := { q.tdx with tdid := v } }
  else if 0x200 ≤ off ∧ off < 0x400 ∧ off % 8 = 0 then
    let i := (off - 0x200) / 0x20
    let r := off % 0x20 / 8
    if r = 3 then s.ctrCommand p i v else s.onTdi p fun q => q.writeCtr i r v
  else s

/-- A write of a PF0 register that stores its fields. -/
def Mgmt.write (g : Mgmt) (off : Nat) (v : W64) : Mgmt :=
  if 0x120 ≤ off ∧ off < 0x140 ∧ off % 8 = 0 then { g with featDrv := g.featDrv.set ((off - 0x120) / 8) v }
  else if 0x200 ≤ off ∧ off < 0x230 ∧ off % 8 = 0 then { g with pdesc := g.pdesc.set ((off - 0x200) / 8) v }
  else if off = 0x1000 then { g with fevBase := v &&& 0x000FFFFFFFFFF000#64 }
  else if off = 0x40000 ∧ v.toNat.testBit 17 = false then { g with rbreq := v &&& 0xFFFFFFFFFFF1FFFF#64 }
  else g

/-- REGISTER_WRITE: an aligned 8-byte write of a register without behaviour of its own, or of the staging buffer in PHASE 3. -/
def State.writeRegister (s : State) (w : HostWindow) (off : Nat) (v : W64) : State :=
  match w with
  | .tdi p => s.writeTdi p off v
  | .pf0 => s.onMgmt fun g => g.write off v
  | .staging =>
    if s.power = true ∧ s.mgmt.phase = 3 ∧ off % 8 = 0 ∧ off + 8 ≤ imageMax then
      { s with mgmt := { s.mgmt with staging := Mem.writeN s.mgmt.staging off (natLe 8 v.toNat) } }
    else s

/-- REGISTER_WRITE. -/
def execRegisterWrite (w : HostWindow) (off : Nat) (v : W64) (s : State) : Out := .next (s.writeRegister w off v)

end Sys2Proof.Machine
end

