-- ==== Sys2Proof/Machine/HostRead.lean ====
section
/-! DEFINITION. The host's accesses to the BARs (R394): what it reads in the TDI register window (R395) and in PF0's management window (R405),
which are views of the state, since no read of a register has an effect (R10) but that of MISSCNT; and the register write that a write to a
BAR is. -/

namespace Sys2Proof.Machine

/-- A flag as a number. -/
def flag (b : Bool) : Nat := if b then 1 else 0

/-- LQCFG (R338). -/
def Lq.cfg (l : Lq) : W64 := BitVec.ofNat 64 (flag l.en + place l.cls 2 1 + place (l.base / 4096) 47 12 + place l.lsz 51 48)

/-- CTRn.D: STATE, CLUSTER and REASON (R353). -/
def Contract.d (c : Contract) : W64 := BitVec.ofNat 64 (place c.state 3 2 + place c.cluster 8 4 + place c.reason 23 16)

/-- A register of a TDI's window; none where no register lies. -/
def Partition.register (q : Partition) (act : List W64) (off : Nat) : Option W64 :=
  if off = 0x00 ∨ off = 0x20 then some 0
  else if off = 0x08 then some q.s1root
  else if off = 0x10 then some (BitVec.ofNat 64 (place (flag q.s1inv.isSome) 2 2))
  else if off = 0x18 then some (BitVec.ofNat 64 (place (flag q.cancelBusy) 4 4))
  else if off = 0x28 then some (BitVec.ofNat 64 (place (flag q.tdx.busy) 2 2 + place q.tdx.status 15 8))
  else if off = 0x30 then some q.tdx.tdid
  else if off = 0x38 then some (q.evProd.setWidth 64)
  else if off = 0x40 then some (q.evCons.setWidth 64)
  else if off = 0x48 then some (q.prqProd.setWidth 64)
  else if off = 0x50 then some (q.prqCons.setWidth 64)
  else if 0x60 ≤ off ∧ off < 0x80 ∧ off % 8 = 0 then act[(off - 0x60) / 8]?
  else if 0x100 ≤ off ∧ off < 0x1C0 ∧ off % 8 = 0 then
    let l := q.queue ((off - 0x100) / 0x18)
    match (off - 0x100) % 0x18 / 8 with
    | 0 => some l.cfg
    | 1 => some (BitVec.ofNat 64 l.head)
    | _ => some 0
  else if 0x200 ≤ off ∧ off < 0x400 ∧ off % 8 = 0 then
    let c := q.ctr ((off - 0x200) / 0x20)
    match off % 0x20 / 8 with
    | 0 => some c.a
    | 1 => some c.b
    | 2 => some c.c
    | _ => some c.d
  else none

/-- A read of the register window of partition `p` (R394, R397): none is Unsupported Request. In CONFIG_UNLOCKED the window reads zero, in
ERROR no request is accepted, and an unassigned offset reads zero. -/
def State.readTdi (s : State) (p off : Nat) : Option W64 :=
  match s.part p with
  | none => none
  | some q =>
    if off % 8 ≠ 0 ∨ 65536 ≤ off ∨ q.refuse = true ∨ q.tdisp = .error then none
    else if q.tdisp = .unlocked then some 0
    else some ((q.register s.mgmt.featAct off).getD 0)

/-- LSTAT (R400). -/
def Mgmt.lstat (g : Mgmt) : W64 := BitVec.ofNat 64 (place g.phase 2 0 + place g.err 11 8 + place g.svn.toNat 63 32)

/-- PORTSTAT of a port (R374). -/
def Port.stat (x : Port) : W64 :=
  BitVec.ofNat 64 (flag x.lock + place (flag x.dis) 1 1 + place (if x.everLock then x.idx else 0) 6 2 + place x.txu.toNat 23 8 + place x.fails 25 24 +
    place (if x.everLock then x.round.toNat else 0) 59 28)

/-- A ROTENT register (R374). -/
def RotEnt.word (e : RotEnt) : W64 :=
  BitVec.ofNat 64 (place e.peer 11 0 + place e.pport 16 12 + place (flag e.valid) 17 17 + place (flag e.rate) 18 18 + place e.txm.toNat 35 20 +
    place e.rxm.toNat 51 36)

/-- A register of PF0's management window; none where no register lies. -/
def State.mgmtRegister (s : State) (off : Nat) : Option W64 :=
  let g := s.mgmt
  if off = 0x0 then some g.lstat
  else if off = 0x8 then some (BitVec.ofNat 64 (place (flag g.recBusy) 25 25))
  else if 0x100 ≤ off ∧ off < 0x120 then some (if off = 0x100 then 0xFFFF else 0)
  else if 0x120 ≤ off ∧ off < 0x140 then g.featDrv[(off - 0x120) / 8]?
  else if off = 0x140 then some (BitVec.ofNat 64 (place g.featStat 9 8))
  else if 0x200 ≤ off ∧ off < 0x230 then g.pdesc[(off - 0x200) / 8]?
  else if off = 0x230 then some (BitVec.ofNat 64 (place (flag g.pctlBusy) 6 6 + place g.pctlStat 15 8))
  else if off = 0x400 then some ((g.pwr &&& 0x100000000#64) ||| BitVec.ofNat 64 (place s.clampShare 31 24) ||| (Config.powerSense s.clk).setWidth 64)
  else if off = 0x1000 then some g.fevBase
  else if off = 0x1008 then some (g.fevProd.setWidth 64)
  else if off = 0x1010 then some (g.fevCons.setWidth 64)
  else if 0x10000 ≤ off ∧ off < 0x14000 then
    let x := s.port ((off - 0x10000) / 0x200)
    let r := off % 0x200
    if r = 0 then some x.stat
    else if 0x100 ≤ r then let e := Tbl.getD x.ents ((r - 0x100) / 8) RotEnt.reset; some ({ e with valid := e.valid && x.everLock } : RotEnt).word
    else none
  else if 0x20000 ≤ off ∧ off < 0x22000 then
    let w := Tbl.getD s.fwin ((off - 0x20000) / 0x20) (0, 0, 0)
    match off % 0x20 / 8 with
    | 0 => some w.1
    | 1 => some w.2.1
    | 2 => some w.2.2
    | _ => none
  else if 0x30000 ≤ off ∧ off < 0x30080 then (s.part ((off - 0x30000) / 8)).map Partition.memcls
  else if off = 0x40000 then some (g.rbreq ||| BitVec.ofNat 64 (place (flag g.rbBusy) 18 18 + place (flag g.rbDeny) 19 19))
  else if 0x40040 ≤ off ∧ off < 0x40080 then some (g.rbdata.extractLsb' (8 * (off - 0x40040)) 64)
  else if 0x40080 ≤ off ∧ off < 0x40090 then g.rbtag[(off - 0x40080) / 8]?
  else if 0x40090 ≤ off ∧ off < 0x400A0 then some (g.rbmac.extractLsb' (8 * (off - 0x40090)) 64)
  else none

/-- A read of PF0's management window: none is Unsupported Request. In recovery only LSTAT and RECOVCTL answer (R400), and an unassigned
offset reads zero (R394). -/
def State.readPf0 (s : State) (off : Nat) : Option W64 :=
  if s.power = false ∨ off % 8 ≠ 0 ∨ 2 ^ 24 ≤ off then none
  else if off ≤ 8 ∨ s.mgmtOpen = true then some ((s.mgmtRegister off).getD 0)
  else none

/-! ## Accesses to the BARs (R394, R396) -/

/-- The state after an event that always gives one. -/
def State.after (s : State) (f : State → Out) : State :=
  match f s with
  | .next t => t
  | _ => s

/-- A launch queue's register `r` of queue `n`: LQCFG, LQHEAD, which is read only, or LQNOTIFY. -/
def State.writeQueue (s : State) (p n r : Nat) (v : W64) : State :=
  match r with
  | 0 => s.after (execLqcfgWrite p n v)
  | 2 => s.after (execLqnotifyWrite p n v)
  | _ => s

/-- A write of a register of a TDI (R395). Registers that are read only and unassigned offsets take none. -/
def State.writeTdiAt (s : State) (p off : Nat) (v : W64) : State :=
  match off with
  | 0x00 => s.after (execPrespWrite p v)
  | 0x08 => s.after (execS1rootWrite p v)
  | 0x10 => s.after (execS1invPage p v)
  | 0x18 => s.after (execLcancelWrite p v)
  | 0x20 => s.ctxcmd p v
  | 0x28 => (s.after (execTdxInitiate p v)).after (execTdxAcceptArm p v)
  | 0x40 => s.after (execEvconsWrite p v)
  | 0x50 => s.after (execPrqconsWrite p v)
  | _ => if 0x100 ≤ off ∧ off < 0x1C0 ∧ off % 8 = 0 then s.writeQueue p ((off - 0x100) / 0x18) ((off - 0x100) % 0x18 / 8) v else s.writeTdi p off v

/-- A write of PCTL (R404). -/
def State.writePctl (s : State) (v : W64) : State :=
  let p := bits v.toNat 3 0
  match bits v.toNat 5 4 with
  | 1 => s.create p
  | 2 => s.destroy p
  | _ => s

/-- A write of a register of PF0's management window (R405). In recovery only RECOVCTL takes one (R400). -/
def State.writePf0At (s : State) (off : Nat) (v : W64) : State :=
  if off = 0x8 then s.after (execRecovctlGo v)
  else if off = 0x140 then (if v.toNat.testBit 0 then s.after execFeatctlGo else s)
  else if off = 0x230 then s.writePctl v
  else if off = 0x1010 then s.after (execFevconsWrite v)
  else if 0x10000 ≤ off ∧ off < 0x14000 then
    (if off % 0x200 = 0 ∧ v.toNat.testBit 26 = true then s.after (execPortRetrain ((off - 0x10000) / 0x200)) else s)
  else if 0x20000 ≤ off ∧ off < 0x22000 then s.after (execFwinWrite ((off - 0x20000) / 0x20) (off % 0x20 / 8) v)
  else if 0x30000 ≤ off ∧ off < 0x30080 then s.after (execMemclsWrite ((off - 0x30000) / 8) v)
  else if off = 0x40000 ∧ v.toNat.testBit 17 = true then s.after (execRbreqGo v)
  else s.after (execRegisterWrite .pf0 off v)

/-- The MISSCNT register at an offset (R328): home slice, partition and class. -/
def misscntAt (off : Nat) : Option (Nat × Nat × Nat) :=
  let r := off - 0x31000
  if 0x31000 ≤ off ∧ off < 0x32800 then some (r / 0x200, r % 0x200 / 0x20, r % 0x20 / 8) else none

/-- A register window takes only naturally aligned 8-byte accesses below its size. -/
def alignedIn (a : HostAccess) (size : Nat) : Bool := accessSize a == 8 && a.addr % 8 == 0 && decide (a.addr < size)

/-- The 64-bit value that an access writes. -/
def writtenWord (b : List Byte) : W64 := BitVec.ofNat 64 (leNat b)

/-- An access to a TDI's register window. -/
def State.tdiAccess (s : State) (p : Nat) (a : HostAccess) : State :=
  match s.part p with
  | none => s.unsupported
  | some q =>
    if s.mgmtOpen = false ∨ alignedIn a 65536 = false ∨ q.refuse = true ∨ s.ideOk p q a = false then s.unsupported
    else match a.write with
      | none => s.replied (natLe 8 ((s.readTdi p a.addr).getD 0).toNat)
      | some b => (s.writeTdiAt p a.addr (writtenWord b)).replied []

/-- An access to PF0's management window. -/
def State.pf0Access (s : State) (a : HostAccess) : State :=
  if s.power = false ∨ alignedIn a (2 ^ 24) = false ∨ (8 < a.addr ∧ s.mgmtOpen = false) then s.unsupported
  else match a.write with
    | some b => (s.writePf0At a.addr (writtenWord b)).replied []
    | none =>
      match misscntAt a.addr with
      | some m => s.after (execMisscntRead m.1 m.2.1 m.2.2)
      | none => s.replied (natLe 8 ((s.readPf0 a.addr).getD 0).toNat)

/-- An access to the recovery staging buffer, which is no register window: any size within it; it is written only in PHASE 3. -/
def State.stagingAccess (s : State) (a : HostAccess) : State :=
  if s.power = false ∨ imageMax < a.addr + accessSize a then s.unsupported
  else match a.write with
    | none => if s.mgmtOpen ∨ s.mgmt.phase = 3 then s.replied (Mem.readN s.mgmt.staging a.addr (accessSize a)) else s.unsupported
    | some b =>
      if s.mgmt.phase = 3 then { s with mgmt := { s.mgmt with staging := Mem.writeN s.mgmt.staging a.addr b } }.replied [] else s.unsupported

/-- HOST_APERTURE_ACCESS: an access of the host to a BAR of partition `p`'s function, or of PF0 (R394). -/
def execHostApertureAccess (p : Nat) (a : HostAccess) (s : State) : Out :=
  .next (match a.bar with
    | .aperture => s.aperture p a
    | .tdi => s.tdiAccess p a
    | .pf0 => s.pf0Access a
    | .staging => s.stagingAccess a)

end Sys2Proof.Machine
end

