-- ==== Sys2Proof/Machine/Dispatch.lean ====
section
/-! DEFINITION. The dispatch: one arm per instruction, each one direct call of its meaning. -/

namespace Sys2Proof.Machine

/-- What an instruction does: one arm per constructor. -/
def exec (i : Instr) (s : State) : Host.Outcome State Fault Refusal :=
  match i with
  | .add a0 a1 a2 => Sys2Proof.Machine.execAdd a0 a1 a2 s
  | .sub a0 a1 a2 => Sys2Proof.Machine.execSub a0 a1 a2 s
  | .mul a0 a1 a2 => Sys2Proof.Machine.execMul a0 a1 a2 s
  | .mulhi a0 a1 a2 => Sys2Proof.Machine.execMulhi a0 a1 a2 s
  | .mulhn a0 a1 a2 => Sys2Proof.Machine.execMulhn a0 a1 a2 s
  | .div a0 a1 a2 => Sys2Proof.Machine.execDiv a0 a1 a2 s
  | .divn a0 a1 a2 => Sys2Proof.Machine.execDivn a0 a1 a2 s
  | .rem a0 a1 a2 => Sys2Proof.Machine.execRem a0 a1 a2 s
  | .remn a0 a1 a2 => Sys2Proof.Machine.execRemn a0 a1 a2 s
  | .and a0 a1 a2 => Sys2Proof.Machine.execAnd a0 a1 a2 s
  | .or a0 a1 a2 => Sys2Proof.Machine.execOr a0 a1 a2 s
  | .xor a0 a1 a2 => Sys2Proof.Machine.execXor a0 a1 a2 s
  | .andn a0 a1 a2 => Sys2Proof.Machine.execAndn a0 a1 a2 s
  | .shl a0 a1 a2 => Sys2Proof.Machine.execShl a0 a1 a2 s
  | .shr a0 a1 a2 => Sys2Proof.Machine.execShr a0 a1 a2 s
  | .sar a0 a1 a2 => Sys2Proof.Machine.execSar a0 a1 a2 s
  | .rotl a0 a1 a2 => Sys2Proof.Machine.execRotl a0 a1 a2 s
  | .min a0 a1 a2 => Sys2Proof.Machine.execMin a0 a1 a2 s
  | .minn a0 a1 a2 => Sys2Proof.Machine.execMinn a0 a1 a2 s
  | .max a0 a1 a2 => Sys2Proof.Machine.execMax a0 a1 a2 s
  | .maxn a0 a1 a2 => Sys2Proof.Machine.execMaxn a0 a1 a2 s
  | .clz a0 a1 => Sys2Proof.Machine.execClz a0 a1 s
  | .ctz a0 a1 => Sys2Proof.Machine.execCtz a0 a1 s
  | .popc a0 a1 => Sys2Proof.Machine.execPopc a0 a1 s
  | .sel a0 a1 a2 a3 => Sys2Proof.Machine.execSel a0 a1 a2 a3 s
  | .cmp a0 a1 a2 a3 => Sys2Proof.Machine.execCmp a0 a1 a2 a3 s
  | .addi a0 a1 a2 => Sys2Proof.Machine.execAddi a0 a1 a2 s
  | .andi a0 a1 a2 => Sys2Proof.Machine.execAndi a0 a1 a2 s
  | .ori a0 a1 a2 => Sys2Proof.Machine.execOri a0 a1 a2 s
  | .xori a0 a1 a2 => Sys2Proof.Machine.execXori a0 a1 a2 s
  | .shli a0 a1 a2 => Sys2Proof.Machine.execShli a0 a1 a2 s
  | .shri a0 a1 a2 => Sys2Proof.Machine.execShri a0 a1 a2 s
  | .sari a0 a1 a2 => Sys2Proof.Machine.execSari a0 a1 a2 s
  | .sext a0 a1 a2 => Sys2Proof.Machine.execSext a0 a1 a2 s
  | .zext a0 a1 a2 => Sys2Proof.Machine.execZext a0 a1 a2 s
  | .movi a0 a1 => Sys2Proof.Machine.execMovi a0 a1 s
  | .movhi a0 a1 a2 => Sys2Proof.Machine.execMovhi a0 a1 a2 s
  | .lds a0 a1 a2 a3 => Sys2Proof.Machine.execLds a0 a1 a2 a3 s
  | .sts a0 a1 a2 a3 => Sys2Proof.Machine.execSts a0 a1 a2 a3 s
  | .pand a0 a1 a2 => Sys2Proof.Machine.execPand a0 a1 a2 s
  | .por a0 a1 a2 => Sys2Proof.Machine.execPor a0 a1 a2 s
  | .pxor a0 a1 a2 => Sys2Proof.Machine.execPxor a0 a1 a2 s
  | .pnot a0 a1 => Sys2Proof.Machine.execPnot a0 a1 s
  | .pmov a0 a1 => Sys2Proof.Machine.execPmov a0 a1 s
  | .br a0 => Sys2Proof.Machine.execBr a0 s
  | .brp a0 a1 a2 => Sys2Proof.Machine.execBrp a0 a1 a2 s
  | .call a0 a1 => Sys2Proof.Machine.execCall a0 a1 s
  | .ret a0 => Sys2Proof.Machine.execRet a0 s
  | .jr a0 => Sys2Proof.Machine.execJr a0 s
  | .loop a0 a1 a2 => Sys2Proof.Machine.execLoop a0 a1 a2 s
  | .loops a0 a1 a2 => Sys2Proof.Machine.execLoops a0 a1 a2 s
  | .lbrk a0 a1 => Sys2Proof.Machine.execLbrk a0 a1 s
  | .setfmt a0 => Sys2Proof.Machine.execSetfmt a0 s
  | .getfmt a0 => Sys2Proof.Machine.execGetfmt a0 s
  | .rdcyc a0 => Sys2Proof.Machine.execRdcyc a0 s
  | .waitc a0 => Sys2Proof.Machine.execWaitc a0 s
  | .waitcTargetReached a0 => Sys2Proof.Machine.execWaitcTargetReached a0 s
  | .rdwid a0 a1 => Sys2Proof.Machine.execRdwid a0 a1 s
  | .rdsr a0 a1 => Sys2Proof.Machine.execRdsr a0 a1 s
  | .wrsr a0 a1 => Sys2Proof.Machine.execWrsr a0 a1 s
  | .trap a0 => Sys2Proof.Machine.execTrap a0 s
  | .radvcImm a0 a1 => Sys2Proof.Machine.execRadvcImm a0 a1 s
  | .radvcReg a0 a1 => Sys2Proof.Machine.execRadvcReg a0 a1 s
  | .radvpImm a0 a1 => Sys2Proof.Machine.execRadvpImm a0 a1 s
  | .radvpReg a0 a1 => Sys2Proof.Machine.execRadvpReg a0 a1 s
  | .rstat a0 a1 => Sys2Proof.Machine.execRstat a0 a1 s
  | .fladd a0 a1 => Sys2Proof.Machine.execFladd a0 a1 s
  | .flrd a0 a1 => Sys2Proof.Machine.execFlrd a0 a1 s
  | .syncWait a0 a1 => Sys2Proof.Machine.execSyncWait a0 a1 s
  | .syncPost a0 a1 => Sys2Proof.Machine.execSyncPost a0 a1 s
  | .vadd a0 a1 a2 a3 a4 => Sys2Proof.Machine.execVadd a0 a1 a2 a3 a4 s
  | .vsub a0 a1 a2 a3 a4 => Sys2Proof.Machine.execVsub a0 a1 a2 a3 a4 s
  | .vmul a0 a1 a2 a3 a4 => Sys2Proof.Machine.execVmul a0 a1 a2 a3 a4 s
  | .vfma a0 a1 a2 a3 a4 => Sys2Proof.Machine.execVfma a0 a1 a2 a3 a4 s
  | .vfms a0 a1 a2 a3 a4 => Sys2Proof.Machine.execVfms a0 a1 a2 a3 a4 s
  | .vfnma a0 a1 a2 a3 a4 => Sys2Proof.Machine.execVfnma a0 a1 a2 a3 a4 s
  | .vdiv a0 a1 a2 a3 a4 => Sys2Proof.Machine.execVdiv a0 a1 a2 a3 a4 s
  | .vmin a0 a1 a2 a3 a4 => Sys2Proof.Machine.execVmin a0 a1 a2 a3 a4 s
  | .vmax a0 a1 a2 a3 a4 => Sys2Proof.Machine.execVmax a0 a1 a2 a3 a4 s
  | .vcps a0 a1 a2 a3 a4 => Sys2Proof.Machine.execVcps a0 a1 a2 a3 a4 s
  | .vabs a0 a1 a2 a3 => Sys2Proof.Machine.execVabs a0 a1 a2 a3 s
  | .vneg a0 a1 a2 a3 => Sys2Proof.Machine.execVneg a0 a1 a2 a3 s
  | .vrnd a0 a1 a2 a3 a4 => Sys2Proof.Machine.execVrnd a0 a1 a2 a3 a4 s
  | .vclass a0 a1 a2 a3 => Sys2Proof.Machine.execVclass a0 a1 a2 a3 s
  | .vrcp a0 a1 a2 a3 => Sys2Proof.Machine.execVrcp a0 a1 a2 a3 s
  | .vrsq a0 a1 a2 a3 => Sys2Proof.Machine.execVrsq a0 a1 a2 a3 s
  | .vsqrt a0 a1 a2 a3 a4 => Sys2Proof.Machine.execVsqrt a0 a1 a2 a3 a4 s
  | .vexp2 a0 a1 a2 a3 => Sys2Proof.Machine.execVexp2 a0 a1 a2 a3 s
  | .vlog2 a0 a1 a2 a3 => Sys2Proof.Machine.execVlog2 a0 a1 a2 a3 s
  | .vsin a0 a1 a2 a3 => Sys2Proof.Machine.execVsin a0 a1 a2 a3 s
  | .vcos a0 a1 a2 a3 => Sys2Proof.Machine.execVcos a0 a1 a2 a3 s
  | .vtanh a0 a1 a2 a3 => Sys2Proof.Machine.execVtanh a0 a1 a2 a3 s
  | .vsigm a0 a1 a2 a3 => Sys2Proof.Machine.execVsigm a0 a1 a2 a3 s
  | .viadd a0 a1 a2 a3 a4 => Sys2Proof.Machine.execViadd a0 a1 a2 a3 a4 s
  | .visub a0 a1 a2 a3 a4 => Sys2Proof.Machine.execVisub a0 a1 a2 a3 a4 s
  | .vimul a0 a1 a2 a3 a4 => Sys2Proof.Machine.execVimul a0 a1 a2 a3 a4 s
  | .vimulh a0 a1 a2 a3 a4 => Sys2Proof.Machine.execVimulh a0 a1 a2 a3 a4 s
  | .vimad a0 a1 a2 a3 a4 => Sys2Proof.Machine.execVimad a0 a1 a2 a3 a4 s
  | .vimin a0 a1 a2 a3 a4 => Sys2Proof.Machine.execVimin a0 a1 a2 a3 a4 s
  | .vimax a0 a1 a2 a3 a4 => Sys2Proof.Machine.execVimax a0 a1 a2 a3 a4 s
  | .vand a0 a1 a2 a3 a4 => Sys2Proof.Machine.execVand a0 a1 a2 a3 a4 s
  | .vor a0 a1 a2 a3 a4 => Sys2Proof.Machine.execVor a0 a1 a2 a3 a4 s
  | .vxor a0 a1 a2 a3 a4 => Sys2Proof.Machine.execVxor a0 a1 a2 a3 a4 s
  | .vnot a0 a1 a2 a3 => Sys2Proof.Machine.execVnot a0 a1 a2 a3 s
  | .vshl a0 a1 a2 a3 a4 => Sys2Proof.Machine.execVshl a0 a1 a2 a3 a4 s
  | .vshr a0 a1 a2 a3 a4 => Sys2Proof.Machine.execVshr a0 a1 a2 a3 a4 s
  | .vsar a0 a1 a2 a3 a4 => Sys2Proof.Machine.execVsar a0 a1 a2 a3 a4 s
  | .vpopc a0 a1 a2 a3 => Sys2Proof.Machine.execVpopc a0 a1 a2 a3 s
  | .vclz a0 a1 a2 a3 => Sys2Proof.Machine.execVclz a0 a1 a2 a3 s
  | .vmulw a0 a1 a2 a3 a4 => Sys2Proof.Machine.execVmulw a0 a1 a2 a3 a4 s
  | .vadc a0 a1 a2 a3 a4 => Sys2Proof.Machine.execVadc a0 a1 a2 a3 a4 s
  | .vsbc a0 a1 a2 a3 a4 => Sys2Proof.Machine.execVsbc a0 a1 a2 a3 a4 s
  | .vmadc a0 a1 a2 a3 a4 => Sys2Proof.Machine.execVmadc a0 a1 a2 a3 a4 s
  | .vcmp a0 a1 a2 a3 a4 a5 => Sys2Proof.Machine.execVcmp a0 a1 a2 a3 a4 a5 s
  | .vselp a0 a1 a2 a3 a4 => Sys2Proof.Machine.execVselp a0 a1 a2 a3 a4 s
  | .vcvt a0 a1 a2 a3 a4 a5 => Sys2Proof.Machine.execVcvt a0 a1 a2 a3 a4 a5 s
  | .vqnt a0 a1 a2 a3 a4 => Sys2Proof.Machine.execVqnt a0 a1 a2 a3 a4 s
  | .vdqnt a0 a1 a2 a3 a4 => Sys2Proof.Machine.execVdqnt a0 a1 a2 a3 a4 s
  | .vpack a0 a1 a2 a3 a4 => Sys2Proof.Machine.execVpack a0 a1 a2 a3 a4 s
  | .vunpk a0 a1 a2 a3 => Sys2Proof.Machine.execVunpk a0 a1 a2 a3 s
  | .vradd a0 a1 a2 a3 => Sys2Proof.Machine.execVradd a0 a1 a2 a3 s
  | .vrmax a0 a1 a2 a3 => Sys2Proof.Machine.execVrmax a0 a1 a2 a3 s
  | .vrmin a0 a1 a2 a3 => Sys2Proof.Machine.execVrmin a0 a1 a2 a3 s
  | .vscan a0 a1 a2 a3 => Sys2Proof.Machine.execVscan a0 a1 a2 a3 s
  | .vscana a0 a1 a2 a3 a4 => Sys2Proof.Machine.execVscana a0 a1 a2 a3 a4 s
  | .vmov a0 a1 a2 a3 => Sys2Proof.Machine.execVmov a0 a1 a2 a3 s
  | .vbcst a0 a1 a2 a3 => Sys2Proof.Machine.execVbcst a0 a1 a2 a3 s
  | .vext a0 a1 a2 a3 a4 => Sys2Proof.Machine.execVext a0 a1 a2 a3 a4 s
  | .vins a0 a1 a2 a3 a4 => Sys2Proof.Machine.execVins a0 a1 a2 a3 a4 s
  | .vshfl a0 a1 a2 a3 a4 => Sys2Proof.Machine.execVshfl a0 a1 a2 a3 a4 s
  | .vslide a0 a1 a2 a3 a4 a5 => Sys2Proof.Machine.execVslide a0 a1 a2 a3 a4 a5 s
  | .vzip a0 a1 a2 a3 a4 => Sys2Proof.Machine.execVzip a0 a1 a2 a3 a4 s
  | .vunzip a0 a1 a2 a3 a4 => Sys2Proof.Machine.execVunzip a0 a1 a2 a3 a4 s
  | .vld a0 a1 a2 a3 a4 => Sys2Proof.Machine.execVld a0 a1 a2 a3 a4 s
  | .vst a0 a1 a2 a3 a4 => Sys2Proof.Machine.execVst a0 a1 a2 a3 a4 s
  | .vldx a0 a1 a2 a3 a4 a5 => Sys2Proof.Machine.execVldx a0 a1 a2 a3 a4 a5 s
  | .vstx a0 a1 a2 a3 a4 a5 => Sys2Proof.Machine.execVstx a0 a1 a2 a3 a4 a5 s
  | .vldr a0 a1 a2 a3 a4 a5 => Sys2Proof.Machine.execVldr a0 a1 a2 a3 a4 a5 s
  | .vstr a0 a1 a2 a3 a4 a5 => Sys2Proof.Machine.execVstr a0 a1 a2 a3 a4 a5 s
  | .vmodadd a0 a1 a2 a3 a4 => Sys2Proof.Machine.execVmodadd a0 a1 a2 a3 a4 s
  | .vmodsub a0 a1 a2 a3 a4 => Sys2Proof.Machine.execVmodsub a0 a1 a2 a3 a4 s
  | .vmodmul a0 a1 a2 a3 a4 => Sys2Proof.Machine.execVmodmul a0 a1 a2 a3 a4 s
  | .vmodmac a0 a1 a2 a3 a4 => Sys2Proof.Machine.execVmodmac a0 a1 a2 a3 a4 s
  | .vmodred a0 a1 a2 a3 => Sys2Proof.Machine.execVmodred a0 a1 a2 a3 s
  | .vmodneg a0 a1 a2 a3 => Sys2Proof.Machine.execVmodneg a0 a1 a2 a3 s
  | .vmsetm a0 a1 a2 => Sys2Proof.Machine.execVmsetm a0 a1 a2 s
  | .vmsetk a0 a1 a2 => Sys2Proof.Machine.execVmsetk a0 a1 a2 s
  | .vbfly a0 a1 a2 a3 a4 => Sys2Proof.Machine.execVbfly a0 a1 a2 a3 a4 s
  | .vbflyi a0 a1 a2 a3 a4 => Sys2Proof.Machine.execVbflyi a0 a1 a2 a3 a4 s
  | .vpermb a0 a1 a2 a3 => Sys2Proof.Machine.execVpermb a0 a1 a2 a3 s
  | .mcfg a0 a1 a2 => Sys2Proof.Machine.execMcfg a0 a1 a2 s
  | .mshift a0 a1 a2 => Sys2Proof.Machine.execMshift a0 a1 a2 s
  | .mswap a0 => Sys2Proof.Machine.execMswap a0 s
  | .mstg a0 a1 => Sys2Proof.Machine.execMstg a0 a1 s
  | .mrot a0 a1 => Sys2Proof.Machine.execMrot a0 a1 s
  | .mgath a0 a1 a2 a3 => Sys2Proof.Machine.execMgath a0 a1 a2 a3 s
  | .gatherComplete a0 => Sys2Proof.Machine.execGatherComplete a0 s
  | .mpush a0 a1 a2 a3 a4 => Sys2Proof.Machine.execMpush a0 a1 a2 a3 a4 s
  | .macc a0 a1 a2 => Sys2Proof.Machine.execMacc a0 a1 a2 s
  | .mldacc a0 a1 a2 => Sys2Proof.Machine.execMldacc a0 a1 a2 s
  | .mzero a0 a1 => Sys2Proof.Machine.execMzero a0 a1 s
  | .mdrain a0 a1 a2 a3 a4 => Sys2Proof.Machine.execMdrain a0 a1 a2 a3 a4 s
  | .mdrainq a0 a1 a2 a3 a4 => Sys2Proof.Machine.execMdrainq a0 a1 a2 a3 a4 s
  | .tld a0 a1 a2 a3 a4 => Sys2Proof.Machine.execTld a0 a1 a2 a3 a4 s
  | .tlds a0 a1 a2 a3 a4 => Sys2Proof.Machine.execTlds a0 a1 a2 a3 a4 s
  | .tldm a0 a1 a2 a3 a4 => Sys2Proof.Machine.execTldm a0 a1 a2 a3 a4 s
  | .sldg a0 a1 a2 a3 a4 => Sys2Proof.Machine.execSldg a0 a1 a2 a3 a4 s
  | .tst a0 a1 a2 a3 => Sys2Proof.Machine.execTst a0 a1 a2 a3 s
  | .tsts a0 a1 a2 a3 => Sys2Proof.Machine.execTsts a0 a1 a2 a3 s
  | .sstg a0 a1 a2 a3 => Sys2Proof.Machine.execSstg a0 a1 a2 a3 s
  | .pref a0 a1 => Sys2Proof.Machine.execPref a0 a1 s
  | .atadd a0 a1 a2 a3 a4 a5 => Sys2Proof.Machine.execAtadd a0 a1 a2 a3 a4 a5 s
  | .atfadd a0 a1 a2 a3 a4 a5 => Sys2Proof.Machine.execAtfadd a0 a1 a2 a3 a4 a5 s
  | .atmin a0 a1 a2 a3 a4 a5 => Sys2Proof.Machine.execAtmin a0 a1 a2 a3 a4 a5 s
  | .atmax a0 a1 a2 a3 a4 a5 => Sys2Proof.Machine.execAtmax a0 a1 a2 a3 a4 a5 s
  | .atand a0 a1 a2 a3 a4 a5 => Sys2Proof.Machine.execAtand a0 a1 a2 a3 a4 a5 s
  | .ator a0 a1 a2 a3 a4 a5 => Sys2Proof.Machine.execAtor a0 a1 a2 a3 a4 a5 s
  | .atxor a0 a1 a2 a3 a4 a5 => Sys2Proof.Machine.execAtxor a0 a1 a2 a3 a4 a5 s
  | .atswp a0 a1 a2 a3 a4 a5 => Sys2Proof.Machine.execAtswp a0 a1 a2 a3 a4 a5 s
  | .atcas a0 a1 a2 a3 a4 a5 => Sys2Proof.Machine.execAtcas a0 a1 a2 a3 a4 a5 s
  | .red a0 a1 a2 a3 a4 => Sys2Proof.Machine.execRed a0 a1 a2 a3 a4 s
  | .fence a0 a1 a2 => Sys2Proof.Machine.execFence a0 a1 a2 s
  | .vjoin a0 => Sys2Proof.Machine.execVjoin a0 s
  | .strm a0 a1 a2 a3 a4 a5 => Sys2Proof.Machine.execStrm a0 a1 a2 a3 a4 a5 s
  | .strmx a0 a1 a2 => Sys2Proof.Machine.execStrmx a0 a1 a2 s
  | .cpy a0 a1 a2 a3 => Sys2Proof.Machine.execCpy a0 a1 a2 a3 s
  | .rst a0 a1 a2 a3 => Sys2Proof.Machine.execRst a0 a1 a2 a3 s
  | .rld a0 a1 a2 a3 a4 => Sys2Proof.Machine.execRld a0 a1 a2 a3 a4 s
  | .ratm a0 a1 a2 a3 a4 a5 => Sys2Proof.Machine.execRatm a0 a1 a2 a3 a4 a5 s
  | .xred a0 a1 a2 a3 a4 => Sys2Proof.Machine.execXred a0 a1 a2 a3 a4 s
  | .lease a0 a1 a2 a3 => Sys2Proof.Machine.execLease a0 a1 a2 a3 s
  | .lrecl a0 a1 a2 a3 => Sys2Proof.Machine.execLrecl a0 a1 a2 a3 s
  | .mapr a0 a1 a2 => Sys2Proof.Machine.execMapr a0 a1 a2 s
  | .wbr a0 a1 a2 => Sys2Proof.Machine.execWbr a0 a1 a2 s
  | .invr a0 a1 => Sys2Proof.Machine.execInvr a0 a1 s
  | .krot a0 a1 a2 a3 => Sys2Proof.Machine.execKrot a0 a1 a2 a3 s
  | .kqry a0 a1 a2 a3 => Sys2Proof.Machine.execKqry a0 a1 a2 a3 s
  | .seal a0 a1 a2 a3 => Sys2Proof.Machine.execSeal a0 a1 a2 a3 s
  | .unseal a0 a1 a2 a3 => Sys2Proof.Machine.execUnseal a0 a1 a2 a3 s
  | .scrub a0 a1 a2 => Sys2Proof.Machine.execScrub a0 a1 a2 s
  | .meas a0 a1 a2 => Sys2Proof.Machine.execMeas a0 a1 a2 s
  | .loadDataArrival a0 => Sys2Proof.Machine.execLoadDataArrival a0 s
  | .flagPostArrival a0 => Sys2Proof.Machine.execFlagPostArrival a0 s
  | .memoryQueueDepart a0 => Sys2Proof.Machine.execMemoryQueueDepart a0 s
  | .gatewayRequest a0 => Sys2Proof.Machine.execGatewayRequest a0 s
  | .pageRequestEnqueue a0 => Sys2Proof.Machine.execPageRequestEnqueue a0 s
  | .pageRequestRecordWrite a0 => Sys2Proof.Machine.execPageRequestRecordWrite a0 s
  | .lanternStage2Answer a0 => Sys2Proof.Machine.execLanternStage2Answer a0 s
  | .sideLogReplay a0 => Sys2Proof.Machine.execSideLogReplay a0 s
  | .homeSliceRequest a0 a1 a2 => Sys2Proof.Machine.execHomeSliceRequest a0 a1 a2 s
  | .pageReencryption a0 => Sys2Proof.Machine.execPageReencryption a0 s
  | .engineCommandAccept a0 => Sys2Proof.Machine.execEngineCommandAccept a0 s
  | .engineCommandComplete a0 => Sys2Proof.Machine.execEngineCommandComplete a0 s
  | .streamSlotStart a0 a1 => Sys2Proof.Machine.execStreamSlotStart a0 a1 s
  | .streamSlotComplete a0 a1 => Sys2Proof.Machine.execStreamSlotComplete a0 a1 s
  | .maprFillComplete a0 a1 => Sys2Proof.Machine.execMaprFillComplete a0 a1 s
  | .chunkFillComplete a0 a1 a2 a3 => Sys2Proof.Machine.execChunkFillComplete a0 a1 a2 a3 s
  | .strandRestore a0 a1 => Sys2Proof.Machine.execStrandRestore a0 a1 s
  | .strandRelease a0 => Sys2Proof.Machine.execStrandRelease a0 s
  | .launchComplete a0 a1 a2 => Sys2Proof.Machine.execLaunchComplete a0 a1 a2 s
  | .launchRecordRead a0 a1 => Sys2Proof.Machine.execLaunchRecordRead a0 a1 s
  | .launchWaitPoll a0 a1 a2 => Sys2Proof.Machine.execLaunchWaitPoll a0 a1 a2 s
  | .groupDispatch a0 a1 a2 => Sys2Proof.Machine.execGroupDispatch a0 a1 a2 s
  | .launchStarvationTimeout a0 a1 a2 => Sys2Proof.Machine.execLaunchStarvationTimeout a0 a1 a2 s
  | .clusterLend a0 a1 => Sys2Proof.Machine.execClusterLend a0 a1 s
  | .borrowIdleTimeout a0 => Sys2Proof.Machine.execBorrowIdleTimeout a0 s
  | .clusterReclaim a0 => Sys2Proof.Machine.execClusterReclaim a0 s
  | .reclaimPhase1Timeout a0 => Sys2Proof.Machine.execReclaimPhase1Timeout a0 s
  | .contractAdmit a0 a1 => Sys2Proof.Machine.execContractAdmit a0 a1 s
  | .jobRelease a0 a1 => Sys2Proof.Machine.execJobRelease a0 a1 s
  | .contractOverrun a0 a1 => Sys2Proof.Machine.execContractOverrun a0 a1 s
  | .deadlineMiss a0 a1 => Sys2Proof.Machine.execDeadlineMiss a0 a1 s
  | .gangReady a0 => Sys2Proof.Machine.execGangReady a0 s
  | .gangTimeout a0 => Sys2Proof.Machine.execGangTimeout a0 s
  | .eventRingOverflow a0 => Sys2Proof.Machine.execEventRingOverflow a0 s
  | .s1InvalidationComplete a0 => Sys2Proof.Machine.execS1InvalidationComplete a0 s
  | .dieIsolationTimeout a0 => Sys2Proof.Machine.execDieIsolationTimeout a0 s
  | .matchingBoundary a0 => Sys2Proof.Machine.execMatchingBoundary a0 s
  | .beaconLossTimeout a0 => Sys2Proof.Machine.execBeaconLossTimeout a0 s
  | .messageRoute a0 => Sys2Proof.Machine.execMessageRoute a0 s
  | .tdxAcceptExpiry a0 => Sys2Proof.Machine.execTdxAcceptExpiry a0 s
  | .tdxAgreementTimeout a0 => Sys2Proof.Machine.execTdxAgreementTimeout a0 s
  | .leaseAnswerTimeout a0 => Sys2Proof.Machine.execLeaseAnswerTimeout a0 s
  | .lackTimeout a0 => Sys2Proof.Machine.execLackTimeout a0 s
  | .region => Sys2Proof.Machine.execRegion s
  | .endreg => Sys2Proof.Machine.execEndreg s
  | .eret => Sys2Proof.Machine.execEret s
  | .done => Sys2Proof.Machine.execDone s
  | .yield => Sys2Proof.Machine.execYield s
  | .drainPoint => Sys2Proof.Machine.execDrainPoint s
  | .mergeYield => Sys2Proof.Machine.execMergeYield s
  | .dividerBusyExpiry a0 => Sys2Proof.Machine.execDividerBusyExpiry a0 s
  | .prespWrite a0 a1 => Sys2Proof.Machine.execPrespWrite a0 a1 s
  | .promiseExpiry a0 => Sys2Proof.Machine.execPromiseExpiry a0 s
  | .trapEntry a0 => Sys2Proof.Machine.execTrapEntry a0 s
  | .pendingTrapTake a0 => Sys2Proof.Machine.execPendingTrapTake a0 s
  | .ctxcmdResume a0 a1 => Sys2Proof.Machine.execCtxcmdResume a0 a1 s
  | .ctxcmdAbort a0 a1 => Sys2Proof.Machine.execCtxcmdAbort a0 a1 s
  | .preemptRequest a0 => Sys2Proof.Machine.execPreemptRequest a0 s
  | .strandSave a0 => Sys2Proof.Machine.execStrandSave a0 s
  | .drainBoundExpiry a0 => Sys2Proof.Machine.execDrainBoundExpiry a0 s
  | .lqcfgWrite a0 a1 a2 => Sys2Proof.Machine.execLqcfgWrite a0 a1 a2 s
  | .lqnotifyWrite a0 a1 a2 => Sys2Proof.Machine.execLqnotifyWrite a0 a1 a2 s
  | .lcancelWrite a0 a1 => Sys2Proof.Machine.execLcancelWrite a0 a1 s
  | .contractRemove a0 a1 => Sys2Proof.Machine.execContractRemove a0 a1 s
  | .gready a0 a1 => Sys2Proof.Machine.execGready a0 a1 s
  | .gabort a0 a1 => Sys2Proof.Machine.execGabort a0 a1 s
  | .prqconsWrite a0 a1 => Sys2Proof.Machine.execPrqconsWrite a0 a1 s
  | .evconsWrite a0 a1 => Sys2Proof.Machine.execEvconsWrite a0 a1 s
  | .fevconsWrite a0 => Sys2Proof.Machine.execFevconsWrite a0 s
  | .s1rootWrite a0 a1 => Sys2Proof.Machine.execS1rootWrite a0 a1 s
  | .s1invAll a0 => Sys2Proof.Machine.execS1invAll a0 s
  | .s1invPage a0 a1 => Sys2Proof.Machine.execS1invPage a0 a1 s
  | .contextReset a0 a1 => Sys2Proof.Machine.execContextReset a0 a1 s
  | .queueReset a0 a1 => Sys2Proof.Machine.execQueueReset a0 a1 s
  | .engineReset a0 => Sys2Proof.Machine.execEngineReset a0 s
  | .partitionReset a0 => Sys2Proof.Machine.execPartitionReset a0 s
  | .deviceReset => Sys2Proof.Machine.execDeviceReset s
  | .vfFunctionLevelReset a0 => Sys2Proof.Machine.execVfFunctionLevelReset a0 s
  | .pf0FunctionLevelReset => Sys2Proof.Machine.execPf0FunctionLevelReset s
  | .resetRungTimeout a0 a1 => Sys2Proof.Machine.execResetRungTimeout a0 a1 s
  | .memclsWrite a0 a1 => Sys2Proof.Machine.execMemclsWrite a0 a1 s
  | .misscntRead a0 a1 a2 => Sys2Proof.Machine.execMisscntRead a0 a1 a2 s
  | .dielinkTagFail a0 => Sys2Proof.Machine.execDielinkTagFail a0 s
  | .dielinkRetrain a0 => Sys2Proof.Machine.execDielinkRetrain a0 s
  | .beacon a0 a1 => Sys2Proof.Machine.execBeacon a0 a1 s
  | .dataFlit a0 a1 => Sys2Proof.Machine.execDataFlit a0 a1 s
  | .relayDataFlit a0 a1 a2 => Sys2Proof.Machine.execRelayDataFlit a0 a1 a2 s
  | .nack a0 a1 a2 => Sys2Proof.Machine.execNack a0 a1 a2 s
  | .restripe a0 a1 a2 => Sys2Proof.Machine.execRestripe a0 a1 a2 s
  | .laserModuleFail a0 a1 => Sys2Proof.Machine.execLaserModuleFail a0 a1 s
  | .lossOfLightDeclare a0 a1 => Sys2Proof.Machine.execLossOfLightDeclare a0 a1 s
  | .fabricRequestReceive a0 => Sys2Proof.Machine.execFabricRequestReceive a0 s
  | .fabricCompletion a0 => Sys2Proof.Machine.execFabricCompletion a0 s
  | .fwinWrite a0 a1 a2 => Sys2Proof.Machine.execFwinWrite a0 a1 a2 s
  | .portRetrain a0 => Sys2Proof.Machine.execPortRetrain a0 s
  | .retrainAttempt a0 a1 a2 a3 a4 => Sys2Proof.Machine.execRetrainAttempt a0 a1 a2 a3 a4 s
  | .tdxInitiate a0 a1 => Sys2Proof.Machine.execTdxInitiate a0 a1 s
  | .tdxAcceptArm a0 a1 => Sys2Proof.Machine.execTdxAcceptArm a0 a1 s
  | .keyAgreementStep1 a0 a1 => Sys2Proof.Machine.execKeyAgreementStep1 a0 a1 s
  | .keyAgreementStep2 a0 a1 => Sys2Proof.Machine.execKeyAgreementStep2 a0 a1 s
  | .keyAgreementStep3 a0 a1 => Sys2Proof.Machine.execKeyAgreementStep3 a0 a1 s
  | .keyAgreementStep4 a0 a1 => Sys2Proof.Machine.execKeyAgreementStep4 a0 a1 s
  | .leaseRequest a0 a1 a2 => Sys2Proof.Machine.execLeaseRequest a0 a1 a2 s
  | .leaseAnswer a0 a1 a2 a3 => Sys2Proof.Machine.execLeaseAnswer a0 a1 a2 a3 s
  | .levict a0 a1 => Sys2Proof.Machine.execLevict a0 a1 s
  | .lack a0 => Sys2Proof.Machine.execLack a0 s
  | .hostApertureAccess a0 a1 => Sys2Proof.Machine.execHostApertureAccess a0 a1 s
  | .getTdispVersion a0 => Sys2Proof.Machine.execGetTdispVersion a0 s
  | .getTdispCapabilities a0 => Sys2Proof.Machine.execGetTdispCapabilities a0 s
  | .lockInterfaceRequest a0 => Sys2Proof.Machine.execLockInterfaceRequest a0 s
  | .getDeviceInterfaceReport a0 => Sys2Proof.Machine.execGetDeviceInterfaceReport a0 s
  | .getDeviceInterfaceState a0 => Sys2Proof.Machine.execGetDeviceInterfaceState a0 s
  | .startInterfaceRequest a0 => Sys2Proof.Machine.execStartInterfaceRequest a0 s
  | .stopInterfaceRequest a0 => Sys2Proof.Machine.execStopInterfaceRequest a0 s
  | .stage2ChangeRequest a0 a1 => Sys2Proof.Machine.execStage2ChangeRequest a0 a1 s
  | .getVersion a0 => Sys2Proof.Machine.execGetVersion a0 s
  | .getCapabilities a0 => Sys2Proof.Machine.execGetCapabilities a0 s
  | .negotiateAlgorithms a0 a1 => Sys2Proof.Machine.execNegotiateAlgorithms a0 a1 s
  | .getDigests a0 => Sys2Proof.Machine.execGetDigests a0 s
  | .getCertificate a0 a1 => Sys2Proof.Machine.execGetCertificate a0 a1 s
  | .challenge a0 a1 => Sys2Proof.Machine.execChallenge a0 a1 s
  | .getMeasurements a0 a1 => Sys2Proof.Machine.execGetMeasurements a0 a1 s
  | .keyExchange a0 a1 => Sys2Proof.Machine.execKeyExchange a0 a1 s
  | .finish a0 a1 a2 => Sys2Proof.Machine.execFinish a0 a1 a2 s
  | .keyUpdate a0 a1 => Sys2Proof.Machine.execKeyUpdate a0 a1 s
  | .heartbeat a0 a1 => Sys2Proof.Machine.execHeartbeat a0 a1 s
  | .endSession a0 a1 => Sys2Proof.Machine.execEndSession a0 a1 s
  | .ideKm a0 a1 a2 a3 => Sys2Proof.Machine.execIdeKm a0 a1 a2 a3 s
  | .powerUp => Sys2Proof.Machine.execPowerUp s
  | .recovctlGo a0 => Sys2Proof.Machine.execRecovctlGo a0 s
  | .featctlGo => Sys2Proof.Machine.execFeatctlGo s
  | .partitionCreate a0 => Sys2Proof.Machine.execPartitionCreate a0 s
  | .partitionDestroy a0 => Sys2Proof.Machine.execPartitionDestroy a0 s
  | .rbreqGo a0 => Sys2Proof.Machine.execRbreqGo a0 s
  | .readbackComplete => Sys2Proof.Machine.execReadbackComplete s
  | .powerClamp a0 => Sys2Proof.Machine.execPowerClamp a0 s
  | .thermalShutdown => Sys2Proof.Machine.execThermalShutdown s
  | .registerWrite a0 a1 a2 => Sys2Proof.Machine.execRegisterWrite a0 a1 a2 s
  | .nop => Sys2Proof.Machine.execNop s
  | .powerRemoval => Sys2Proof.Machine.execPowerRemoval s
  | .dieLinkDown a0 => Sys2Proof.Machine.execDieLinkDown a0 s
  | .tenantRootKeyProvision a0 a1 a2 => Sys2Proof.Machine.execTenantRootKeyProvision a0 a1 a2 s

end Sys2Proof.Machine
end

