-- ==== Sys2Proof/Machine/Issue.lean ====
section
/-! DEFINITION. One core's part of a cycle: what befalls its two strands before they issue, the merge stage (R62, R65, R131, R132, R352),
and the issue of a bundle with its slots, its completion and its drain point (R5, R82, R104, R118, R282 to R285, R302). -/

namespace Sys2Proof.Machine

/-- Goes on from a next state; a stop stays. -/
def andThen (o : Out) (f : State → Out) : Out :=
  match o with
  | .next s => f s
  | .fault r => .fault r
  | .refused r => .refused r

/-- Runs instructions one after another. -/
def runAll : List Instr → State → Out
  | [], s => .next s
  | i :: r, s => andThen (exec i s) (runAll r)

/-! ## Issue -/

/-- A jump to a register's target is tested before any other slot (R104). -/
def isJump : Instr → Bool
  | .jr _ | .ret _ => true
  | _ => false

/-- A header post. -/
def isPost : Instr → Bool
  | .syncPost _ _ => true
  | _ => false

/-- The bundle that a strand issues now. -/
def Strand.opening (x : Strand) (w : BundleWord) : Issue :=
  { idx := x.pc, word := w, n := x.nextN, handler := x.handler, first := x.firstIssue, perf := x.donePerf w, trapped := none,
    void := false, next := x.reissue.bind Replay.next, done := false, eret := (x.reissue.map Replay.eret).getD false, dp := false,
    regOp := x.reissue.bind Replay.regOp, yield := false, mh := false, await := [], rings := x.rings }

/-- Strand `k` opens its bundle: it becomes the strand in issue. -/
def State.openBundle (s : State) (k : Nat) (w : BundleWord) : State :=
  let x := s.strand k
  { s with cur := k }.setStrand k
    { x with iss := x.opening w, ord := x.ord + 1, served := false, holdFor := 0, vxHold := none, released := false }

/-- The steps of the bundle that precede the others: the header's but its post, and a jump. -/
def Strand.early (x : Strand) (w : BundleWord) : List Instr :=
  (if x.firstIssue then (hdrActions (slotOf w 0)).filter fun i => !isPost i else []) ++ ((x.todo w 0).filter isJump).toList

/-- RDSR and RSTAT read the registers as they stand at issue (R83, R119). -/
def isRead : Instr → Bool
  | .rdsr _ _ | .rstat _ _ => true
  | _ => false

/-- VJOIN stands before the accesses of its own bundle (R213). -/
def isJoin : Instr → Bool
  | .vjoin _ => true
  | _ => false

/-- The header's post, which acts at the first issue alone (R285). -/
def Strand.posts (x : Strand) (w : BundleWord) : List Instr :=
  if x.firstIssue then (hdrActions (slotOf w 0)).filter isPost else []

/-- The steps that follow: reads of system registers, VJOIN, slots B, C and D, slot A, whose effects on the rings, the loops and the flags come
after theirs (R118), and the header's post. -/
def Strand.late' (x : Strand) (w : BundleWord) : List Instr :=
  ((x.todo w 0).filter isRead).toList ++ ((x.todo w 3).filter isJoin).toList ++ (x.todo w 1).toList ++ (x.todo w 2).toList ++
    ((x.todo w 3).filter fun i => !isJoin i).toList ++ ((x.todo w 0).filter fun i => !isJump i && !isRead i).toList ++
    x.posts w ++ (if w = 0 then [.nop] else [])

/-- The counts after a bundle of the strand has issued without a trap, and the end of its replay. -/
def Strand.counted (x : Strand) : Strand :=
  let i := x.iss
  if i.handler then { x with hcnt := i.n + 1, hreplay := none, iss := .none } else { x with sbn := i.n + 1, replay := none, iss := .none }

/-- The end of the issue of the bundle of the strand in issue (R37, R105, R108, R112, R123, R285, R287). -/
def State.closeBundle (s : State) : State :=
  let x := s.me
  let i := x.iss
  if i.done then s.setMe { x with life := .doneWait, drainAt := none, asked := false, iss := .none }
  else if i.handler = true ∧ x.handler = false then s.setMe { x with iss := .none }
  else
    let t := (s.setMe (x.complete i.idx i.next).counted).regionOp i.idx i.n i.regOp
    if i.eret then t.ret else t

/-- What follows the issue: trap entry once slot D is accepted, completion, at a drain point the kernel latches zero and a save, the question
to Lamplighter at a YIELD (R134, R283, R302, R303). -/
def State.closeIssue (s : State) (k : Nat) : State :=
  let i := (s.strand k).iss
  if i.trapped.isSome then
    let t := s.setStrand k (s.strand k).voidAsk
    if i.await.isEmpty then t.trapEntry k else t
  else
    let t := { s with cur := k }.closeBundle
    if i.dp = true ∧ i.first = true ∧ i.handler = false ∧ i.done = false ∧ t.drainPoint k i.n = true then
      let u := t.setStrand k { t.strand k with latK := .zero }
      if (u.strand k).life = .draining then (u.setStrand k { u.strand k with dpHit := true }).save k
      else if i.yield then u.yieldAt k
      else u
    else t

/-- Strand `k` issues the bundle it presents. -/
def State.issueBundle (s : State) (k : Nat) : Out :=
  let x := s.strand k
  let w := x.bundleAt x.pc
  andThen (runAll (x.early w) (s.openBundle k w)) fun t =>
    andThen (runAll (if (t.strand k).iss.void then x.posts w else x.late' w) t) fun u => .next (u.closeIssue k)

/-! ## The merge stage -/

/-- A bundle presented to the merge stage: its strand, whether no cause of its own holds it, the flag and count it waits for, the hold
cycles of bank reads it has left, the registers it reads of each bank, the slots it occupies, its merge hint, and whether it has served
its bank-read holds. -/
structure Bid where
  k      : Nat
  ready  : Bool
  wait   : Option (Nat × Nat)
  need   : Nat
  reads  : List Nat
  occ    : BitVec 4
  yields : Bool
  ended  : Bool
  deriving DecidableEq, Repr

/-- Strand `k` presents its bundle: fills that it needs start, and the delays of a trap entry and of VLDX and VSTX run. The bundle is looked at
as it would issue, with what is due visible; nothing becomes visible before it does issue (R83, R286). A slot that has performed counts as
free when its bundle is reissued, a point that R62 and R285 leave open (log entry 20). -/
def State.present (s : State) (k : Nat) : State × Option Bid :=
  let x := s.strand k
  if (Tbl.find s.strands k).isNone then (s, none)
  else if x.holdFor ≠ 0 ∧ x.served = false then (s.setStrand k { x with holdFor := x.holdFor - 1 }, none)
  else if x.reaches = false then (s, none)
  else
    let w := x.bundleAt x.pc
    let y := (s.settleFor k).strand k
    let f := (s.stopStream k y w).fillFor k true (y.touch w)
    let g := f.2.fillGather k (y.gatherTouch w)
    let left := y.vxHold.getD (y.bankLines w - 1)
    let u := g.2.setStrand k { g.2.strand k with vxHold := some (left - 1) }
    let reads := y.bankReads w
    (u, some { k := k, ready := !f.1 && !g.1 && !(u.settleFor k).slotHolds k w && left == 0, wait := y.headerWait w,
               need := if y.served then y.holdFor else bankHold reads, reads := reads, occ := ~~~(y.donePerf w),
               yields := y.yieldHint w, ended := y.served })

/-- Of two bundles of a core, the strand that R65 and R352 prefer. -/
def State.primary (s : State) (a b : Bid) : Nat :=
  if a.yields != b.yields then (if a.yields then b.k else a.k)
  else if (s.strand a.k).contract != (s.strand b.k).contract then (if (s.strand a.k).contract then a.k else b.k)
  else if (s.core (coreOf a.k)).tie then b.k else a.k

/-- The strand whose bank-read hold cycle this is (R132). -/
def State.holder (s : State) (bids : List Bid) : Option Nat :=
  let l := bids.filter fun b => b.need != 0
  match l.find? Bid.ended, l with
  | some b, _ => some b.k
  | none, [] => none
  | none, [b] => some b.k
  | none, a :: b :: _ => some (s.primary a b)

/-- A bundle issues in this cycle as far as bank-read holds allow: it has none left, and reads no register while the other strand holds,
unless its own holds have just ended (R132). -/
def Bid.free (h : Option Nat) (b : Bid) : Bool :=
  b.ready && b.need == 0 && (h.isNone || b.reads.all (fun n => n == 0) || b.ended)

/-- The waits of the bundles presented, in strand order, each seeing what the ones before it take (R23). -/
def State.waitsMet (s : State) : List Bid → List (Nat × Nat × Nat) → List Bid
  | [], _ => []
  | b :: r, taken =>
    match b.wait with
    | none => b :: s.waitsMet r taken
    | some (f, c) =>
      let g := (s.strand b.k).gtag
      let gone := ((taken.filter fun e => e.1 == g && e.2.1 == f).map fun e => e.2.2).foldl (· + ·) 0
      if c + gone ≤ (Tbl.getD (s.grp g).flags f 0).toNat then b :: s.waitsMet r ((g, f, c) :: taken) else s.waitsMet r taken

/-- Two bundles collide: they occupy a common slot, or together read more than two registers of a bank (R62, R132). A bundle whose own hold
cycles have ended counts with two reads of a bank at most, a case R132 does not name (log entry 20). -/
def collide (a b : Bid) : Bool :=
  a.occ &&& b.occ != 0 || (a.reads.zip b.reads).any fun e => decide (2 < min e.1 2 + min e.2 2)

/-- The strands that issue, and whether the tie bit flips (R352). -/
def State.winners (s : State) : List Bid → List Nat × Bool
  | [a, b] => if collide a b then ([s.primary a b], true) else ([a.k, b.k], true)
  | l => (l.map Bid.k, false)

/-- One cycle of the bank-read hold of a strand. Where its holds begin as those of the other strand's bundle have ended, they take one cycle more
by free choice: R132 says both that they begin in the cycle in which that bundle issues and that k + k' + 1 cycles pass (log entry 20). -/
def State.bankCycle (s : State) (h : Option Nat) (bids : List Bid) : State :=
  match bids.find? fun b => some b.k == h with
  | some b =>
    let q := if b.ended || !(bids.any fun e => e.k != b.k && e.ended && e.need == 0) then (0, s) else s.choose 2
    q.2.setStrand b.k { q.2.strand b.k with served := true, holdFor := b.need - 1 + q.1 }
  | none => s

/-- The merge stage of core `c` for the bundles presented, and their issue in strand order: what is due at a bundle that issues becomes visible. -/
def State.merge (s : State) (c : Nat) (bids : List Bid) : Out :=
  let h := s.holder bids
  let win := s.winners (s.waitsMet (bids.filter (Bid.free h)) [])
  let t := s.bankCycle h bids
  let u := if win.2 then t.setCore c { t.core c with tie := !(t.core c).tie } else t
  win.1.foldl (fun (o : Out) k => andThen o fun v => ((v.settleFor k).askPorts k).issueBundle k) (.next u)

/-! ## A core's part of a cycle -/

/-- What befalls a strand whatever its bundle: the end of a fault wait, pre-emption, the expiry of its bound (R36, R303, R304). -/
def State.wake (s : State) (k : Nat) : State :=
  if (Tbl.find s.strands k).isNone then s
  else
    let t := ((if (s.strand k).life = .faultWait then s.faultState k else s).enterDraining k).boundExpired k
    if (t.strand k).halted then t.save k else t

/-- What befalls a strand whose core is not frozen before its bundle is looked at: a trap entry that no acceptance delays any more, and the
ADDRESS of a load whose arrival bundle has come (R283, R290). -/
def State.arrive (s : State) (k : Nat) : State :=
  let t := if (s.strand k).iss.trapped.isSome then s.trapEntry k else s
  if (Tbl.find t.strands k).isSome = true ∧ (t.strand k).reaches = true then t.arriveAddress k (t.strand k).nextN else t

/-- Decode of the bundle a strand presents (R82), and the pending trap that is taken before it (R290): the state, and whether a trap was
taken. The bundle does not issue, so no write due at it becomes visible first (R286), and no slot performs that had not before. -/
def State.decodeCheck (s : State) (k : Nat) : State × Bool :=
  if (s.strand k).reaches = false ∨ (Tbl.find s.strands k).isNone = true then (s, false)
  else
    let t := s.setStrand k (s.strand k).voidAsk
    let x := t.strand k
    match x.illegal x.pc (x.bundleAt x.pc), x.nextPending with
    | some (slot, v), _ =>
      (t.trap k x.pc x.nextN x.handler x.firstIssue (x.reissue.bind Replay.next) ((x.reissue.map Replay.perf).getD 0)
        ⟨.illegal, slot, BitVec.ofNat 64 v, false, 0, 0⟩, true)
    | none, some _ => (t.takePending k, true)
    | none, none => (s, false)

/-- One cycle of the divider of a core that is not frozen (R87). -/
def State.divCycle (s : State) (c : Nat) : State :=
  if (s.core c).divBusy = 0 then s else s.setCore c { s.core c with divBusy := (s.core c).divBusy - 1 }

/-- PROMISE of the commands of a core's strands. -/
def State.promises (s : State) (c : Nat) : State :=
  ((s.cmds.filter fun m => m.core == c).map Cmd.id).foldl (fun (t : State) i => t.promiseCheck i) s

/-- What core `c` presents to its merge stage in a cycle in which it is not frozen by the clamp: the state and the bundles, or no bundles
where a strand's freeze stops the core, in which no bundle is decoded and no trap is taken (R8). -/
def State.presented (s : State) (c : Nat) : State × Option (List Bid) :=
  let a := 2 * c
  let b := 2 * c + 1
  let t := (s.wake a).wake b
  if t.freezes a || t.freezes b then (t.promises c, none)
  else
    let da := (((t.arrive a).arrive b).promises c).decodeCheck a
    let db := da.1.decodeCheck b
    let u := (if (db.1.strand a).life = .faultWait ∨ da.2 = true then db.1 else db.1.faultState a)
    let v := (if (u.strand b).life = .faultWait ∨ db.2 = true then u else u.faultState b)
    let w := v.divCycle c
    let pa := if da.2 then (w, none) else w.present a
    let pb := if db.2 then (pa.1, none) else pa.1.present b
    (pb.1, some (pa.2.toList ++ pb.2.toList))

/-- What a core does in a cycle, the end of the cycle apart. In a cycle in which the clamp freezes it nothing issues, but its clock counts on:
a drain bound may end and a promise pass (R6, R406). -/
def State.coreIssue (s : State) (c : Nat) : Out :=
  if (s.core c).frozen then
    let t := ((s.wake (2 * c)).wake (2 * c + 1)).promises c
    .next (t.setCore c { t.core c with frozen := false })
  else match (s.presented c).2 with
    | none => .next (s.presented c).1
    | some bids => (s.presented c).1.merge c bids

/-- The part of a cycle of core `c`: its bundles issue, and its gathers read the SPAD (R191). -/
def State.coreTurn (s : State) (c : Nat) : Out := andThen (s.coreIssue c) fun t => .next (t.gatherCycle c)

/-! ## The end of a cycle -/

/-- A lent cluster on which a strand runs is not idle (R336). -/
def State.noteBusy (s : State) : State :=
  { s with clusters := s.clusters.map fun e =>
      if e.2.lentTo.isSome && !s.emptyCluster e.1 then (e.1, { e.2 with idleAt := s.clk }) else e }

/-- A cycle passes before the first event of the agenda. -/
def agendaCycle : List (Nat × Instr) → List (Nat × Instr)
  | (n + 1, e) :: r => (n, e) :: r
  | l => l

/-- The end of a cycle: the pre-emption requests of the cycle take effect (R37), FLRD's view of the flags, the transfer units' view of the rings, the cancels and PCTL's actions of this cycle (R350, R404), budgets, the clock, and
the posts of headers that reach their flag files before the waits of the next cycle are tested (R20, R23, R64, R121). -/
def State.endCycle (s : State) : State :=
  let t := ((s.strands.map Prod.fst).foldl State.endAsk s).freePosts.chargeJobs.noteBusy
  let u : State := { t with
    turn := 0
    clk := t.clk + 1
    strands := t.strands.map fun e => (e.1, { e.2 with adv := none })
    groups := t.groups.map fun e => (e.1, { e.2 with prev := e.2.flags })
    parts := t.parts.map fun e => (e.1, { e.2 with cancelBusy := false })
    mgmt := { t.mgmt with pctlBusy := false }
    agenda := agendaCycle t.agenda }
  ((u.posts.filter fun p => (p.due.map fun d => decide (d ≤ u.clk)).getD false).map Post.id).foldl
    (fun (v : State) i => v.arrivePost i) u.dropStale

end Sys2Proof.Machine
end

