-- ==== Sys2Proof/Machine/Schedule.lean ====
section
/-! DEFINITION. The order of events within a run: the internal events that may come now, each of which does nothing unless its own guard
holds, and the parts of a cycle (events first, then the cores in number order, then the transfer units, whose updates a test at issue
first sees in the next cycle (R20), then the end of the cycle). The manual fixes no order among
events of one cycle (R1); the agenda of the state may name any other. -/

namespace Sys2Proof.Machine

/-- How many pieces of its work, mostly lines of 64 bytes, a unit that nothing in the agenda times does in a cycle (a page's rewrite locks each
line and then writes it). The spec bounds a command's time by its promise only (R221, R270); at this rate it ends before. DESIGN CHOICE. -/
def workPerCycle : Nat := 8

/-- The events of translation and of the memory system: page requests, the memory queue, the gateways, the side log, the home slices, and
arrivals. -/
def State.memoryEvents (s : State) : List Instr :=
  (s.faults.map fun (f : FaultRec) => Instr.pageRequestEnqueue f.id) ++
    (s.preqs.map fun (e : PageReq) => if e.stage2 then Instr.lanternStage2Answer e.tag else .pageRequestRecordWrite e.tag) ++
    (s.reqs.flatMap fun (r : Req) => match r.stage with
      | .queued => [Instr.memoryQueueDepart r.id]
      | .departed => [.gatewayRequest [r.id]]
      | .sideLog => [.sideLogReplay r.id]
      | .accepted => (if r.arriving then [Instr.gatewayRequest [r.id]] else []) ++
          ((List.range r.pieces.length).map fun i => Instr.homeSliceRequest [r.id] i .sound) ++ [.loadDataArrival r.id]
      | .arrived => [.loadDataArrival r.id]) ++
    s.rewrites.flatMap fun (e : Nat × Rewrite) => List.replicate (2 * workPerCycle) (Instr.pageReencryption e.1)

/-- The events of the engines: acceptance, progress and completion of commands and page fills, and their posts. -/
def State.engineEvents (s : State) : List Instr :=
  (s.cmds.flatMap fun (c : Cmd) => match c.kind with
    | .slot .. => []
    | .fill m p => ((s.strand c.strand).maps.filter fun (e : MapEnt) => e.index == m).map fun e =>
        Instr.maprFillComplete c.strand (e.off / 4096 + p)
    | _ => List.replicate workPerCycle (Instr.engineCommandComplete c.id) ++ [.engineCommandAccept c.id]) ++
    (s.posts.filter fun (p : Post) => p.due.isNone).map fun p => Instr.flagPostArrival p.id

/-- The events of one strand: the claims and fills of its chunks, its gathers, its WAITC target and its release. -/
def Strand.events (k : Nat) (x : Strand) : List Instr :=
  ((x.chunks.filter fun (c : Chunk) => c.filling || c.claiming).map fun (c : Chunk) => Instr.chunkFillComplete k c.store c.index true) ++
    (x.mat.gathers.map fun _ => Instr.gatherComplete k) ++ [.waitcTargetReached k, .strandRelease k]

/-- The events of Lamplighter for one partition: its launch queues, its contracts, its event ring, its invalidation and its key
agreement. -/
def State.partEvents (s : State) (p : Nat) (q : Partition) : List Instr :=
  ((List.range 8).map fun n => Instr.launchRecordRead p n) ++
    ((s.launches.filter fun (l : Launch) => l.part == p).flatMap fun l =>
      [Instr.launchWaitPoll p l.lq l.seq, .groupDispatch p l.lq l.seq, .launchStarvationTimeout p l.lq l.seq, .launchComplete p l.lq l.seq]) ++
    (q.ctrs.flatMap fun (e : Nat × Contract) =>
      [Instr.contractAdmit p e.1, .contractOverrun p e.1, .deadlineMiss p e.1, .jobRelease p e.1]) ++
    [.eventRingOverflow p, .s1InvalidationComplete p, .tdxAcceptExpiry p, .tdxAgreementTimeout p]

/-- The events of Lamplighter that concern saved groups, clusters and gangs. -/
def State.placeEvents (s : State) : List Instr :=
  ((s.groups.filter fun (e : Nat × Group) => !e.2.saved.isEmpty).flatMap fun e =>
    (List.range 32).map fun c => Instr.strandRestore e.1 c) ++
    (if s.parts.isEmpty then []
     else (List.range 32).flatMap fun c =>
       [Instr.borrowIdleTimeout c, .clusterReclaim c, .reclaimPhase1Timeout c] ++
         s.parts.map fun (e : Nat × Partition) => Instr.clusterLend c e.1) ++
    s.gangs.flatMap fun (g : Gang) => [Instr.gangReady g.id, .gangTimeout g.id]

/-- A port that is locked, or has been, crosses a matching boundary in this cycle (R371). -/
def State.atBoundary (s : State) (p : Nat) : Bool := ((s.port p).lock || (s.port p).everLock) && decide (s.rotorTime p % matchUnits < cycleUnits)

/-- The events of the fabric and of Lantern: messages, matching boundaries, timeouts, readback and boot. The timeouts of the reset rungs follow
them in `eventsPart`. -/
def State.fabricEvents (s : State) : List Instr :=
  (s.msgs.map fun (m : Msg) => Instr.messageRoute m.id) ++
    ((s.ports.map Prod.fst).filter s.atBoundary).flatMap (fun p => [Instr.matchingBoundary p, .beaconLossTimeout p]) ++
    (s.cmds.map fun (c : Cmd) => Instr.leaseAnswerTimeout c.id) ++ (s.leases.map fun (l : Lease) => Instr.lackTimeout l.id) ++
    (if s.links.isEmpty then [] else (List.range 5).map Instr.dieIsolationTimeout) ++
    [.readbackComplete] ++
    (if s.power then [.powerUp] else [])

/-- The internal events that may come in this cycle. -/
def State.events (s : State) : List Instr :=
  s.memoryEvents ++ s.engineEvents ++ (s.strands.flatMap fun (e : Nat × Strand) => Strand.events e.1 e.2) ++
    (s.parts.flatMap fun (e : Nat × Partition) => s.partEvents e.1 e.2) ++ s.placeEvents ++ s.fabricEvents

/-- An event of a transfer unit (R215). -/
def isTransfer : Instr → Bool
  | .streamSlotStart _ _ | .streamSlotComplete _ _ => true
  | _ => false

/-- The events of the transfer units: slots complete and start. -/
def State.transferEvents (s : State) : List Instr :=
  (s.cmds.flatMap fun (c : Cmd) => match c.kind with
    | .slot h .. => [Instr.streamSlotComplete c.strand h]
    | _ => []) ++
  s.strands.flatMap fun (e : Nat × Strand) => e.2.streams.map fun (m : Stream) => Instr.streamSlotStart e.1 m.ring

/-- RESET_RUNG_TIMEOUT of every rung in progress (R364). -/
def State.rungTimeouts (s : State) : State := s.rungs.foldl (fun (t : State) r => t.rungTimeout r.rung r.scope) s

/-- The first part of a cycle: the next event of the agenda if its time has come, and the events part goes on; else the internal events,
which come of themselves only while the agenda names none, and the cores' parts follow. An event of a transfer unit waits for its own
part of the cycle. -/
def State.eventsPart (s : State) : Out :=
  match s.agenda with
  | (0, e) :: r => if isTransfer e then .next { s with turn := 1 } else exec e { s with agenda := r }
  | _ :: _ => .next { s with turn := 1 }
  | [] => andThen (runAll s.events { s with turn := 1 }) fun t => .next t.rungTimeouts

/-- A core's part of a cycle. -/
def State.corePart (s : State) (c : Nat) : Out := andThen (s.coreTurn c) fun t => .next { t with turn := c + 2 }

/-- The transfer units' part of a cycle: an event of theirs that the agenda names now, and the part goes on; else, while the agenda names none,
what comes of itself, and the end of the cycle. -/
def State.transferPart (s : State) : Out :=
  match s.agenda with
  | (0, e) :: r => if isTransfer e then exec e { s with agenda := r } else .next s.endCycle
  | _ :: _ => .next s.endCycle
  | [] => andThen (runAll s.transferEvents s) fun t => .next t.endCycle

/-- One part of a cycle: the events, the 256 cores of the package (R2), the transfer units. -/
def State.onePart (s : State) : Out :=
  match s.turn with
  | 0 => s.eventsPart
  | c + 1 => if c ≤ 255 then s.corePart c else s.transferPart

/-! ## Placing one bundle for the next step -/

/-- An image of the largest size whose bundle 0 is `w` and whose others are all zero. -/
def Image.one (w : BundleWord) : Image := { Image.empty with nbun := 8192, code := Tbl.put 0 [] 0 w, matrix := true }

/-- A strand right after dispatch with the whole core's windows and the array (R12, R13). -/
def Strand.placed (w : BundleWord) : Strand :=
  { Strand.idle with image := Image.one w, matrixOwn := true, nvreg := 96, accRows := 512, spadSize := 24 * 65536, sdmSize := 65536 }

/-- The group of that strand: every flag holds 8, so that any wait of a header is met at once (R64). -/
def Group.placed : Group := { Group.none with strands := [0], flags := (List.range 32).map fun f => (f, 8#32) }

/-- Strand 0 runs the one bundle, alone on core 0, and core 0's part of the cycle is next. -/
def State.placeBundle (s : State) (w : BundleWord) : State :=
  { s with
    agenda := []
    turn := 1
    strands := [(0, Strand.placed w)]
    groups := Tbl.insert s.groups 0 Group.placed
    cores := Tbl.erase s.cores 0 }

end Sys2Proof.Machine
end

