-- ==== Sys2Proof/Machine/Step.lean ====
section
/-! DEFINITION. One step of the package, and the placing of one bundle where the next step runs it. -/

namespace Sys2Proof.Machine

/-- One step: an event, or one core's part of a cycle. -/
def step (s : State) : Host.Outcome State Fault Refusal := s.onePart

/-- `s` with the bundle whose low `nbits` bits are `w` as the one that strand 0 issues in the next step. -/
def State.withFetchWord (s : State) (nbits w : Nat) : State := s.placeBundle (BitVec.ofNat 128 (w % 2 ^ nbits))

end Sys2Proof.Machine
end

