-- ==== Sys2Proof/Safety.lean ====
section
/-! DEFINITION. A safe run: every step answers a next state, and the stores stay in their canonical form; and the states that the
statements name: a slot that has performed, a slot that has trapped, and the results of each slot. -/

namespace Sys2Proof.Machine

/-- The stores of a strand are in canonical form. -/
def Strand.storesWf (x : Strand) : Bool := x.spad.wf && x.sdm.wf && x.accBase.wf

/-- Every byte store of the state is in canonical form: numbers rising, no byte listed that an unlisted one reads as; those of the strands that
are saved off-core among them. -/
def State.storesWf (s : State) : Bool :=
  s.mem.wf && s.hostMem.wf && s.mgmt.staging.wf && (s.strands.all fun e => e.2.storesWf) && s.groups.all fun e => e.2.saved.all fun r => r.2.storesWf

/-- `n` steps, as long as they answer next states. -/
def runFor : Nat → State → Option State
  | 0, s => some s
  | n + 1, s =>
    match step s with
    | .next t => runFor n t
    | _ => none

/-- A safe state: `n` steps run from it without a stop, and the stores of every state on the way are canonical. -/
def SafeFor (n : Nat) (s : State) : Prop := ∀ k, k ≤ n → ∃ t, runFor k s = some t ∧ t.storesWf = true

/-! ## The states that statements name -/

/-- Slot `k` of the bundle in issue has performed and left the strand as `x`. -/
def State.did (s : State) (k : Nat) (x : Strand) : State := s.setMe { x with iss := { x.iss with perf := x.iss.perf ||| slotBit k } }

/-- Slot `k` of the bundle in issue traps with this cause and TVAL. -/
def State.traps (s : State) (k : Nat) (c : Cause) (tval : W64) : State := s.setMe (s.me.slotTrap k c tval)

/-- Slot A has performed and gives a scalar result of latency `lat`. -/
def State.gives (s : State) (lat : Nat) (d : BitVec 6) (v : W64) : State := s.did 0 (s.me.pushS lat d v)

/-- Slot A has performed and gives every bit of a predicate with a latency of 1. -/
def State.givesP (s : State) (d : BitVec 4) (v : PReg) : State := s.did 0 (s.me.pushP 1 d (BitVec.allOnes 1024) v)

/-- Slot B has performed and gives the elements `l` of `w` bits to a group of `g` registers, where the mask enables them; the operands it
read from the banks are in its latches as `x` holds them. -/
def State.givesV (s : State) (x : Strand) (lat : Nat) (d : BitVec 7) (g w : Nat) (m : PReg) (l : List Nat) : State :=
  s.did 1 (x.pushElems lat d g w m l)

/-- One-source lanes: element i of vd is `f` of element i of va. -/
def State.lanes1 (s : State) (lat : Nat) (l : LentB) (t : Ty) (d a : BitVec 7) (f : Nat → Nat) : State :=
  let x := s.me
  let g := l.g.size
  s.givesV (x.loadA a g) lat d g t.width (x.mask l) ((els t.width g (x.opA a g)).map f)

/-- Two-source lanes. -/
def State.lanes2 (s : State) (lat : Nat) (l : LentB) (t : Ty) (d a b : BitVec 7) (f : Nat → Nat → Nat) : State :=
  let x := s.me
  let g := l.g.size
  s.givesV ((x.loadA a g).loadB b g) lat d g t.width (x.mask l)
    (List.zipWith f (els t.width g (x.opA a g)) (els t.width g (x.opB b g)))

/-- Lanes whose third source is the destination. -/
def State.lanes3 (s : State) (lat : Nat) (l : LentB) (t : Ty) (d a b : BitVec 7) (f : Nat → Nat → Nat → Nat) : State :=
  let x := s.me
  let g := l.g.size
  s.givesV (((x.loadA a g).loadB b g).loadC l.hc d g) lat d g t.width (x.mask l)
    (List.zipWith (fun p c => f p.1 p.2 c) ((els t.width g (x.opA a g)).zip (els t.width g (x.opB b g))) (els t.width g (x.opC l.hc d g)))

/-- A lane operation on words of `w` bits. -/
def onWord (w : Nat) (f : BitVec w → BitVec w) (x : Nat) : Nat := (f (BitVec.ofNat w x)).toNat

/-- A lane operation on two words of `w` bits. -/
def onWords (w : Nat) (f : BitVec w → BitVec w → BitVec w) (x y : Nat) : Nat := (f (BitVec.ofNat w x) (BitVec.ofNat w y)).toNat

/-- `n` is the magnitude `m × 2^e` of a value of sign `neg` rounded to an integer in a mode (R44): toward zero, away from it where the directed mode
points there, or to the nearest one, the even one of two. -/
def RoundsTo (r : Rnd) (neg : Bool) (m : Nat) (e : Int) (n : Nat) : Prop :=
  if 0 ≤ e then n = m * 2 ^ e.toNat
  else
    let d := 2 ^ (-e).toNat
    match r with
    | .rtz => n = m / d
    | .rdn => n = if neg then (m + d - 1) / d else m / d
    | .rup => n = if neg then m / d else (m + d - 1) / d
    | .rne => 2 * m ≤ (2 * n + 1) * d ∧ 2 * n * d ≤ 2 * m + d ∧ (2 * m = (2 * n + 1) * d ∨ 2 * n * d = 2 * m + d → n % 2 = 0)

/-- The magnitude `a × 2^g` is the integer `n`. -/
def IsInteger (a : Nat) (g : Int) (n : Nat) : Prop := (0 ≤ g → a * 2 ^ g.toNat = n) ∧ (g < 0 → a = n * 2 ^ (-g).toNat)

/-! ## The accesses of an engine -/

/-- All of a local range has a place that the command may read now: the bytes it reads there, and the state after its walks and deadlines. -/
def State.reads (s : State) (c : Cmd) (va n : Nat) (b : List Byte) (t : State) : Prop :=
  ∃ l u, s.engPlaces c true false (spans (n / 4096 + 2) va n) = (.ok l, u) ∧ b = l.flatMap (fun e => u.engineBytes (clusterOf c.strand) e.1 e.2) ∧
    t = u.deadlines c l

/-- Bytes written to places one after another. -/
def State.putAll (s : State) : List (Nat × Nat) → List Byte → State
  | [], _ => s
  | a :: l, b => (s.put a.1 (b.take a.2)).putAll l (b.drop a.2)

/-- All of a local range has a place that the command may write now: the state after its walks, its deadlines and the write. -/
def State.wrote (s : State) (c : Cmd) (va : Nat) (b : List Byte) (t : State) : Prop :=
  ∃ l u, s.engPlaces c false true (spans (b.length / 4096 + 2) va b.length) = (.ok l, u) ∧ t = (u.deadlines c l).putAll l b

/-! ## Frames -/

/-- The registers that a write in flight goes to are destinations of the instruction. -/
def Target.madeBy (i : Instr) : Target → Bool
  | .s r _ => i.dests.contains (.s r)
  | .v r _ _ => i.dests.contains (.v r)
  | .group r l => (List.range l.length).all fun k => i.dests.contains (.v (r + k))
  | .p r _ _ => i.dests.contains (.p r)
  | .fmt _ => match i with
    | .setfmt _ => true
    | _ => false
  | .m r _ _ => match i with
    | .vmsetm _ d _ => r == d.toNat
    | _ => false
  | .k r _ _ => match i with
    | .vmsetk _ d _ => r == d.toNat
    | _ => false
  | .mcfg _ _ => match i with
    | .mcfg .. => true
    | _ => false
  | .shadow _ _ => match i with
    | .mshift .. => true
    | _ => false
  | .stage _ => match i with
    | .mstg .. => true
    | _ => false
  | .gather _ _ _ _ => match i with
    | .mgath .. => true
    | _ => false
  | .rotate _ _ => match i with
    | .mrot .. => true
    | _ => false
  | .nothing => true

/-- Two writes go to the same place, whatever they bring. -/
def Target.same : Target → Target → Bool
  | .s r _, .s r' _ => r == r'
  | .group r l, .group r' l' => r == r' && l.length == l'.length
  | .gather u o n l, .gather u' o' n' l' => u == u' && o == o' && n == n' && l.map List.length == l'.map List.length
  | t, t' => t == t'

end Sys2Proof.Machine
end

