-- ==== Sys2Proof/Certificates/Slice0/Obligations.lean ====
section
/-! DEFINITION. The statements for the provers, from the numbered rules of spec/, in the order of the slots, then the events, then the whole
machine. A result statement says what exec answers, so it is the completion statement of each instruction that it names. -/

open Sys2Proof Sys2Proof.Machine

/-- R95, with the latencies of R84: the register forms of slot A other than division. Each result is the strand's own; the shifts take
sb[5:0]. R95: CLZ, CTZ and POPC count: the leading zeros z are the number with 2^(64 − z) above sa and, for z below 64, bit 63 − z set; the
trailing zeros likewise from bit 0; POPC adds the bits. R97, R98: the immediate forms, MOVI and MOVHI. -/
def Obligations.ScalarIntegers : Prop :=
  (∀ (s : State) (d a b : BitVec 6),
     exec (.add d a b) s = .next (s.gives 1 d (s.me.s a + s.me.s b)) ∧
     exec (.sub d a b) s = .next (s.gives 1 d (s.me.s a - s.me.s b)) ∧
     exec (.mul d a b) s = .next (s.gives 3 d (s.me.s a * s.me.s b)) ∧
     exec (.mulhi d a b) s =
       .next (s.gives 3 d (((s.me.s a).signExtend 128 * (s.me.s b).signExtend 128).extractLsb' 64 64)) ∧
     exec (.mulhn d a b) s =
       .next (s.gives 3 d (((s.me.s a).setWidth 128 * (s.me.s b).setWidth 128).extractLsb' 64 64)) ∧
     exec (.and d a b) s = .next (s.gives 1 d (s.me.s a &&& s.me.s b)) ∧
     exec (.or d a b) s = .next (s.gives 1 d (s.me.s a ||| s.me.s b)) ∧
     exec (.xor d a b) s = .next (s.gives 1 d (s.me.s a ^^^ s.me.s b)) ∧
     exec (.andn d a b) s = .next (s.gives 1 d (s.me.s a &&& ~~~(s.me.s b))) ∧
     exec (.shl d a b) s = .next (s.gives 1 d (s.me.s a <<< ((s.me.s b).extractLsb' 0 6))) ∧
     exec (.shr d a b) s = .next (s.gives 1 d (s.me.s a >>> ((s.me.s b).extractLsb' 0 6))) ∧
     exec (.sar d a b) s = .next (s.gives 1 d ((s.me.s a).sshiftRight' ((s.me.s b).extractLsb' 0 6))) ∧
     exec (.rotl d a b) s = .next (s.gives 1 d ((s.me.s a).rotateLeft ((s.me.s b).extractLsb' 0 6).toNat)) ∧
     exec (.min d a b) s = .next (s.gives 1 d (if (s.me.s a).sle (s.me.s b) then s.me.s a else s.me.s b)) ∧
     exec (.minn d a b) s = .next (s.gives 1 d (if s.me.s a ≤ s.me.s b then s.me.s a else s.me.s b)) ∧
     exec (.max d a b) s = .next (s.gives 1 d (if (s.me.s b).sle (s.me.s a) then s.me.s a else s.me.s b)) ∧
     exec (.maxn d a b) s = .next (s.gives 1 d (if s.me.s b ≤ s.me.s a then s.me.s a else s.me.s b))) ∧
  (∀ (s : State) (d a : BitVec 6),
     (∃ z : Nat, exec (.clz d a) s = .next (s.gives 1 d (BitVec.ofNat 64 z)) ∧ z ≤ 64 ∧
       (∀ i, 64 - z ≤ i → (s.me.s a).getLsbD i = false) ∧ (z < 64 → (s.me.s a).getLsbD (63 - z) = true)) ∧
     (∃ z : Nat, exec (.ctz d a) s = .next (s.gives 1 d (BitVec.ofNat 64 z)) ∧ z ≤ 64 ∧
       (∀ i, i < z → (s.me.s a).getLsbD i = false) ∧ (z < 64 → (s.me.s a).getLsbD z = true)) ∧
     exec (.popc d a) s =
       .next (s.gives 1 d (BitVec.ofNat 64 ((List.range 64).countP fun i => (s.me.s a).getLsbD i)))) ∧
  (∀ (s : State) (d a n : BitVec 6) (imm : BitVec 13) (imm19 : BitVec 19) (hw : BitVec 2) (imm16 : BitVec 16),
     exec (.addi d a imm) s = .next (s.gives 1 d (s.me.s a + imm.signExtend 64)) ∧
     exec (.andi d a imm) s = .next (s.gives 1 d (s.me.s a &&& imm.signExtend 64)) ∧
     exec (.ori d a imm) s = .next (s.gives 1 d (s.me.s a ||| imm.signExtend 64)) ∧
     exec (.xori d a imm) s = .next (s.gives 1 d (s.me.s a ^^^ imm.signExtend 64)) ∧
     exec (.shli d a n) s = .next (s.gives 1 d (s.me.s a <<< n)) ∧
     exec (.shri d a n) s = .next (s.gives 1 d (s.me.s a >>> n)) ∧
     exec (.sari d a n) s = .next (s.gives 1 d ((s.me.s a).sshiftRight' n)) ∧
     exec (.sext d a n) s = .next (s.gives 1 d (((s.me.s a) <<< (63 - n.toNat)).sshiftRight (63 - n.toNat))) ∧
     exec (.zext d a n) s = .next (s.gives 1 d (((s.me.s a) <<< (63 - n.toNat)) >>> (63 - n.toNat))) ∧
     exec (.movi d imm19) s = .next (s.gives 1 d (imm19.signExtend 64)) ∧
     (∃ v : W64, exec (.movhi d hw imm16) s = .next (s.gives 1 d v) ∧
       v.extractLsb' (16 * hw.toNat) 16 = imm16 ∧
       ∀ k : Nat, k < 4 → k ≠ hw.toNat → v.extractLsb' (16 * k) 16 = (s.me.s d).extractLsb' (16 * k) 16))

/-- R96: quotient and remainder by the division pseudocode, and the 20 unfrozen busy cycles of R87: that the counter of this model holds 21
in the cycle of issue is the model's own representation (log entry 76). -/
def Obligations.Division : Prop :=
  ∀ (s : State) (d a b : BitVec 6),
    let x := s.me.s a
    let y := s.me.s b
    let c := coreOf s.cur
    let t := s.setCore c { s.core c with divBusy := 21 }
    (∃ q r : W64, exec (.div d a b) s = .next (t.gives 20 d q) ∧ exec (.rem d a b) s = .next (t.gives 20 d r) ∧
      (y = 0 → q = BitVec.allOnes 64 ∧ r = x) ∧
      (x = BitVec.intMin 64 → y = -1 → q = BitVec.intMin 64 ∧ r = 0) ∧
      (y ≠ 0 → ¬(x = BitVec.intMin 64 ∧ y = -1) →
        q.toInt = x.toInt.tdiv y.toInt ∧ r.toInt = x.toInt - q.toInt * y.toInt)) ∧
    (∃ q r : W64, exec (.divn d a b) s = .next (t.gives 20 d q) ∧ exec (.remn d a b) s = .next (t.gives 20 d r) ∧
      (y = 0 → q = BitVec.allOnes 64 ∧ r = x) ∧
      (y ≠ 0 → x.toNat = q.toNat * y.toNat + r.toNat ∧ r.toNat < y.toNat))

/-- R99: CMP writes every bit of pd with the result of its condition; .eq and .ne compare bits, .lt, .ge, .le and .gt signed values, .ltn,
.gen, .len and .gtn unsigned values. Its d field holds pd and its x field cc; a cc of 10 to 15 is unassigned. R100 and R101: selection by
bit 0 of a predicate, and predicate logic on all 1,024 bits, each with its word: SEL of format AS with x = pn, the others of format AP, with
a pb of 0 for PNOT and PMOV. -/
def Obligations.ScalarPredicates : Prop :=
  (∀ (s : State) (d : BitVec 4) (a b : BitVec 6),
     let x := s.me.s a
     let y := s.me.s b
     let all := fun (p : Bool) => if p then BitVec.allOnes 1024 else 0#1024
     exec (.cmp .eq d a b) s = .next (s.givesP d (all (decide (x = y)))) ∧
     exec (.cmp .ne d a b) s = .next (s.givesP d (all (decide (x ≠ y)))) ∧
     exec (.cmp .lt d a b) s = .next (s.givesP d (all (decide (x.toInt < y.toInt)))) ∧
     exec (.cmp .ge d a b) s = .next (s.givesP d (all (decide (y.toInt ≤ x.toInt)))) ∧
     exec (.cmp .le d a b) s = .next (s.givesP d (all (decide (x.toInt ≤ y.toInt)))) ∧
     exec (.cmp .gt d a b) s = .next (s.givesP d (all (decide (y.toInt < x.toInt)))) ∧
     exec (.cmp .ltn d a b) s = .next (s.givesP d (all (decide (x.toNat < y.toNat)))) ∧
     exec (.cmp .gen d a b) s = .next (s.givesP d (all (decide (y.toNat ≤ x.toNat)))) ∧
     exec (.cmp .len d a b) s = .next (s.givesP d (all (decide (x.toNat ≤ y.toNat)))) ∧
     exec (.cmp .gtn d a b) s = .next (s.givesP d (all (decide (y.toNat < x.toNat)))) ∧
     (∀ (c : BitVec 4), (10 ≤ c.toNat → decodeA (encAS 0x1A (d.setWidth 6) a b c) = none) ∧
       (c.toNat < 10 → ∃ cc : Cc, cc.code = c ∧ decodeA (encAS 0x1A (d.setWidth 6) a b c) = some (.cmp cc d a b)))) ∧
  (∀ (s : State) (d a b : BitVec 6) (p q pd : BitVec 4),
     exec (.sel d p a b) s = .next (s.gives 1 d (if (s.me.p p.toNat).getLsbD 0 then s.me.s a else s.me.s b)) ∧
     exec (.pand pd p q) s = .next (s.givesP pd (s.me.p p.toNat &&& s.me.p q.toNat)) ∧
     exec (.por pd p q) s = .next (s.givesP pd (s.me.p p.toNat ||| s.me.p q.toNat)) ∧
     exec (.pxor pd p q) s = .next (s.givesP pd (s.me.p p.toNat ^^^ s.me.p q.toNat)) ∧
     exec (.pnot pd p) s = .next (s.givesP pd (~~~(s.me.p p.toNat))) ∧
     exec (.pmov pd p) s = .next (s.givesP pd (s.me.p p.toNat)) ∧
     exec (.pnot pd 0) s = .next (s.givesP pd 0) ∧
     decodeA (encAS 0x19 d a b p) = some (.sel d p a b) ∧ decodeA (encAP 0x30 pd p q) = some (.pand pd p q) ∧
     decodeA (encAP 0x31 pd p q) = some (.por pd p q) ∧ decodeA (encAP 0x32 pd p q) = some (.pxor pd p q) ∧
     (decodeA (encAP 0x33 pd p q) = if q = 0 then some (.pnot pd p) else none) ∧
     (decodeA (encAP 0x34 pd p q) = if q = 0 then some (.pmov pd p) else none))

/-- R102: a load or store of 1, 2, 4 or 8 bytes of the SDM window, little-endian, zero-extended, at any alignment. What is stored reads
back, and every other byte reads as before; an access with a byte outside the window, or whose sum wraps, traps BOUNDS with TVAL its address
and reads or writes nothing. SZ stands in imm[12:11] and the offset in imm[10:0] of format AI. -/
def Obligations.LocalData : Prop :=
  ∀ (s : State) (z : Sz) (d a : BitVec 6) (off : BitVec 11),
    let q := s.me.s a + off.signExtend 64
    let r : Int := (s.me.s a).toNat + off.toInt
    let n := z.bytes
    (r < 0 ∨ s.me.sdmSize < r + n →
      exec (.lds z d a off) s = .next (s.traps 0 .bounds q) ∧ exec (.sts z d a off) s = .next (s.traps 0 .bounds q)) ∧
    (0 ≤ r → r + n ≤ s.me.sdmSize →
      (∃ v : W64, exec (.lds z d a off) s = .next (s.gives 2 d v) ∧
        (∀ i, i < n → v.extractLsb' (8 * i) 8 = Mem.read s.me.sdm (q.toNat + i)) ∧ v.toNat < 2 ^ (8 * n)) ∧
      (∃ t : State, exec (.sts z d a off) s = .next t ∧
        (∀ i, i < n → Mem.read t.me.sdm (q.toNat + i) = (s.me.s d).extractLsb' (8 * i) 8) ∧
        (∀ j, j < q.toNat ∨ q.toNat + n ≤ j → Mem.read t.me.sdm j = Mem.read s.me.sdm j) ∧
        t.me.pend = s.me.pend ∧ t.me.pendH = s.me.pendH ∧ t.me.iss.perf = s.me.iss.perf ||| 1 ∧ t.me.iss.trapped = s.me.iss.trapped ∧
        (∀ j, j ≠ s.cur → t.strand j = s.strand j))) ∧
    decodeA (encAI 0x2B d a (z.code ++ off)) = some (.lds z d a off) ∧ decodeA (encAI 0x2C d a (z.code ++ off)) = some (.sts z d a off)

/-- R103: BR, BRP and CALL select b + sext(off19); where the test of BRP fails the strand goes on at the bundle that follows. CALL writes b
+ 1 with a latency of 1. The target is in the image, which decode has checked. R104: JR and RET go to the bundle s(sa); beyond the image
they trap BOUNDS with TVAL s(sa) before any slot of the bundle performs. R106 and R110: LOOP and LOOPS skip a body of count 0, trap LOOP
with 2 for a count above 0xFFFF_FFFF and with 0 for a seventh entry, and else push an entry; LOOPS sets q0 for a count of 8 or more and
clears q1 to q7. LBRK pops the top entry and goes on after its end, or traps LOOP with 1. -/
def Obligations.Transfers : Prop :=
  (∀ (s : State) (t : Nat) (off : BitVec 19) (d : BitVec 6) (p : BitVec 4),
     ((s.me.iss.idx : Int) + off.toInt = (t : Int)) →
     let x := s.me
     let q := x.p p.toNat
     exec (.br off) s = .next (s.did 0 { x with iss := { x.iss with next := some t } }) ∧
     exec (.call d off) s =
       .next (s.did 0 { x.pushS 1 d (BitVec.ofNat 64 (x.iss.idx + 1)) with iss := { x.iss with next := some t } }) ∧
     (∀ (test : BrTest) (holds : Prop),
       (test = .b0 → (holds ↔ q.getLsbD 0 = true)) → (test = .any → (holds ↔ ∃ i, q.getLsbD i = true)) →
       (test = .all → (holds ↔ ∀ i, i < 1024 → q.getLsbD i = true)) → (test = .none → (holds ↔ ∀ i, q.getLsbD i = false)) →
       (holds → exec (.brp test p off) s = .next (s.did 0 { x with iss := { x.iss with next := some t } })) ∧
       (¬holds → exec (.brp test p off) s = .next (s.did 0 x)))) ∧
  (∀ (s : State) (a : BitVec 6),
     let x := s.me
     ((x.s a).toNat < x.image.nbun →
       exec (.jr a) s = .next (s.did 0 { x with iss := { x.iss with next := some (x.s a).toNat } }) ∧
       exec (.ret a) s = .next (s.did 0 { x with iss := { x.iss with next := some (x.s a).toNat } })) ∧
     (x.image.nbun ≤ (x.s a).toNat → x.iss.trapped = none →
       exec (.jr a) s = .next (s.setMe { x with iss := { x.iss with void := true, trapped := some (0, .bounds, x.s a) } }) ∧
       exec (.ret a) s = .next (s.setMe { x with iss := { x.iss with void := true, trapped := some (0, .bounds, x.s a) } }))) ∧
  (∀ (s : State) (rot : Bool) (cnt a : BitVec 6) (len : BitVec 13),
     let x := s.me
     let n := if a = 0 then cnt.toNat else (x.s a).toNat
     let i := if rot then Instr.loops cnt a len else .loop cnt a len
     (n = 0 → exec i s = .next (s.did 0 { x with iss := { x.iss with next := some (x.iss.idx + len.toNat + 1) } })) ∧
     (0xFFFFFFFF < n → exec i s = .next (s.traps 0 .loop 2)) ∧
     (n ≠ 0 → n ≤ 0xFFFFFFFF → x.loops.length = 6 → exec i s = .next (s.traps 0 .loop 0)) ∧
     (n ≠ 0 → n ≤ 0xFFFFFFFF → x.loops.length ≠ 6 → exec i s = .next (s.did 0 { x with
       loops := { start := x.iss.idx + 1, last := x.iss.idx + len.toNat, rot := rot, count := n } :: x.loops
       q := if rot then (if 8 ≤ n then 1 else 0) else x.q })) ∧
     (∀ u : Bool, x.loops = [] → exec (.lbrk a u) s = .next (s.traps 0 .loop 1)) ∧
     (∀ (u : Bool) (e : LoopEntry) (r : List LoopEntry), x.loops = e :: r →
       (u = true ∨ x.s a ≠ 0 → exec (.lbrk a u) s =
         .next (s.did 0 { x with loops := r, iss := { x.iss with next := some (e.last + 1) } })) ∧
       (u = false → x.s a = 0 → exec (.lbrk a u) s = .next (s.did 0 x))))

/-- R108 and R109: the end evaluation of a bundle that completes without a taken transfer, entry by entry: an entry that does not end here
stops it; one with iterations left takes the strand to its start; the last iteration pops it and the next entry is evaluated. With a taken
transfer no evaluation is made. A rotating entry moves every stage predicate up and sets q0 where eight or more iterations are left, so that
with COUNT = N + 7 the stage s is on in iteration i exactly when s ≤ i < N + s, and after the last none is. A bundle completes where it ends
without a trap, by whatever route the strand came to it, and its REGION or ENDREG acts then (R112); one that traps is not complete (R283),
and a pre-emption request of its cycle is void (R37). That REGION and ENDREG act after the bundle's own slot D is the model's reading (log
entry 81). -/
def Obligations.LoopEnds : Prop :=
  (∀ (x : Strand) (b t : Nat) (e : LoopEntry) (r : List LoopEntry),
    x.complete b (some t) = { x with pc := t } ∧
    (x.loops = [] → x.complete b none = { x with pc := b + 1 }) ∧
    (x.loops = e :: r → e.last ≠ b → x.complete b none = { x with pc := b + 1 }) ∧
    (x.loops = e :: r → e.last = b → 1 < e.count → x.complete b none = { x with
      loops := { e with count := e.count - 1 } :: r
      q := if e.rot then rotateQ x.q (e.count - 1) else x.q
      pc := e.start }) ∧
    (x.loops = e :: r → e.last = b → e.count = 1 →
      x.complete b none = { x with loops := r, q := if e.rot then rotateQ x.q 0 else x.q }.complete b none)) ∧
  (∀ (q : BitVec 8) (c i : Nat), ((rotateQ q c).getLsbD 0 = true ↔ 8 ≤ c) ∧ (i < 7 → (rotateQ q c).getLsbD (i + 1) = q.getLsbD i)) ∧
  (∀ N i s : Nat, i ≤ N + 7 → s < 8 →
    (((List.range i).foldl (fun (q : BitVec 8) j => rotateQ q (N + 6 - j)) (if 8 ≤ N + 7 then 1 else 0)).getLsbD s = true ↔
      s ≤ i ∧ i < N + s)) ∧
  (∀ (s : State) (k : Nat),
    let i := (s.strand k).iss
    (i.trapped = none → i.done = false → i.handler = (s.strand k).handler → i.eret = false →
      State.closeBundle { s with cur := k } =
        (State.setStrand { s with cur := k } k ((s.strand k).complete i.idx i.next).counted).regionOp i.idx i.n i.regOp ∧
      (i.dp = false → s.closeIssue k = State.closeBundle { s with cur := k })) ∧
    (i.trapped ≠ none → let t := s.setStrand k (s.strand k).voidAsk
      (i.await ≠ [] → s.closeIssue k = t) ∧ (i.await = [] → s.closeIssue k = t.trapEntry k)))

/-- R113: SETFMT writes FMT as bundle n + 4 sees it, or traps FORMAT outside R28; GETFMT reads it. R114 to R117: RDCYC and RDSR of CYC read
the same count of the core; a WAITC that has been released does nothing more, and the event of its target releases it once CYC has reached
it and no landing is still to write the register; RDWID gives field i of the work identifier above the fields before it, and all of it for i
= 7; RDSR reads every system register of R31, field by field. That TVEC without a handler, and an entry of the loop stack beyond DEPTH, read
0 is the model's choice (log entry 79). -/
def Obligations.SystemRegisters : Prop :=
  (∀ (s : State) (v : BitVec 13) (d : BitVec 6),
     (fmtOk v = true → exec (.setfmt v) s = .next (s.did 0 (s.me.push 4 (.fmt v)))) ∧
     (fmtOk v = false → exec (.setfmt v) s = .next (s.traps 0 .format (v.setWidth 64))) ∧
     exec (.getfmt d) s = .next (s.gives 1 d (s.me.fmt.setWidth 64))) ∧
  (∀ (s : State) (d a : BitVec 6) (i : BitVec 3) (n : BitVec 12) (k : Nat) (t : W64),
     let x := s.me
     let field := fun (n lo w v : Nat) => (s.sysReg s.cur n).extractLsb' lo w = BitVec.ofNat w v
     let one := fun (b : Bool) => if b then 1 else 0
     exec (.rdcyc d) s = .next (s.gives 1 d (s.sysReg s.cur 0)) ∧
     exec (.rdsr d n) s = .next (s.gives 1 d (s.sysReg s.cur n.toNat)) ∧
     s.sysReg s.cur 0 = BitVec.ofNat 64 (s.clk + (s.core (coreOf s.cur)).skew) ∧
     s.sysReg s.cur 0x001 = x.fmt.setWidth 64 ∧ s.sysReg s.cur 0x002 = x.wid ∧
     (field 3 0 9 s.cur ∧ field 3 9 7 0 ∧ field 3 16 4 x.sidx ∧ field 3 20 4 x.gszm ∧ field 3 24 4 x.part ∧ field 3 28 24 x.gtag ∧ field 3 52 12 0) ∧
     ((∀ v, x.image.tvec = some v → s.sysReg s.cur 0x00B = BitVec.ofNat 64 v) ∧ (x.image.tvec = none → s.sysReg s.cur 0x00B = 0)) ∧
     ((x.life = .run → field 0xC 0 3 1) ∧ (x.life = .faultWait → field 0xC 0 3 2) ∧ (x.life = .draining → field 0xC 0 3 3) ∧
       (x.life = .doneWait → field 0xC 0 3 4) ∧ field 0xC 3 1 (one x.handler) ∧ field 0xC 4 1 (one x.contract) ∧ field 0xC 5 1 (one x.fov) ∧
       field 0xC 6 1 (one x.matrixOwn) ∧ field 0xC 7 1 0 ∧ field 0xC 8 7 x.nvreg ∧ field 0xC 15 49 0) ∧
     (field 0xD 0 1 (one x.regOpen) ∧ field 0xD 1 7 x.held.length ∧ field 0xD 16 13 x.regStart) ∧
     s.sysReg s.cur 0x00E = BitVec.ofNat 64 x.image.dpbound ∧ s.sysReg s.cur 0x010 = BitVec.ofNat 64 x.loops.length ∧
     (∀ j : Nat, j < 6 → (∀ e : LoopEntry, x.loops.reverse[j]? = some e →
         field (0x30 + j) 0 13 e.start ∧ field (0x30 + j) 16 13 e.last ∧ field (0x30 + j) 31 1 (one e.rot) ∧ field (0x30 + j) 32 32 e.count) ∧
       (x.loops.length ≤ j → s.sysReg s.cur (0x30 + j) = 0)) ∧
     (∀ h : Nat, h < 16 → let r := x.ring h
       (field (0x40 + h) 0 21 r.base ∧ field (0x40 + h) 32 12 r.slsz ∧ field (0x40 + h) 48 12 r.nslot ∧ field (0x40 + h) 63 1 (one r.en)) ∧
       (field (0x50 + h) 0 12 r.head ∧ field (0x50 + h) 12 12 r.tail ∧ field (0x50 + h) 24 12 r.fill ∧ field (0x50 + h) 36 12 r.free ∧
         field (0x50 + h) 48 12 r.infl ∧ field (0x50 + h) 60 2 r.bind ∧ field (0x50 + h) 62 2 0)) ∧
     s.sysReg s.cur 0x004 = BitVec.ofNat 64 x.sbn ∧ s.sysReg s.cur 0x008 = x.epc ∧
     s.sysReg s.cur 0x009 = x.tcause ∧ s.sysReg s.cur 0x00A = x.tval ∧
     exec (.waitc a) s = .next (s.did 0 x) ∧
     ((s.strand k).waitTarget = some t → (s.strand k).late = [] → t.toNat ≤ s.cyc (coreOf k) →
       exec (.waitcTargetReached k) s = .next (s.setStrand k { s.strand k with released := true })) ∧
     exec (.rdwid d 7) s = .next (s.gives 1 d x.wid) ∧
     (i.toNat < 6 → exec (.rdwid d i) s = .next (s.gives 1 d (BitVec.ofNat 64
       (x.wid.toNat / 2 ^ (x.widths.take i.toNat).sum % 2 ^ (x.widths[i.toNat]?).getD 0)))))

/-- R117 and R21: WRSR of EPC or TVAL replaces the register, and of TCAUSE its 18 bits (R281); of HCFG it configures the ring, and one just
enabled is empty with every slot free, unless R21 refuses it, which is a RING trap with TVAL the value written. The handle that R21 tests is
that at the issue of the bundle (R83). R118, R119, R20 and R215: a ring that is enabled moves its consumer or producer pointer by n, modulo
its slots, from FILL to FREE or back; a ring that is not, a count beyond FILL or FREE, RADVC on a ring bound to a drain and RADVP on one
bound to a fill trap RING with TVAL n; a count of 0 on a ring that is enabled has no effect (R118). The tests take the handle at the issue
of the bundle (log entry 81). RSTAT reads HSTAT, and 0 where EN = 0. -/
def Obligations.RingRegisters : Prop :=
  (∀ (s : State) (a : BitVec 6) (h : BitVec 4),
     let x := s.me
     let v := x.s a
     let old := x.ring h.toNat
     let num : BitVec 12 := 0x040#12 + h.setWidth 12
     let base := (v.extractLsb' 0 21).toNat
     let slsz := (v.extractLsb' 32 12).toNat
     let nslot := (v.extractLsb' 48 12).toNat
     let now := Tbl.getD x.iss.rings h.toNat Ring.off
     let ok := now.bind = 0 ∧ now.infl = 0 ∧ base % 64 = 0 ∧
       (v.getLsbD 63 = true → 1 ≤ slsz ∧ 1 ≤ nslot ∧ base + 64 * slsz * nslot ≤ x.spadSize)
     exec (.wrsr 0x008 a) s = .next (s.did 0 { x with epc := v }) ∧
     exec (.wrsr 0x009 a) s = .next (s.did 0 { x with tcause := v &&& 0x3FFFF }) ∧
     exec (.wrsr 0x00A a) s = .next (s.did 0 { x with tval := v }) ∧
     (ok → v.getLsbD 63 = true → exec (.wrsr num a) s = .next (s.did 0 (x.setRing h.toNat { old with
       base := base, slsz := slsz, nslot := nslot, en := true, head := 0, tail := 0, fill := 0, free := nslot, infl := 0 }))) ∧
     (ok → v.getLsbD 63 = false → exec (.wrsr num a) s = .next (s.did 0 (x.setRing h.toNat { old with
       base := base, slsz := slsz, nslot := nslot, en := false }))) ∧
     (¬ok → exec (.wrsr num a) s = .next (s.traps 0 .ring v))) ∧
  (∀ (s : State) (h : BitVec 4) (n : BitVec 12) (a d : BitVec 6),
     let x := s.me
     let r := x.ring h.toNat
     let now := Tbl.getD x.iss.rings h.toNat Ring.off
     let moved := fun (k : Nat) (y : Ring) => s.did 0 { x.setRing h.toNat y with adv := some (h.toNat, k) }
     let consumed := fun k => moved k { r with head := (r.head + k) % r.nslot, fill := r.fill - k, free := r.free + k }
     let produced := fun k => moved k { r with tail := (r.tail + k) % r.nslot, free := r.free - k, fill := r.fill + k }
     let m := (x.s a).toNat
     (now.en = true → n ≠ 0 → n.toNat ≤ now.fill → now.bind ≠ 2 → exec (.radvcImm h n) s = .next (consumed n.toNat)) ∧
     (now.en = true → n ≠ 0 → n.toNat ≤ now.free → now.bind ≠ 1 → exec (.radvpImm h n) s = .next (produced n.toNat)) ∧
     (now.en = true → m ≠ 0 → m ≤ now.fill → now.bind ≠ 2 → exec (.radvcReg h a) s = .next (consumed m)) ∧
     (now.en = true → m ≠ 0 → m ≤ now.free → now.bind ≠ 1 → exec (.radvpReg h a) s = .next (produced m)) ∧
     (now.en = true → m = 0 → exec (.radvcReg h a) s = .next (s.did 0 x) ∧ exec (.radvpReg h a) s = .next (s.did 0 x)) ∧
     (now.en = true → n = 0 → exec (.radvcImm h n) s = .next (s.did 0 x) ∧ exec (.radvpImm h n) s = .next (s.did 0 x)) ∧
     (now.en = false ∨ now.fill < n.toNat ∨ (n ≠ 0 ∧ now.bind = 2) → exec (.radvcImm h n) s = .next (s.traps 0 .ring (n.setWidth 64))) ∧
     (now.en = false ∨ now.free < n.toNat ∨ (n ≠ 0 ∧ now.bind = 1) → exec (.radvpImm h n) s = .next (s.traps 0 .ring (n.setWidth 64))) ∧
     (now.en = false ∨ now.fill < m ∨ (m ≠ 0 ∧ now.bind = 2) → exec (.radvcReg h a) s = .next (s.traps 0 .ring (x.s a))) ∧
     (now.en = false ∨ now.free < m ∨ (m ≠ 0 ∧ now.bind = 1) → exec (.radvpReg h a) s = .next (s.traps 0 .ring (x.s a))) ∧
     exec (.rstat d h) s = .next (s.gives 1 d (if r.en then r.stat else 0)))

/-- R122, R124 and R125: TRAP raises its cause with TVAL the code and counts as performed; DONE marks the bundle as the strand's last, but a
trap of another slot voids it; YIELD marks a drain point and asks Lamplighter, except in handler mode, where it has no effect. -/
def Obligations.TrapDoneYield : Prop :=
  ∀ (s : State) (code : BitVec 13),
    let x := s.me
    ((∀ e, x.iss.trapped = some e → 0 < e.1) →
      exec (.trap code) s = .next (s.did 0 { x with iss := { x.iss with trapped := some (0, .trap, code.setWidth 64) } })) ∧
    (x.iss.trapped = none → exec .done s = .next (s.did 0 { x with iss := { x.iss with done := true } })) ∧
    (x.iss.trapped ≠ none → exec .done s = .next s) ∧
    (x.iss.handler = false → exec .yield s = .next (s.did 0 { x with iss := { x.iss with dp := true, yield := true } })) ∧
    (x.iss.handler = true → exec .yield s = .next (s.did 0 x))

/-- R123 and R287: ERET makes every handler write in flight visible, returns to kernel mode and continues at EPC, reissuing the slots whose
PERF bits are 0; the handler's count ends, EPC, TCAUSE and TVAL stay, and no byte of memory changes. In a bundle another slot of which has
trapped, the return follows the bundle's completion. -/
def Obligations.ReturnFromTrap : Prop :=
  (∀ s : State, s.me.iss.trapped = none →
    let x := s.me
    let y := x.applyAll (sortWrites x.pendH)
    ∃ t : State, exec .eret s = .next t ∧ t.me.handler = false ∧ t.me.hcnt = 0 ∧ t.me.pendH = [] ∧ t.me.pend = x.pend ∧
      t.me.sreg = y.sreg ∧ t.me.preg = y.preg ∧ t.me.vreg = y.vreg ∧ t.me.mreg = y.mreg ∧ t.me.kreg = y.kreg ∧ t.me.fmt = y.fmt ∧
      t.me.epc = x.epc ∧ t.me.tcause = x.tcause ∧ t.me.tval = x.tval ∧ t.me.rings = x.rings ∧
      (perfOf x.tcause ≠ 0xF → t.me.pc = x.epc.toNat ∧ t.me.loops = x.loops ∧ t.me.q = x.q ∧ t.me.sbn = x.sbn ∧
        ∃ r : Replay, t.me.replay = some r ∧ r.idx = x.epc.toNat ∧ r.perf = perfOf x.tcause ∧ r.again = true ∧ r.n = x.sbn) ∧
      (perfOf x.tcause = 0xF → t.me.replay = none) ∧
      (∀ a, Mem.read t.mem a = Mem.read s.mem a) ∧ (∀ j, j ≠ s.cur → t.strand j = s.strand j)) ∧
  ∀ s : State, s.me.iss.trapped ≠ none → ∃ t : State, exec .eret s = .next t ∧ t.me.iss.eret = true ∧ t.me.iss.perf = s.me.iss.perf ||| 1 ∧
    t.me.handler = s.me.handler ∧ t.me.pc = s.me.pc ∧ t.me.sreg = s.me.sreg ∧ t.mem = s.mem

/-- R283, R284 and R289: the entry of a trap whose slot D has been accepted. In kernel mode with a handler EPC is the bundle, TCAUSE and
TVAL are set, the mode becomes handler mode, the handler's latches read zero, its count starts at 0, and the next bundle is TVEC, from the
second core cycle on; the general registers, the loops, the rings, the kernel's writes in flight, memory and every other strand stay. In
handler mode or without a handler the strand enters FAULTWAIT, EPC, TCAUSE and TVAL keep their values, and the record holds the bundle, its
performed bits, the cause and TVAL. R290 and R281: a pending trap of a strand in RUN in kernel mode is taken before the bundle that would
issue next: EPC is that bundle, PEND is set, SLOT and PERF are 0, and the trap is pending no more. -/
def Obligations.TrapEntry : Prop :=
  (∀ (s : State) (k slot : Nat) (c : Cause) (v : W64),
     let x := s.strand k
     let i := x.iss
     i.trapped = some (slot, c, v) → i.await = [] →
     (∀ a, i.handler = false → x.image.tvec = some a → x.life ≠ .faultWait →
       ∃ t : State, exec (.trapEntry k) s = .next t ∧ (t.strand k).epc = BitVec.ofNat 64 i.idx ∧
         (t.strand k).tcause = tcauseWord c slot i.perf false 0 0 ∧ (t.strand k).tval = v ∧ (t.strand k).handler = true ∧
         (t.strand k).latH = Latches.zero ∧ (t.strand k).hcnt = 0 ∧ (t.strand k).pc = a ∧ (t.strand k).holdFor = 1 ∧
         (t.strand k).sreg = x.sreg ∧ (t.strand k).vreg = x.vreg ∧ (t.strand k).preg = x.preg ∧ (t.strand k).q = x.q ∧
         (t.strand k).mreg = x.mreg ∧ (t.strand k).kreg = x.kreg ∧ (t.strand k).fmt = x.fmt ∧
         (t.strand k).loops = x.loops ∧ (t.strand k).rings = x.rings ∧ (t.strand k).pend = x.pend ∧ (t.strand k).sbn = x.sbn ∧
         (t.strand k).accOps = x.accOps ∧ (∀ b, Mem.read t.mem b = Mem.read s.mem b) ∧ (∀ j, j ≠ k → t.strand j = s.strand j)) ∧
     (i.handler = true ∨ x.image.tvec = none → (s.part x.part).map Partition.tpol = some 1 →
       ∃ t : State, exec (.trapEntry k) s = .next t ∧ (t.strand k).life = .faultWait ∧ (t.strand k).epc = x.epc ∧
         (t.strand k).tcause = x.tcause ∧ (t.strand k).tval = x.tval ∧ (t.strand k).handler = x.handler ∧
         (x.handler = i.handler → ∃ r : Replay, (t.strand k).untaken = some r ∧ r.idx = i.idx ∧ r.perf = i.perf ∧
           r.handler = i.handler ∧ r.record = some (c, v)))) ∧
  (∀ (s : State) (k a : Nat) (p : Pending) (r : List Pending),
     let x := s.strand k
     x.traps = p :: r → p.arrival = none → x.handler = false → x.life = .run → x.iss.trapped = none → x.halted = false →
     x.replay = none → x.image.tvec = some a →
     ∃ t : State, exec (.pendingTrapTake k) s = .next t ∧ (t.strand k).epc = BitVec.ofNat 64 x.pc ∧
       (t.strand k).tcause = tcauseWord p.cause 0 0 true p.stage p.akind ∧ (t.strand k).tval = p.tval ∧
       (t.strand k).handler = true ∧ (t.strand k).pc = a ∧ (t.strand k).traps = r ∧ (t.strand k).sbn = x.sbn ∧
       (t.strand k).sreg = x.sreg ∧ (t.strand k).loops = x.loops)

/-- R22, R64, R120, R121 and R218: a header wait takes its count from the flag; a header post and FLADD set out to the flag file, where they
arrive in the second cycle after their own unless a fence holds them; FLADD of 0 has no effect; FLRD reads the flag as the last ended cycle
left it. The group that a program sees is its strand's own. -/
def Obligations.Flags : Prop :=
  ∀ (s : State) (f : BitVec 5) (c : BitVec 3) (d a : BitVec 6),
    let x := s.me
    let g := s.grp x.gtag
    let v := Tbl.getD g.flags f.toNat 0
    let n := if c = 0 then 8 else c.toNat
    let m := ((s.me.s a).extractLsb' 0 32).toNat
    let due := if s.fencesDone s.cur s.nextId true true false then some (s.clk + 2) else none
    let post := fun (count : Nat) =>
      { s with nextId := s.nextId + 1, posts := s.posts ++ [Post.mk s.nextId x.part x.gtag s.cur f.toNat count due none none] }
    (n ≤ v.toNat → exec (.syncWait f c) s = .next (s.setGrp x.gtag { g with
      flags := Tbl.put 0 g.flags f.toNat (BitVec.ofNat 32 (v.toNat - n)) })) ∧
    exec (.syncPost f c) s = .next (post n) ∧
    (m ≠ 0 → exec (.fladd f a) s = .next ((post m).did 0 x)) ∧
    (m = 0 → exec (.fladd f a) s = .next (s.did 0 x)) ∧
    exec (.flrd d f) s = .next (s.gives 1 d ((Tbl.getD g.prev f.toNat 0).setWidth 64))

/-- R36, R61, R64 and R65: what the header's marks and a bundle of NOPs do. R112, R300 and R301: REGION and ENDREG act when their bundle, of
index b and number n, completes. REGION opens a region that starts at that bundle, with nothing held and the snapshot of the state that the
bundle after it sees; an open region closes first. ENDREG, and that closing, send the held lines to memory in the order in which they were
first written, as requests of the strand; ENDREG without an open region has no effect. -/
def Obligations.RegionsAndMarks : Prop :=
  (∀ s : State,
     let x := s.me
     (x.iss.handler = false → exec .drainPoint s = .next (s.setMe { x with iss := { x.iss with dp := true } })) ∧
     (x.iss.handler = true → exec .drainPoint s = .next (s.setMe x)) ∧
     exec .mergeYield s = .next (s.setMe { x with iss := { x.iss with mh := true } }) ∧
     exec .nop s = .next s) ∧
  (∀ (s : State) (b n : Nat),
     let x := s.me
     exec .region s = .next (s.did 0 { x with iss := { x.iss with regOp := some true } }) ∧
     exec .endreg s = .next (s.did 0 { x with iss := { x.iss with regOp := some false } }) ∧
     s.regionOp b n none = s ∧
     (x.regOpen = false → ∃ p : Snapshot,
       s.regionOp b n (some true) = s.setMe { x with regOpen := true, regStart := b, held := [], snap := some p } ∧
       p.pc = b + 1 ∧ p.sbn = n + 1 ∧ p.start = b ∧ p.loops = x.loops ∧ p.rings = x.rings ∧ p.q = x.q ∧ p.fov = x.fov ∧
       p.epc = x.epc ∧ p.tcause = x.tcause ∧ p.tval = x.tval ∧ p.sreg = (x.settle false (n + 1)).sreg ∧
       p.preg = (x.settle false (n + 1)).preg ∧ p.fmt = (x.settle false (n + 1)).fmt) ∧
     (x.regOpen = false → s.regionOp b n (some false) = s) ∧
     (x.regOpen = true → let t := s.regionOp b n (some false)
       t.me.regOpen = false ∧ t.me.held = [] ∧ t.me.snap = none ∧
       t.me.sreg = x.sreg ∧ t.me.pend = x.pend ∧ t.mem = s.mem ∧ ∃ l : List Req, t.reqs = s.reqs ++ l ∧
         l.map (fun r => (r.strand, r.kind, r.pieces.map fun p => (p.va, p.bytes))) =
           x.held.map fun h => (s.cur, ReqKind.store, [(h.addr, h.bytes)])) ∧
     (x.regOpen = true → let t := s.regionOp b n (some true)
       t.me.regOpen = true ∧ t.me.held = [] ∧ t.me.regStart = b ∧ t.reqs.length = s.reqs.length + x.held.length))

/-- R136: the floating-point arithmetic of slot B on enabled elements, each result formed exactly and rounded once in FMT.RM, with the
latencies of R84; the fused forms take their third source from the destination. -/
def Obligations.FloatArithmetic : Prop :=
  ∀ (s : State) (l : LentB) (t : Ty) (d a b : BitVec 7),
    let F := fmtOf t
    let r := fmtRM s.me.fmt
    let v := F.value
    exec (.vadd l t d a b) s = .next (s.lanes2 4 l t d a b fun x y => F.round r (FV.add r (v x) (v y))) ∧
    exec (.vsub l t d a b) s = .next (s.lanes2 4 l t d a b fun x y => F.round r (FV.add r (v x) (v y).neg)) ∧
    exec (.vmul l t d a b) s = .next (s.lanes2 4 l t d a b fun x y => F.round r (FV.mul (v x) (v y))) ∧
    exec (.vfma l t d a b) s = .next (s.lanes3 4 l t d a b fun x y z => F.round r (FV.add r (FV.mul (v x) (v y)) (v z))) ∧
    exec (.vfms l t d a b) s = .next (s.lanes3 4 l t d a b fun x y z => F.round r (FV.add r (FV.mul (v x) (v y)) (v z).neg)) ∧
    exec (.vfnma l t d a b) s = .next (s.lanes3 4 l t d a b fun x y z => F.round r (FV.add r (FV.mul (v x) (v y)).neg (v z))) ∧
    exec (.vdiv l t d a b) s = .next (s.lanes2 12 l t d a b fun x y => F.div r (v x) (v y))

/-- R39, R40 and R44: an encoding of any format that is not NaN is the rounding of its own value in every mode, and a NaN gives the
canonical NaN: rounding moves no value that the format holds. R45 and R46: a rounded finite value overflows by its mode: to nearest it is
the infinity of its sign or, in E4M3, the canonical NaN; toward zero, and in the directed mode that points toward zero, it is the largest
finite value of its sign. -/
def Obligations.RoundingLaws : Prop :=
  (∀ (F : Fmt) (r : Rnd) (x : Nat), F ∈ [Fmt.f64, .f32, .f16, .bf16, .e4m3, .e5m2] → x < 2 ^ F.w →
     ((F.value x).isNan = false → F.round r (F.value x) = x) ∧ ((F.value x).isNan = true → F.round r (F.value x) = F.nan)) ∧
  (∀ (F : Fmt) (neg : Bool) (m : Nat) (e : Int), F ∈ [Fmt.f64, .f32, .f16, .bf16, .e4m3, .e5m2] → m ≠ 0 →
     F.round .rtz (.fin neg m e) ≤ F.sign neg + F.maxc ∧
     (∀ r, r = (if neg then Rnd.rup else .rdn) → F.round r (.fin neg m e) = F.round .rtz (.fin neg m e)) ∧
     ((F.bias : Int) + 2 ≤ e → F.round .rtz (.fin neg m e) = F.sign neg + F.maxc ∧
       F.round .rne (.fin neg m e) = (F.inf.map (F.sign neg + ·)).getD F.nan))

/-- R137: the floating-point element instructions. The smaller and larger value by the order of R59, in which −0 lies below +0; magnitude
with another sign; sign cleared or inverted; rounding to an integral value in the mode of RM; the class. A NaN operand gives the canonical
NaN. R137: the values of VRND and VCLASS. VRND gives the integral value that the mode gives, with the sign of the operand, also where it is
0, and leaves infinities; VCLASS sets the one bit that the sign, the exponent and the fraction of the encoding name. -/
def Obligations.FloatElements : Prop :=
  (∀ (s : State) (l : LentB) (rm : Rm) (t : Ty) (d a b : BitVec 7),
     let F := fmtOf t
     let nan := fun x => (F.value x).isNan
     let top := 2 ^ (F.w - 1)
     let less := fun x y => (F.value x).below (F.value y)
     exec (.vmin l t d a b) s =
       .next (s.lanes2 4 l t d a b fun x y => if nan x ∨ nan y then F.nan else if less y x then y else x) ∧
     exec (.vmax l t d a b) s =
       .next (s.lanes2 4 l t d a b fun x y => if nan x ∨ nan y then F.nan else if less x y then y else x) ∧
     exec (.vcps l t d a b) s =
       .next (s.lanes2 2 l t d a b fun x y => if nan x ∨ nan y then F.nan else x % top + y / top * top) ∧
     exec (.vabs l t d a) s = .next (s.lanes1 2 l t d a fun x => if nan x then F.nan else x % top) ∧
     exec (.vneg l t d a) s = .next (s.lanes1 2 l t d a fun x => if nan x then F.nan else x ^^^ top) ∧
     exec (.vrnd l rm t d a) s = .next (s.lanes1 4 l t d a (F.integral (rmMode rm s.me.fmt))) ∧
     exec (.vclass l t d a) s = .next (s.lanes1 4 l t d a F.classify)) ∧
  (∀ (F : Fmt) (r : Rnd) (x : Nat), F ∈ [Fmt.f64, .f32, .f16, .bf16] → x < 2 ^ F.w →
     let neg := x.testBit (F.w - 1)
     let ef := x % 2 ^ (F.w - 1) / 2 ^ F.f
     let fr := x % 2 ^ F.f
     let full := 2 ^ (F.w - 1 - F.f) - 1
     let bit := fun (minus plus : Nat) => F.classify x = 2 ^ (if neg then minus else plus)
     ((F.value x).isNan = true → F.integral r x = F.nan) ∧
     (∀ s, F.value x = .inf s → F.value (F.integral r x) = .inf s) ∧
     (∀ s m e, F.value x = .fin s m e → ∃ (n a : Nat) (g : Int), RoundsTo r s m e n ∧ F.value (F.integral r x) = .fin s a g ∧ IsInteger a g n) ∧
     (ef = full → fr = 0 → bit 0 7) ∧ (ef = full → fr ≠ 0 → F.classify x = 2 ^ 8) ∧ (0 < ef → ef < full → bit 1 6) ∧
     (ef = 0 → fr ≠ 0 → bit 2 5) ∧ (ef = 0 → fr = 0 → bit 3 4))

/-- R138 and R139: the special functions with their latencies: each an .f32 function of the input bits, with a second rounding into the
narrower types; VSQRT rounds once in the mode of RM. The special inputs NaN, −∞, −0, +0 and +∞, in this order, give the results of R139's
table in every type, every NaN encoding the canonical NaN, a finite input below 0 NaN in VRSQ, VSQRT and VLOG2. VLOG2 is exact at a power of
two, VEXP2 at an integer whose power is representable, VRCP at a power of two. -/
def Obligations.SpecialFunctions : Prop :=
  (∀ (s : State) (l : LentB) (rm : Rm) (t : Ty) (d a : BitVec 7),
    exec (.vrcp l t d a) s = .next (s.lanes1 8 l t d a (viaF32 t rcp32)) ∧
    exec (.vrsq l t d a) s = .next (s.lanes1 8 l t d a (viaF32 t rsq32)) ∧
    exec (.vsqrt l rm t d a) s =
      .next (s.lanes1 12 l t d a fun x => (fmtOf t).sqrt (rmMode rm s.me.fmt) ((fmtOf t).value x)) ∧
    exec (.vexp2 l t d a) s = .next (s.lanes1 8 l t d a (viaF32 t (Elem.f32 .exp2))) ∧
    exec (.vlog2 l t d a) s = .next (s.lanes1 8 l t d a (viaF32 t (Elem.f32 .log2))) ∧
    exec (.vsin l t d a) s = .next (s.lanes1 8 l t d a (viaF32 t (Elem.f32 .sin))) ∧
    exec (.vcos l t d a) s = .next (s.lanes1 8 l t d a (viaF32 t (Elem.f32 .cos))) ∧
    exec (.vtanh l t d a) s = .next (s.lanes1 8 l t d a (viaF32 t (Elem.f32 .tanh))) ∧
    exec (.vsigm l t d a) s = .next (s.lanes1 8 l t d a (viaF32 t (Elem.f32 .sigm)))) ∧
  (∀ t ∈ [Ty.f32, .f16, .bf16],
    let F := fmtOf t
    let enc := fun (x : Nat) => F.round .rne (Fmt.f32.value x)
    let row := fun (f : Nat → Nat) => [0x7FC00000, 0xFF800000, 0x80000000, 0, 0x7F800000].map fun x => viaF32 t f (enc x)
    row rcp32 = [0x7FC00000, 0x80000000, 0xFF800000, 0x7F800000, 0].map enc ∧
    row rsq32 = [0x7FC00000, 0x7FC00000, 0xFF800000, 0x7F800000, 0].map enc ∧
    row (Elem.f32 .exp2) = [0x7FC00000, 0, 0x3F800000, 0x3F800000, 0x7F800000].map enc ∧
    row (Elem.f32 .log2) = [0x7FC00000, 0x7FC00000, 0xFF800000, 0xFF800000, 0x7F800000].map enc ∧
    row (Elem.f32 .sin) = [0x7FC00000, 0x7FC00000, 0x80000000, 0, 0x7FC00000].map enc ∧
    row (Elem.f32 .cos) = [0x7FC00000, 0x7FC00000, 0x3F800000, 0x3F800000, 0x7FC00000].map enc ∧
    row (Elem.f32 .tanh) = [0x7FC00000, 0xBF800000, 0x80000000, 0, 0x3F800000].map enc ∧
    row (Elem.f32 .sigm) = [0x7FC00000, 0, 0x3F000000, 0x3F000000, 0x3F800000].map enc ∧
    (∀ x, (F.value x).isNan = true → ∀ f ∈ [rcp32, rsq32, Elem.f32 .exp2, Elem.f32 .log2, Elem.f32 .sin, Elem.f32 .cos, Elem.f32 .tanh,
      Elem.f32 .sigm], viaF32 t f x = F.nan)) ∧
  (∀ (F : Fmt) (r : Rnd), F ∈ [Fmt.f64, .f32, .f16, .bf16] →
    let enc := fun (x : Nat) => F.round .rne (Fmt.f32.value x)
    [0x7FC00000, 0xFF800000, 0x80000000, 0, 0x7F800000].map (fun x => F.sqrt r (F.value (enc x))) =
      [0x7FC00000, 0x7FC00000, 0x80000000, 0, 0x7F800000].map enc ∧
    (∀ x m e, F.value x = .fin true m e → m ≠ 0 → F.sqrt r (F.value x) = F.nan)) ∧
  (∀ x m e, Fmt.f32.value x = .fin true m e → m ≠ 0 → rsq32 x = 0x7FC00000 ∧ Elem.f32 .log2 x = 0x7FC00000) ∧
  (∀ k : Nat, 1 ≤ k → k ≤ 254 →
    Elem.f32 .log2 (k * 2 ^ 23) = Fmt.f32.round .rne (FV.ofInt ((k : Int) - 127)) ∧
    (k ≤ 253 → rcp32 (k * 2 ^ 23) = (254 - k) * 2 ^ 23) ∧
    Elem.f32 .exp2 (Fmt.f32.round .rne (FV.ofInt ((k : Int) - 127))) = k * 2 ^ 23)

/-- R140 and R141: the integer instructions of slot B as operations on words of the element's width w, signed for the .i types; they wrap
modulo 2^w, a shift count is vb mod w, and VMULW gives the exact product at twice the width in a group of twice the size. R142 and R143: the
carry chain. In each lane of a group of 64-bit lanes VADC gives the sum of two words and the carry in, and the carry out; VSBC the
difference and the borrow; VMADC the low and the high word of product, addend and carry. Every lane's word and carry appear at its own place
of the two results; bits of p at disabled lanes and above the group stay. -/
def Obligations.IntegerLanes : Prop :=
  (∀ (s : State) (l : LentB) (t : Ty) (d a b : BitVec 7), t.isInt = true →
     let w := t.width
     let sg := t.isSigned
     let lt := fun (x y : BitVec w) => if sg then x.slt y else x.ult y
     let val := fun (x : BitVec w) => if sg then x.toInt else (x.toNat : Int)
     let x := s.me
     let g := l.g.size
     exec (.viadd l t d a b) s = .next (s.lanes2 2 l t d a b (onWords w fun x y => x + y)) ∧
     exec (.visub l t d a b) s = .next (s.lanes2 2 l t d a b (onWords w fun x y => x - y)) ∧
     exec (.vimul l t d a b) s = .next (s.lanes2 4 l t d a b (onWords w fun x y => x * y)) ∧
     exec (.vimulh l t d a b) s = .next (s.lanes2 4 l t d a b (onWords w fun x y => BitVec.ofInt w (val x * val y / 2 ^ w))) ∧
     exec (.vimad l t d a b) s =
       .next (s.lanes3 4 l t d a b fun x y z => (BitVec.ofNat w x * BitVec.ofNat w y + BitVec.ofNat w z).toNat) ∧
     exec (.vimin l t d a b) s = .next (s.lanes2 2 l t d a b (onWords w fun x y => if lt y x then y else x)) ∧
     exec (.vimax l t d a b) s = .next (s.lanes2 2 l t d a b (onWords w fun x y => if lt x y then y else x)) ∧
     exec (.vand l t d a b) s = .next (s.lanes2 2 l t d a b (onWords w fun x y => x &&& y)) ∧
     exec (.vor l t d a b) s = .next (s.lanes2 2 l t d a b (onWords w fun x y => x ||| y)) ∧
     exec (.vxor l t d a b) s = .next (s.lanes2 2 l t d a b (onWords w fun x y => x ^^^ y)) ∧
     exec (.vnot l t d a) s = .next (s.lanes1 2 l t d a (onWord w fun x => ~~~x)) ∧
     exec (.vshl l t d a b) s = .next (s.lanes2 2 l t d a b (onWords w fun x y => x <<< (y.toNat % w))) ∧
     exec (.vshr l t d a b) s = .next (s.lanes2 2 l t d a b (onWords w fun x y => x >>> (y.toNat % w))) ∧
     exec (.vsar l t d a b) s = .next (s.lanes2 2 l t d a b (onWords w fun x y => x.sshiftRight (y.toNat % w))) ∧
     exec (.vpopc l t d a) s = .next (s.lanes1 2 l t d a fun x => (List.range w).countP fun i => x.testBit i) ∧
     exec (.vclz l t d a) s = .next (s.lanes1 2 l t d a fun x => if x = 0 then w else w - 1 - Nat.log2 x) ∧
     exec (.vmulw l t d a b) s = .next (s.givesV ((x.loadA a g).loadB b g) 4 d (2 * g) (2 * w) (x.mask l)
       (List.zipWith (fun p q => (BitVec.ofInt (2 * w) (val (BitVec.ofNat w p) * val (BitVec.ofNat w q))).toNat)
         (els w g (x.opA a g)) (els w g (x.opB b g))))) ∧
  (∀ (s : State) (l : LentB) (d a b : BitVec 7) (p : BitVec 4),
     let x := s.me
     let g := l.g.size
     let cin := fun i => if (x.p p.toNat).getLsbD i then 1 else 0
     let va := els 64 g (x.opA a g)
     let vb := els 64 g (x.opB b g)
     let lo := els 64 g (x.opC l.hc d g)
     let sums := (List.range (64 * g)).map fun i => va.getD i 0 * vb.getD i 0 + lo.getD i 0 + cin i
     let lanes := fun (y : Strand) (f : Nat → Nat × Bool) =>
       (y.pushElems 2 d g 64 (x.mask l) ((List.range (64 * g)).map fun i => (f i).1)).pushP 2 p
         (x.mask l &&& BitVec.ofNat 1024 (2 ^ (64 * g) - 1)) (BitVec.ofNat 1024 (packElems 1 ((List.range (64 * g)).map fun i => (f i).2.toNat)))
     exec (.vadc l d a b p) s = .next (s.did 1 (lanes ((x.loadA a g).loadB b g) fun i =>
       let t := va.getD i 0 + vb.getD i 0 + cin i
       (t % 2 ^ 64, decide (2 ^ 64 ≤ t)))) ∧
     exec (.vsbc l d a b p) s = .next (s.did 1 (lanes ((x.loadA a g).loadB b g) fun i =>
       let t : Int := va.getD i 0 - vb.getD i 0 - cin i
       ((t % 2 ^ 64).toNat, decide (t < 0)))) ∧
     exec (.vmadc l d a b p) s = .next (s.did 1
       (((((x.loadA a g).loadB b g).loadC l.hc d g).pushGroup 4 d.toNat g (x.mask l) 64 (64 * g) (packElems 64 sums)).pushGroup 4
         (d.toNat + g) g (x.mask l) 64 (64 * g) (packElems 64 (sums.map (· / 2 ^ 64))))) ∧
     ∀ t ∈ sums, t ≤ 2 ^ 128 - 2 ^ 64 + 1)

/-- R144 and R145: VCMP sets the bits of pd for the enabled elements of the group by the condition and the type, clears the bits from the
element count up and leaves the disabled ones; VSELP selects 32-bit lanes by the bits of a predicate. R144: what a condition says of two
encodings. With a NaN only .ne and .un hold; otherwise the floating-point conditions compare the exact values, so that −0 equals +0, and −∞
lies below and +∞ above every finite value. Integer conditions compare signed or unsigned values by the type. R144: the integer conditions.
-/
def Obligations.LaneConditions : Prop :=
  (∀ (s : State) (l : LentB) (c : VCc) (t : Ty) (pd p : BitVec 4) (d a b : BitVec 7),
     let x := s.me
     let g := l.g.size
     let n := elems t g
     let ea := els t.width g (x.opA a g)
     let eb := els t.width g (x.opB b g)
     (∃ m v : PReg, exec (.vcmp l c t pd a b) s = .next (s.did 1 (((x.loadA a g).loadB b g).pushP 2 pd m v)) ∧
       (∀ i, i < 1024 → (m.getLsbD i = true ↔ n ≤ i ∨ (x.mask l).getLsbD i = true)) ∧
       (∀ i, i < 1024 → n ≤ i → v.getLsbD i = false) ∧
       (∀ i, i < 1024 → i < n → v.getLsbD i = vcmpElem c t (ea.getD i 0) (eb.getD i 0))) ∧
     exec (.vselp l d a b p) s = .next (s.givesV ((x.loadA a g).loadB b g) 2 d g 32 (x.mask l)
       ((List.range (128 * g)).map fun i => if (x.p p.toNat).getLsbD i then (els 32 g (x.opA a g)).getD i 0
         else (els 32 g (x.opB b g)).getD i 0))) ∧
  (∀ (t : Ty) (F : Fmt) (x y : Nat), tyFmt t = some F →
     ((F.value x).isNan = true ∨ (F.value y).isNan = true →
       ∀ c : VCc, vcmpElem c t x y = true ↔ c = .ne ∨ c = .un) ∧
     (∀ (p q : Bool) (m n : Nat) (e f k : Int), F.value x = .fin p m e → F.value y = .fin q n f → k ≤ e → k ≤ f →
       let u := (if p then -1 else 1) * (m : Int) * 2 ^ (e - k).toNat
       let v := (if q then -1 else 1) * (n : Int) * 2 ^ (f - k).toNat
       vcmpElem .eq t x y = decide (u = v) ∧ vcmpElem .ne t x y = decide (u ≠ v) ∧ vcmpElem .lt t x y = decide (u < v) ∧
         vcmpElem .le t x y = decide (u ≤ v) ∧ vcmpElem .gt t x y = decide (v < u) ∧ vcmpElem .ge t x y = decide (v ≤ u) ∧
         vcmpElem .un t x y = false ∧ vcmpElem .or t x y = true) ∧
     (∀ u v : Int, (u ≠ 0 ∨ v ≠ 0) → (∀ z ∈ [(x, u), (y, v)], F.value z.1 = .inf true ∧ z.2 = -1 ∨ F.value z.1 = .inf false ∧ z.2 = 1 ∨
         (∃ p m e, F.value z.1 = .fin p m e) ∧ z.2 = 0) →
       vcmpElem .eq t x y = decide (u = v) ∧ vcmpElem .ne t x y = decide (u ≠ v) ∧ vcmpElem .lt t x y = decide (u < v) ∧
         vcmpElem .le t x y = decide (u ≤ v) ∧ vcmpElem .gt t x y = decide (v < u) ∧ vcmpElem .ge t x y = decide (v ≤ u) ∧
         vcmpElem .un t x y = false ∧ vcmpElem .or t x y = true)) ∧
  (∀ (t : Ty) (x y : Nat), t.isInt = true →
     let val := fun (z : Nat) => if t.isSigned then (BitVec.ofNat t.width z).toInt else ((BitVec.ofNat t.width z).toNat : Int)
     let u := val x
     let v := val y
     vcmpElem .eq t x y = decide (u = v) ∧ vcmpElem .ne t x y = decide (u ≠ v) ∧ vcmpElem .lt t x y = decide (u < v) ∧
       vcmpElem .le t x y = decide (u ≤ v) ∧ vcmpElem .gt t x y = decide (v < u) ∧ vcmpElem .ge t x y = decide (v ≤ u))

/-- R146 to R150: VCVT converts from TY2 to TY in the mode of RM, with the groups of R128; VPACK and VUNPK narrow and widen; VQNT forms
blocks of the enabled elements, the others read as +0, and writes its whole destination; VDQNT rounds the values of a block image in FMT.RM.
R47 and R146: a conversion to an integer type gives the value, rounded in the mode, clamped to the type's range, NaN gives 0, an infinity
the end of its sign. R48, R49 and R51: what an element of a block image is: a BX element has its sign, its magnitude and the block's
exponent less its quad's sub-exponent, at least 1; an MXFP8 element its code's value times the scale; the exponents 0x00 and 0xFF are zero
and NaN. R50 and R52: the block that 16 or 32 values give. A value that is not finite makes the NaN block, values that are all 0, or all
round to 0, the zero block. Else BX has the exponent of the largest magnitude, clamped to 1 to 254; each quad takes the largest sub-exponent
at which its elements fit, and each magnitude is rounded to nearest even and saturates. MXFP8 has its scale from the largest magnitude, and
each element is the saturating conversion of the exact quotient. -/
def Obligations.Conversions : Prop :=
  ((∀ (t u : Ty) (r : Rnd) (sat : Bool) (x : Nat), t.isInt = true →
     let lo : Int := if t.isSigned then -(2 ^ (t.width - 1)) else 0
     let hi : Int := if t.isSigned then 2 ^ (t.width - 1) - 1 else 2 ^ t.width - 1
     let got := tyInt t (convert r sat t u x)
     (u.isInt = true → got = max lo (min hi (tyInt u x))) ∧
     (∀ F, tyFmt u = some F → ((F.value x).isNan = true → got = 0) ∧ (∀ neg, F.value x = .inf neg → got = if neg then lo else hi) ∧
       (∀ neg m e, F.value x = .fin neg m e → ∃ n : Nat, RoundsTo r neg m e n ∧ got = max lo (min hi (if neg then -(n : Int) else n))))) ∧
   ∀ (s : State) (l : LentB) (rm : Rm) (t u : Ty) (k : Bk) (d a b : BitVec 7) (gd gs : Nat),
     let x := s.me
     let g := l.g.size
     let w := t.width
     let n := elems t g
     let D := blockRegs k n
     (wide g t u = some (gd, gs) → exec (.vcvt l rm t u d a) s = .next (s.givesV (x.loadA a gs) 4 d gd w (x.mask l)
       ((els u.width gs (x.opA a gs)).map (convert (rmMode rm x.fmt) (fmtSat x.fmt) t u)))) ∧
     exec (.vpack l t d a b) s = .next (s.givesV ((x.loadA a g).loadB b g) 2 d g (w / 2) (x.mask l)
       (els w g (x.opA a g) ++ els w g (x.opB b g))) ∧
     exec (.vunpk l t d a) s = .next (s.givesV (x.loadA a g) 2 d (2 * g) (2 * w) (x.mask l)
       ((els w g (x.opA a g)).map fun e => if t.isSigned then ((BitVec.ofNat w e).signExtend (2 * w)).toNat else e)) ∧
     exec (.vqnt l k t d a) s = .next (s.did 1 ((x.loadA a g).pushGroup 8 d.toNat D (BitVec.allOnes 1024) 8 (512 * D)
       (blockImage k ((els w g (x.opA a g)).zipIdx.map fun e =>
         if (x.mask l).getLsbD (e.2 % 1024) then (fmtOf t).value e.1 else .fin false 0 0)))) ∧
     exec (.vdqnt l t k d a) s = .next (s.givesV (x.loadA a D) 8 d g w (x.mask l)
       ((List.range n).map fun i => (fmtOf t).round (fmtRM x.fmt) (match imageElem k (x.opA a D) i with
         | .fin neg m e => if t = .f32 ∧ m ≠ 0 ∧ 128 ≤ e + Nat.log2 m then .inf neg else .fin neg m e
         | v => v)))) ∧
  ((∀ e ∈ [(Bk.bx3, 2, 8), (.bx5, 4, 12), (.bx8, 7, 18)], ∀ img b i : Nat, i < 16 →
     let w := e.2.1
     let B := img >>> (8 * e.2.2 * b)
     let E := B % 256
     let at' := 16 + (w + 1) * i
     imageElem e.1 img (16 * b + i) = if E = 0 then .fin false 0 0 else if E = 255 then .nan else
       .fin (B.testBit (at' + w)) (B >>> at' % 2 ^ w) ((max (E - B >>> (8 + 2 * (i / 4)) % 4) 1 : Nat) - 127 - ((w : Int) - 1))) ∧
   (∀ e ∈ [(Bk.mxE4m3, Fmt.e4m3), (.mxE5m2, .e5m2)], ∀ img b i : Nat, i < 32 →
     let B := img >>> (264 * b)
     let X := B % 256
     let c := e.2.value (B >>> (8 + 8 * i) % 256)
     let got := imageElem e.1 img (32 * b + i)
     (X = 255 → got = .nan) ∧
     (X ≠ 255 → (c.isNan = true → got = .nan) ∧ (∀ s, c = .inf s → got = .inf s) ∧ (∀ s m g, c = .fin s m g → got = .fin s m (g + X - 127))))) ∧
  (∀ (k : Bk) (x : List FV), x.length = k.shape.1 →
     let B := blockImage k x
     let finite := fun (v : FV) => ∃ s m e, v = .fin s m e
     ((∃ v ∈ x, ¬finite v) → B = 0xFF) ∧
     ((∀ v ∈ x, ∃ s e, v = .fin s 0 e) → B = 0) ∧
     (∀ top : Int, (∀ v ∈ x, finite v) → (∃ s m e, FV.fin s m e ∈ x ∧ m ≠ 0 ∧ e + Nat.log2 m = top) →
       (∀ s m e, FV.fin s m e ∈ x → m ≠ 0 → e + (Nat.log2 m : Int) ≤ top) →
       (∀ w : Nat, (k, w) ∈ [(Bk.bx3, 2), (.bx5, 4), (.bx8, 7)] →
         let E := max 1 (min 254 (top + 127))
         let mag := fun (t i n : Nat) => ∃ s m e, x[i]? = some (.fin s m e) ∧ RoundsTo .rne false m (e + w - 1 - (E - t - 127)) n
         let fits := fun (j t : Nat) => (1 : Int) ≤ E - t ∧ ∀ i, i < 16 → i / 4 = j → ∃ n, mag t i n ∧ n ≤ 2 ^ w - 1
         ∃ sub M : Nat → Nat,
           (∀ j, j < 4 → sub j ≤ 3 ∧ (sub j = 0 ∨ fits j (sub j)) ∧ ∀ t, sub j < t → t ≤ 3 → ¬fits j t) ∧
           (∀ i, i < 16 → ∃ n, mag (sub (i / 4)) i n ∧ M i = min n (2 ^ w - 1)) ∧
           ((∀ i, i < 16 → M i = 0) → B = 0) ∧
           ((∃ i, i < 16 ∧ M i ≠ 0) → ((B % 256 : Nat) : Int) = E ∧ (∀ j, j < 4 → B >>> (8 + 2 * j) % 4 = sub j) ∧
             ∀ i, i < 16 → B >>> (16 + (w + 1) * i) % 2 ^ w = M i ∧
               ∀ s m e, x[i]? = some (.fin s m e) → B.testBit (16 + (w + 1) * i + w) = s)) ∧
       (∀ F emax, (k, F, emax) ∈ [(Bk.mxE4m3, Fmt.e4m3, (8 : Int)), (.mxE5m2, .e5m2, 15)] →
         let X := max (-127) (min 127 (top - emax))
         ∃ y : Nat → Nat, (∀ i s m e, x[i]? = some (.fin s m e) → y i = F.roundS .rne true (.fin s m (e - X)) false) ∧
           ((∀ i, i < 32 → y i % 128 = 0) → B = 0) ∧
           ((∃ i, i < 32 ∧ y i % 128 ≠ 0) → ((B % 256 : Nat) : Int) = X + 127 ∧ ∀ i, i < 32 → B >>> (8 + 8 * i) % 256 = y i))))

/-- R56 to R59 and R151 to R153: the reductions write element 0 and zero to the others whatever the mask; VRADD adds by the halving tree,
VSCAN by the doubling order, a disabled element being absent; VRMAX and VRMIN order by R59; VSCANA composes pairs in the doubling order,
with (1, 0) for a disabled element and the last element of the old destination as carry-in. R56 and R57: with an operation that is
associative the halving tree over 2^k elements and the last element of the doubling order both give the fold of all elements in order when
the operation also commutes, and the doubling order gives every prefix. -/
def Obligations.Reductions : Prop :=
  (∀ (s : State) (l : LentB) (t : Ty) (d a b : BitVec 7),
     let x := s.me
     let g := l.g.size
     let F := fmtOf t
     let r := fmtRM x.fmt
     let n := elems t g
     let e := present (x.mask l) (els t.width g (x.opA a g))
     let sum := addOpt (sumElem t r)
     let out := fun (v : Nat) => s.givesV (x.loadA a g) 10 d g t.width (BitVec.allOnes 1024) [v]
     let pairs := ((els t.width g (x.opA a g)).zip (els t.width g (x.opB b g))).zipIdx.map fun q =>
       if (x.mask l).getLsbD (q.2 % 1024) then q.1 else (F.round .rne (.fin false 1 0), 0)
     let join := fun (p q : Nat × Nat) => (F.round r (FV.mul (F.value q.1) (F.value p.1)),
       F.round r (FV.add r (FV.mul (F.value q.1) (F.value p.2)) (F.value q.2)))
     let c := elemAt t.width (x.opC l.hc d g) (n - 1)
     exec (.vradd l t d a) s = .next (out ((((halve sum (Nat.log2 e.length) e).head?.join).map (canonElem t)).getD 0)) ∧
     exec (.vrmax l t d a) s = .next (out (pickAll t true e)) ∧
     exec (.vrmin l t d a) s = .next (out (pickAll t false e)) ∧
     exec (.vscan l t d a) s = .next (s.givesV (x.loadA a g) 12 d g t.width (x.mask l)
       ((doubling sum (Nat.log2 e.length) 1 e).map fun v => (v.map (canonElem t)).getD 0)) ∧
     exec (.vscana l t d a b) s = .next (s.givesV (((x.loadA a g).loadB b g).loadC l.hc d g) 14 d g t.width (x.mask l)
       ((doubling join (Nat.log2 n) 1 pairs).map fun p =>
         F.round r (FV.add r (FV.mul (F.value p.1) (F.value c)) (F.value p.2))))) ∧
  (∀ (f : Nat → Nat → Nat) (k : Nat) (l : List Nat), (∀ a b c, f (f a b) c = f a (f b c)) → l.length = 2 ^ k →
     (∀ i, i < 2 ^ k → (doubling f k 1 l)[i]? = some ((l.take (i + 1)).tail.foldl f (l.headD 0))) ∧
     ((∀ a b, f a b = f b a) → (halve f k l).head? = some (l.tail.foldl f (l.headD 0))))

/-- R154 to R158: copies, broadcasts, extraction and insertion of one element, shuffles, slides, zips and unzips, by the element each result
element takes. R174: VPERMB moves every element by the code: an index with one bit inverted, or with its low bits in reverse order. -/
def Obligations.LaneMovement : Prop :=
  (∀ (s : State) (l : LentB) (t : Ty) (d a b : BitVec 7) (sd s1 s2 : BitVec 6),
     let x := s.me
     let g := l.g.size
     let w := t.width
     let n := elems t g
     let va := els w g (x.opA a g)
     let vb := els w g (x.opB b g)
     let m := x.mask l
     let j := (x.s s2).toNat % (4096 / w)
     let k := (x.s s2).toNat
     let both := (x.loadA a g).loadB b g
     exec (.vmov l t d a) s = .next (s.givesV (x.loadA a g) 2 d g w m va) ∧
     exec (.vbcst l t d s1) s = .next (s.givesV x 2 d 1 w m (List.replicate (4096 / w) ((x.s s1).toNat % 2 ^ w))) ∧
     exec (.vext l t sd a s2) s = .next (s.did 1 (x.pushS 2 sd (
       let e := BitVec.ofNat w (elemAt w (x.group a.toNat g) j)
       if t.isSigned then e.signExtend 64 else e.setWidth 64))) ∧
     (∃ (bm : BitVec 512) (v : VReg), exec (.vins l t d s1 s2) s = .next (s.did 1 (x.push 2 (.v d.toNat bm v))) ∧
       (∀ i, i < 512 → (bm.getLsbD i = true ↔ i / (w / 8) = j ∧ m.getLsbD (j % 1024) = true)) ∧
       v.extractLsb' (j * w) w = (x.s s1).setWidth w) ∧
     exec (.vshfl l t d a b) s = .next (s.givesV both 3 d g w m ((List.range n).map fun i => va.getD (vb.getD i 0 % n) 0)) ∧
     exec (.vslide l t false d a s2) s =
       .next (s.givesV (x.loadA a g) 2 d g w m ((List.range n).map fun i => if k ≤ i then va.getD (i - k) 0 else 0)) ∧
     exec (.vslide l t true d a s2) s =
       .next (s.givesV (x.loadA a g) 2 d g w m ((List.range n).map fun i => if i + k < n then va.getD (i + k) 0 else 0)) ∧
     exec (.vzip l t d a b) s =
       .next (s.givesV both 2 d g w m ((List.range n).map fun i => if i % 2 = 0 then va.getD (i / 2) 0 else vb.getD (i / 2) 0)) ∧
     exec (.vunzip l t d a b) s = .next (s.givesV both 2 d g w m ((List.range n).map fun i => (va ++ vb).getD (2 * i) 0))) ∧
  (∀ (s : State) (l : LentB) (d a : BitVec 7) (c : BitVec 5),
     let x := s.me
     let g := l.g.size
     ∃ out : List Nat, out.length = 64 * g ∧ exec (.vpermb l d a c) s = .next (s.givesV (x.loadA a g) 3 d g 64 (x.mask l) out) ∧
       (c.toNat ≤ 6 → ∀ j, j < 64 * g → out.getD j 0 = elemAt 64 (x.opA a g) (j ^^^ 2 ^ c.toNat)) ∧
       (17 ≤ c.toNat → c.toNat ≤ 23 → ∀ j, j < 64 * g → ∀ i,
         (∀ n, n < c.toNat - 16 → i.testBit n = j.testBit (c.toNat - 16 - 1 - n)) →
         (∀ n, c.toNat - 16 ≤ n → i.testBit n = j.testBit n) → out.getD j 0 = elemAt 64 (x.opA a g) i))

/-- R159: where a byte of the scratchpad lies. The linear view places line L in line L; the swizzled view in (L AND NOT 31) OR ((L XOR (L >>
5)) AND 31). Both are one-to-one, and each keeps a line in its block of 32. -/
def Obligations.ScratchpadViews : Prop :=
  ∀ (p q : Part) (v : View),
    p.byte .lin = p.addr ∧
    viewLine .swz (p.addr / 64) = (p.addr / 64 - p.addr / 64 % 32) ||| ((p.addr / 64 ^^^ (p.addr / 64) >>> 5) &&& 31) ∧
    p.byte .swz = 64 * viewLine .swz (p.addr / 64) + p.addr % 64 ∧
    p.byte v / 2048 = p.addr / 2048 ∧
    (p.byte v = q.byte v → p.addr = q.addr)

/-- R160, R163: VST stores the enabled 32-bit words of its group through its view and no other byte; with an enabled byte outside the window
it, and VLD, trap BOUNDS with TVAL the address, and nothing is stored. R160 to R162 and R276: VLD, VLDX and VLDR read the enabled bytes of
their lines through their view into a group that becomes visible three bundles later. Each line is read as it stands, or, where a store
through the other view among the last seven bundles is unordered with it, as it stood before that store. VSTX and VSTR store the enabled
elements in ascending order. VLDX and VSTX trap BOUNDS at the lowest enabled element outside the window, VLDR and VSTR trap RING by the
conditions of R162. That an address sum is taken modulo 2^64 before it meets the window, and that TVAL of VLDX and VSTX has the bits below
the element width clear, is the choice of this model (log entries 24 and 82). -/
def Obligations.ScratchpadAccess : Prop :=
  (∀ (s : State) (l : LentB) (view : View) (v : BitVec 7) (a : BitVec 6) (off : BitVec 11),
     let x := s.me
     let g := l.g.size
     let q := (x.s a + BitVec.ofNat 64 (64 * off.toNat)).toNat
     let base := q - q % 64
     let on := fun j => (x.mask l).getLsbD (j % 1024)
     let place := fun u => 64 * viewLine view (u / 64) + u % 64
     ((∃ j, j < 128 * g ∧ on j = true ∧ x.spadSize < base + 4 * j + 4) →
       exec (.vst l view v a off) s = .next (s.traps 1 .bounds (BitVec.ofNat 64 q)) ∧
       exec (.vld l view v a off) s = .next (s.traps 1 .bounds (BitVec.ofNat 64 q))) ∧
     ((∀ j, j < 128 * g → on j = true → base + 4 * j + 4 ≤ x.spadSize) →
       ∃ t : State, exec (.vst l view v a off) s = .next t ∧
         (∀ j b, j < 128 * g → on j = true → b < 4 →
           Mem.read t.me.spad (place (base + 4 * j) + b) = BitVec.ofNat 8 (x.group v.toNat g >>> (8 * (4 * j + b)))) ∧
         (∀ u, (∀ j b, j < 128 * g → on j = true → b < 4 → u ≠ place (base + 4 * j) + b) →
           Mem.read t.me.spad u = Mem.read x.spad u) ∧
         t.me.sreg = x.sreg ∧ t.me.vreg = x.vreg ∧ t.me.preg = x.preg ∧ t.me.pend = x.pend ∧ t.me.pendH = x.pendH ∧
         t.me.rings = x.rings ∧ t.me.sdm = x.sdm ∧ t.mem = s.mem)) ∧
  (∀ (s : State) (l : LentB) (view : View) (t : Ty) (v : BitVec 7) (a : BitVec 6) (vi : BitVec 7) (off : BitVec 11) (h : BitVec 4)
     (o : BitVec 8) (need : BitVec 5),
     let x := s.me
     let g := l.g.size
     let m := x.mask l
     let ps := wordParts m g (x.s a + BitVec.ofNat 64 (64 * off.toNat)).toNat
     let es := indexParts m t.width (x.s a) (x.v vi.toNat).toNat
     let r := x.ring h.toNat
     let size := 64 * r.slsz
     let ring := fun (start : Nat) => (((List.range (128 * g)).filter fun j => m.getLsbD (j % 1024)).map fun j =>
       (Sys2Proof.Machine.Part.mk (r.base + (start * size + 64 * o.toNat + 4 * j) % (size * r.nslot)) 4 (4 * j)))
     let fine := r.en = true ∧ need.toNat ≤ r.nslot ∧ 64 * o.toNat + 512 * g ≤ need.toNat * size
     let loads := fun (i : Instr) (w n : Nat) (ps : List Part) =>
       ∃ (f val : Nat) (seen : Nat → BitVec 512),
         exec i s = .next ({ s with free := f }.did 1 (x.pushGroup 3 v.toNat g m w n val)) ∧
         (∀ k ∈ linesOf view ps, seen k ∈ lineStates x view k) ∧
         ∀ p ∈ ps, ∀ b, b < p.len →
           BitVec.ofNat 8 (val >>> (8 * (p.off + b))) = (seen (p.line view)).extractLsb' (8 * (p.addr % 64 + b)) 8
     ((∀ p ∈ ps, p.addr + p.len ≤ x.spadSize) → loads (.vld l view v a off) 32 (128 * g) ps) ∧
     ((∀ p ∈ es, p.addr + p.len ≤ x.spadSize) → loads (.vldx l view t v a vi) t.width 128 es ∧
       exec (.vstx l view t v a vi) s = .next (s.did 1 (x.spadStore view (x.group v.toNat g) es))) ∧
     (∀ p, es.find? (fun e => decide (x.spadSize < e.addr + e.len)) = some p →
       exec (.vldx l view t v a vi) s = .next (s.traps 1 .bounds (BitVec.ofNat 64 p.addr)) ∧
       exec (.vstx l view t v a vi) s = .next (s.traps 1 .bounds (BitVec.ofNat 64 p.addr))) ∧
     (fine → r.bind ≠ 2 → r.base % 64 = 0 → loads (.vldr l view v h o need) 32 (128 * g) (ring r.head)) ∧
     (fine → r.bind ≠ 1 →
       exec (.vstr l view v h o need) s = .next (s.did 1 (x.spadStore view (x.group v.toNat g) (ring r.tail)))) ∧
     (¬fine ∨ r.bind = 2 → exec (.vldr l view v h o need) s = .next (s.traps 1 .ring (o.setWidth 64))) ∧
     (¬fine ∨ r.bind = 1 → exec (.vstr l view v h o need) s = .next (s.traps 1 .ring (o.setWidth 64))))

/-- R168: with a legal modulus, the constant of R165 and x below q², `barrett` is x mod q; the sums and differences of canonical operands
are the residues; every one of them is canonical. -/
def Obligations.ModularReduction : Prop :=
  ∀ (x q k a c : Nat), legalModulus q = true → k = 2 ^ (bitLength q + 63) / q →
    (x < q * q → barrett x q k = x % q) ∧
    (2 ^ 63 ≤ k ∧ k < 2 ^ 64) ∧
    (a < q → c < q → modadd a c q = (a + c) % q ∧ modsub a c q = (a + q - c) % q)

/-- R164, R166, R167 and R170: the element-wise modular instructions, each element with its own lane's modulus and constant, where every
enabled lane is set; where one is not, and where VMSETM meets an illegal modulus in an enabled lane, MODULUS with TVAL the lowest such lane,
and nothing is written. R171, R172, R174: a butterfly stage s pairs element j(p) with j(p) + 2^s, takes twiddle p, and writes both outputs
with the modulus of the lower one's lane; an enabled output whose lane is unset traps MODULUS. -/
def Obligations.ModularLanes : Prop :=
  (∀ (s : State) (l : LentB) (d a b : BitVec 7) (mi : BitVec 2),
     let x := s.me
     let g := l.g.size
     let on := fun i => (x.mask l).getLsbD (i % 1024)
     let q := fun i => (x.mLane mi i).toNat
     let k := fun i => (x.kLane mi i).toNat
     let va := fun i => elemAt 64 (x.opA a g) i
     let vb := fun i => elemAt 64 (x.opB b g) i
     let vd := fun i => elemAt 64 (x.opC l.hc d g) i
     let both := (x.loadA a g).loadB b g
     let out := fun (y : Strand) (lat : Nat) (f : Nat → Nat) => s.givesV y lat d g 64 (x.mask l) ((List.range (64 * g)).map f)
     let m1 := x.opA a 1
     ((∀ i, i < 64 * g → on i = true → q i ≠ 0) →
       exec (.vmodadd l d a b mi) s = .next (out both 2 fun i =>
         (if q i ≤ va i + vb i then va i + vb i - q i else va i + vb i) % 2 ^ 64) ∧
       exec (.vmodsub l d a b mi) s = .next (out both 2 fun i =>
         ((if (va i : Int) - vb i < 0 then (va i : Int) - vb i + q i else (va i : Int) - vb i) % 2 ^ 64).toNat) ∧
       exec (.vmodmul l d a b mi) s = .next (out both 6 fun i => barrett (va i * vb i) (q i) (k i)) ∧
       exec (.vmodmac l d a b mi) s = .next (out (both.loadC l.hc d g) 6 fun i => barrett (va i * vb i + vd i) (q i) (k i)) ∧
       exec (.vmodred l d a mi) s = .next (out (x.loadA a g) 6 fun i => va i % q i) ∧
       exec (.vmodneg l d a mi) s = .next (out (x.loadA a g) 2 fun i =>
         if va i = 0 then 0 else (((q i : Int) - va i) % 2 ^ 64).toNat)) ∧
     (∀ i, i < 64 * g → on i = true → q i = 0 → (∀ j, j < 64 * g → on j = true → q j = 0 → i % 64 ≤ j % 64) →
       let t := Host.Outcome.next (s.traps 1 .modulus (BitVec.ofNat 64 (i % 64)))
       exec (.vmodadd l d a b mi) s = t ∧ exec (.vmodsub l d a b mi) s = t ∧ exec (.vmodmul l d a b mi) s = t ∧
         exec (.vmodmac l d a b mi) s = t ∧ exec (.vmodred l d a mi) s = t ∧ exec (.vmodneg l d a mi) s = t) ∧
     ((∀ i, i < 64 → on i = true → legalModulus (elemAt 64 m1 i) = true) → exec (.vmsetm l mi a) s =
       .next (s.did 1 ((x.loadA a 1).push 2 (.m mi.toNat ((x.mask l).setWidth 64) (BitVec.ofNat 4096 m1))))) ∧
     (∀ i, i < 64 → on i = true → legalModulus (elemAt 64 m1 i) = false →
       (∀ j, j < i → on j = true → legalModulus (elemAt 64 m1 j) = true) →
       exec (.vmsetm l mi a) s = .next (s.traps 1 .modulus (BitVec.ofNat 64 i))) ∧
     exec (.vmsetk l mi a) s =
       .next (s.did 1 ((x.loadA a 1).push 2 (.k mi.toNat ((x.mask l).setWidth 64) (BitVec.ofNat 4096 m1))))) ∧
  (∀ (s : State) (l : LentB) (d b : BitVec 7) (mi : BitVec 2) (c : BitVec 5), 2 ^ (c.toNat + 1) ≤ 64 * l.g.size →
     let x := s.me
     let g := l.g.size
     let h := 2 ^ c.toNat
     let low := fun p => (p >>> c.toNat) <<< (c.toNat + 1) + p % h
     let D := fun j => elemAt 64 (x.group d.toNat g) j
     let W := fun p => elemAt 64 (x.opB b 1) p
     let q := fun j => (x.mLane mi j).toNat
     let k := fun j => (x.kLane mi j).toNat
     let on := fun i => (x.mask l).getLsbD (i % 1024)
     let set := ∀ p, p < 32 * g → (on (low p) = true ∨ on (low p + h) = true) → q (low p) ≠ 0
     let fwd := fun p => let j := low p; let v := barrett (D (j + h) * W p) (q j) (k j); (modadd (D j) v (q j), modsub (D j) v (q j))
     let inv := fun p => let j := low p
       (modadd (D j) (D (j + h)) (q j), barrett (modsub (D j) (D (j + h)) (q j) * W p) (q j) (k j))
     let gives := fun (i : Instr) (f : Nat → Nat × Nat) => ∃ out : List Nat, out.length = 64 * g ∧
       exec i s = .next (s.givesV (x.loadB b 1) 8 d g 64 (x.mask l) out) ∧
       ∀ p, p < 32 * g → out.getD (low p) 0 = (f p).1 ∧ out.getD (low p + h) 0 = (f p).2
     (set → gives (.vbfly l d b mi c) fwd ∧ gives (.vbflyi l d b mi c) inv) ∧
     (¬set → ∃ j : Nat, j < 64 ∧ x.mLane mi j = 0 ∧
       (∀ p, p < 32 * g → (on (low p) = true ∨ on (low p + h) = true) → q (low p) = 0 → j ≤ low p % 64) ∧
       exec (.vbfly l d b mi c) s = .next (s.traps 1 .modulus (BitVec.ofNat 64 j)) ∧
       exec (.vbflyi l d b mi c) s = .next (s.traps 1 .modulus (BitVec.ofNat 64 j))))

/-- R181: an instruction of slot C whose stage predicate reads 0 performs nothing and takes no trap; it counts as performed. R66, R199: an
instruction of slot D whose guard reads 0 in lane 0 performs nothing and takes no trap; it counts as performed. PREF has no architected
effect with either guard. -/
def Obligations.TurnedOff : Prop :=
  (∀ (s : State) (l : LentC) (v n : BitVec 7) (nc : BitVec 8) (a : BitVec 6) (view : View) (row : BitVec 9) (sw k z : Bool) (t : Ty) (bk : Bk),
     l.qe = true → s.me.q.getLsbD l.qi.toNat = false →
     ∀ i ∈ [Instr.mcfg l v nc, .mshift l v n, .mswap l, .mstg l v, .mrot l n, .mgath l view v a, .mpush l v row sw k, .macc l v row,
         .mldacc l v row, .mzero l row, .mdrain l t z v row, .mdrainq l bk z v row],
       exec i s = .next (s.did 2 s.me)) ∧
  (∀ (s : State) (gd : BitVec 4) (g : Grp) (v : BitVec 7) (d a b : BitVec 6) (arr : BitVec 10) (z : Sz) (w : As) (aq : BitVec 5)
     (op : AtomOp) (rop : RedOp) (sc : Scope) (fk : FenceKind) (h : BitVec 4) (dr e5 : Bool) (sel : KqSel),
     exec (.pref gd a) s = .next (s.did 3 s.me) ∧
     ((s.me.p gd.toNat).getLsbD 0 = false →
       ∀ i ∈ [Instr.tld gd g v a arr, .tlds gd g v a arr, .tldm gd g v a arr, .sldg gd z d a arr, .rld gd g v a arr, .tst gd g v a,
           .tsts gd g v a, .sstg gd z d a, .atadd gd w d a b aq, .atfadd gd w d a b aq, .atmin gd w d a b aq, .atmax gd w d a b aq,
           .atand gd w d a b aq, .ator gd w d a b aq, .atxor gd w d a b aq, .atswp gd w d a b aq, .atcas gd w d a b aq, .red gd rop w a b,
           .fence gd sc fk, .vjoin gd, .strm gd d a b h dr, .strmx gd d h, .cpy gd d a b, .rst gd g v a, .ratm gd op w d a b,
           .xred gd e5 d a b, .lease gd d a b, .lrecl gd d a b, .mapr gd d a, .wbr gd d a, .invr gd a, .krot gd d a b, .kqry gd sel d a,
           .seal gd d a b, .unseal gd d a b, .scrub gd d a, .meas gd d a],
         exec i s = .next (s.did 3 s.me)))

/-- R176, R177: the geometry of every input format: lanes, elements and bytes of an A row, its registers, bytes and registers of a B latch
row, and segments of a gathered row. R184 to R190: MCFG sets KR and NC, MSHIFT a row of the shadow latches, MSTG an entry of the operand
latch, each two bundles later; MSWAP exchanges the latch sets at once; MROT rotates the head entry two bundles later, without an entry
nothing; MGATH appends its rows eight bundles later. An odd pair, a row that FP64 excludes, a format that MROT excludes trap FORMAT with
TVAL the slot word, a segment outside the window BOUNDS with TVAL the lowest address; that TVAL keeps the low bits of that address is the
model's reading (log entries 26 and 82). -/
def Obligations.MatrixOperands : Prop :=
  (∀ x : Strand,
     let f := fmtAF x.fmt
     (f < 4 → x.geo = ⟨4, 384, 384, 1, 512, 1, 6⟩) ∧ (f = 4 → x.geo = ⟨4, 384, 432, 1, 576, 2, 7⟩) ∧
     (f = 5 → x.geo = ⟨8, 768, 576, 2, 768, 2, 9⟩) ∧ (f = 6 → x.geo = ⟨16, 1536, 768, 2, 1024, 2, 12⟩) ∧
     (f = 7 ∨ f = 8 → x.geo = ⟨2, 192, 384, 1, 512, 1, 6⟩) ∧ (f = 9 → x.geo = ⟨1, 96, 384, 1, 512, 1, 6⟩) ∧
     (f = 10 → x.geo = ⟨1, 6, 48, 1, 1024, 2, 1⟩)) ∧
  (∀ (s : State) (l : LentC) (kr v n : BitVec 7) (nc : BitVec 8) (a : BitVec 6) (view : View),
     let x := s.me
     let g := x.geo
     let m := x.mat
     let fp64 := fmtACF x.fmt = 2
     let block := 4 ≤ fmtAF x.fmt ∧ fmtAF x.fmt ≤ 6
     let word := (slotOf x.iss.word 2).setWidth 64
     let bad := Host.Outcome.next (s.traps 2 .format word)
     let rows := gatherSegs x v a
     let read := fun u => some u ∈ rows.flatten
     ¬(l.qe = true ∧ x.q.getLsbD l.qi.toNat = false) →
     exec (.mcfg l kr nc) s = .next (s.did 2 (x.push 2 (.mcfg kr.toNat (nc.toNat + 1)))) ∧
     (¬(fp64 ∧ n.toNat % 16 ≠ 0) → ¬(g.db = 2 ∧ v.toNat % 2 = 1) →
       exec (.mshift l v n) s =
         .next (s.did 2 (x.push 2 (.shadow n.toNat (BitVec.ofNat 8192 (x.group v.toNat g.db % 2 ^ (8 * g.bb))))))) ∧
     ((fp64 ∧ n.toNat % 16 ≠ 0) ∨ (g.db = 2 ∧ v.toNat % 2 = 1) → exec (.mshift l v n) s = bad) ∧
     exec (.mswap l) s = .next (s.did 2 { x with mat := { m with active := m.shadow, shadow := m.active } }) ∧
     (¬(g.da = 2 ∧ v.toNat % 2 = 1) →
       exec (.mstg l v) s = .next (s.did 2 (x.push 2 (.stage (BitVec.ofNat 6144 (x.group v.toNat g.da % 2 ^ (8 * g.ab))))))) ∧
     (g.da = 2 ∧ v.toNat % 2 = 1 → exec (.mstg l v) s = bad) ∧
     (¬fp64 → ¬block → (m.queue = [] → exec (.mrot l n) s = .next (s.did 2 x)) ∧
       (∀ e r, m.queue = e :: r → exec (.mrot l n) s = .next (s.did 2 (x.push 2 (.rotate e.1 n.toNat))))) ∧
     (fp64 ∨ block → exec (.mrot l n) s = bad) ∧
     ((∀ u, read u → u - u % 64 + 64 ≤ x.spadSize) → exec (.mgath l view v a) s =
       .next (s.did 2 { x.push 8 (.gather view x.ord g.ab (rows.map fun r => r.map fun o => GatherSeg.mk (o.map fun u => viewLine view (u / 64)) none))
         with mat := { m with gathers := m.gathers ++ [⟨x.iss.handler, x.iss.n + 8, s.clk,
          ((rows.flatten.filterMap id).map fun u => viewLine view (u / 64)).eraseDups⟩] } })) ∧
     (∀ u, read u → x.spadSize < u - u % 64 + 64 → (∀ w, read w → x.spadSize < w - w % 64 + 64 → u ≤ w) →
       exec (.mgath l view v a) s = .next (s.traps 2 .bounds (BitVec.ofNat 64 u))))

/-- R193, R194 and R183: MPUSH exchanges the latches with SW, takes its A row from the register group or the head of the operand latch,
which it pops without K, and adds the column sums below NC to the accumulator unit; MACC adds, MLDACC sets and MZERO zeroes all 128 columns.
Each is one operation in issue order on the unit at its row, which a drain sees 100 bundles later. R53 to R55, R177, R178 and R180: what an
accumulator operation makes of a row. A beat adds, to each column below NC, the sum of its column: in FP32 each active PE row rounds the
exact sum of its lane products once, the rows are added in order with one rounding each, rows at and above KR are +0, and the result is
rounded into the unit; INT32 adds exact products modulo 2^32; FP64 is a fused multiply-add per group of 16 active rows. A beat without an A
row adds +0. A column that an operation names nothing for stays. -/
def Obligations.MatrixAccumulate : Prop :=
  (∀ (s : State) (l : LentC) (v : BitVec 7) (row : BitVec 9) (sw k : Bool),
     let x := s.me
     let g := x.geo
     let fp64 := fmtACF x.fmt = 2
     let bad := Host.Outcome.next (s.traps 2 .format ((slotOf x.iss.word 2).setWidth 64))
     let img := x.group v.toNat (if fp64 then 2 else 1)
     let m := if sw then { x.mat with active := x.mat.shadow, shadow := x.mat.active } else x.mat
     let a := if v = 0x7F then m.queue.head?.map fun e => e.2.toNat % 2 ^ (8 * g.ab) else some (x.group v.toNat g.da % 2 ^ (8 * g.ab))
     ¬(l.qe = true ∧ x.q.getLsbD l.qi.toNat = false) →
     (¬(v ≠ 0x7F ∧ g.da = 2 ∧ v.toNat % 2 = 1) → ¬(fp64 ∧ row.toNat % 2 = 1) →
       exec (.mpush l v row sw k) s = .next (s.did 2 ({ x with
         mat := if v = 0x7F ∧ k = false then { m with queue := m.queue.tail } else m }.accWrite row.toNat (beatOp m x.fmt a)))) ∧
     ((v ≠ 0x7F ∧ g.da = 2 ∧ v.toNat % 2 = 1) ∨ (fp64 ∧ row.toNat % 2 = 1) → exec (.mpush l v row sw k) s = bad) ∧
     (¬(fp64 ∧ (row.toNat % 2 = 1 ∨ v.toNat % 2 = 1)) →
       exec (.macc l v row) s = .next (s.did 2 (x.accWrite row.toNat (
         if fp64 then .addF64 ((unpackElems 64 128 img).map fun e => some (BitVec.ofNat 64 e))
         else if fmtACF x.fmt = 1 then .addI32 ((unpackElems 32 128 img).map fun e => some (BitVec.ofNat 32 e))
         else .addF32 ((unpackElems 32 128 img).map fun e => some (BitVec.ofNat 32 e))))) ∧
       exec (.mldacc l v row) s = .next (s.did 2 (x.accWrite row.toNat (.set (BitVec.ofNat 8192 img))))) ∧
     (fp64 ∧ (row.toNat % 2 = 1 ∨ v.toNat % 2 = 1) → exec (.macc l v row) s = bad ∧ exec (.mldacc l v row) s = bad) ∧
     (¬(fp64 ∧ row.toNat % 2 = 1) → exec (.mzero l row) s = .next (s.did 2 (x.accWrite row.toNat (.set 0)))) ∧
     (fp64 ∧ row.toNat % 2 = 1 → exec (.mzero l row) s = bad)) ∧
  (∀ (m : Matrix) (fmt : BitVec 13) (img old c : Nat), 1 ≤ m.kr → m.kr ≤ 96 → m.nc ≤ 128 →
     let lw := (geoOf (fmtAF fmt)).lw
     let F := Fmt.f32
     let D := Fmt.f64
     let elem := fun (code i j : Nat) => match codeBk code with
       | some k => imageElem k i j
       | none => match tyFmt (codeTy code) with
         | some G => G.value (elemAt G.w i j)
         | none => FV.ofInt (tyInt (codeTy code) (elemAt 8 i j))
     let int := fun (code i j : Nat) => tyInt (codeTy code) (elemAt 8 i j)
     let zero := FV.fin false 0 0
     let product := fun r l => FV.mul (elem (fmtAF fmt) img (r * lw + l)) (elem (fmtBF fmt) (m.row r) (c * lw + l))
     let p := fun r => if r < m.kr then
       F.value (F.round .rne ((List.range (lw - 1)).foldl (fun s l => FV.add .rne s (product r (l + 1))) (product r 0))) else zero
     let chain := (List.range 95).foldl (fun s r => F.value (F.round .rne (FV.add .rne s (p (r + 1))))) (p 0)
     let sum := ((List.range m.kr).map fun r => ((List.range lw).map fun l =>
       int (fmtAF fmt) img (r * lw + l) * int (fmtBF fmt) (m.row r) (c * lw + l)).sum).sum
     let fused := fun (col g : Nat) => FV.mul (elem (fmtAF fmt) img g) (elem (fmtBF fmt) (m.row (16 * g)) col)
     let groups := fun (col : Nat) => if m.kr < 16 then zero else
       (List.range (m.kr / 16 - 1)).foldl (fun s g => D.value (D.round .rne (FV.add .rne (fused col (g + 1)) s))) (D.value (D.round .rne (fused col 0)))
     let add := fun (G : Fmt) (o : Nat) (v : FV) => G.round .rne (FV.add .rne (G.value o) v)
     (c < 128 → fmtOk fmt = true →
       (fmtACF fmt = 0 → elemAt 32 ((beatOp m fmt (some img)).onRow 0 old) c =
           (if c < m.nc then add F (elemAt 32 old c) chain else elemAt 32 old c) ∧
         elemAt 32 ((beatOp m fmt none).onRow 0 old) c = if c < m.nc then add F (elemAt 32 old c) zero else elemAt 32 old c) ∧
       (fmtACF fmt = 1 → elemAt 32 ((beatOp m fmt (some img)).onRow 0 old) c =
         if c < m.nc then (((elemAt 32 old c : Nat) + sum) % 2 ^ 32).toNat else elemAt 32 old c)) ∧
     (c < 64 → fmtOk fmt = true → fmtACF fmt = 2 → ∀ q, q < 2 → elemAt 64 ((beatOp m fmt (some img)).onRow q old) c =
       if 64 * q + c < m.nc then add D (elemAt 64 old c) (groups (64 * q + c)) else elemAt 64 old c) ∧
     (∀ (cs : List (Option (BitVec 32))) (w : Option (BitVec 32)), cs.length = 128 → cs[c]? = some w →
       elemAt 32 ((AccOp.addF32 cs).onRow 0 old) c = (w.map fun v => add F (elemAt 32 old c) (F.value v.toNat)).getD (elemAt 32 old c) ∧
       elemAt 32 ((AccOp.addI32 cs).onRow 0 old) c = (w.map fun v => (elemAt 32 old c + v.toNat) % 2 ^ 32).getD (elemAt 32 old c)) ∧
     (∀ (cs : List (Option (BitVec 64))) (w : Option (BitVec 64)) (q : Nat), cs.length = 128 → q < 2 → c < 64 → cs[64 * q + c]? = some w →
       elemAt 64 ((AccOp.addF64 cs).onRow q old) c = (w.map fun v => add D (elemAt 64 old c) (D.value v.toNat)).getD (elemAt 64 old c)) ∧
     ∀ (v : BitVec 8192) (q : Nat), q < 2 → (AccOp.set v).onRow q old = (v.extractLsb' (4096 * q) 4096).toNat)

/-- R84, R86 and R195 to R197: MDRAIN and MDRAINQ read the accumulator unit as the operations of 100 bundles ago and earlier leave it and
write its 128 converted columns, or its blocks, to their destination; with .z the unit is zeroed in issue order. A type that the accumulate
format excludes, a block form outside FP32 and an odd FP64 row trap FORMAT. That an exact .f64 column that is NaN is written as the
canonical NaN is the model's reading of R40 against R195 (log entry 28). R84 and R86: a drain in kernel mode at bundle n of a unit to which
a strand has one operation sees it exactly where 100 bundles lie between, and an operation applies to the row it names. -/
def Obligations.MatrixDrain : Prop :=
  (∀ (s : State) (l : LentC) (t : Ty) (k : Bk) (z : Bool) (d : BitVec 7) (row : BitVec 9),
     let x := s.me
     let acf := fmtACF x.fmt
     let bad := Host.Outcome.next (s.traps 2 .format ((slotOf x.iss.word 2).setWidth 64))
     let unit := x.drainUnit row.toNat
     let ok := if acf = 2 then t ∈ [Ty.f64, .f32] else if acf = 1 then t ∈ [Ty.i32, .i16, .i8, .n8, .f32]
       else t ∈ [Ty.f32, .bf16, .f16, .e4m3, .e5m2]
     let from' := if acf = 2 then Ty.f64 else if acf = 1 then .i32 else .f32
     let g := if t = .f64 then 2 else 1
     let zeroed := fun (y : Strand) => if z then y.accWrite row.toNat (.set 0) else y
     ¬(l.qe = true ∧ x.q.getLsbD l.qi.toNat = false) →
     (ok → ¬(acf = 2 ∧ row.toNat % 2 = 1) → exec (.mdrain l t z d row) s = .next (s.did 2 (zeroed
       (x.pushGroup 6 d.toNat g (BitVec.allOnes 1024) 8 (512 * g)
         (packElems t.width ((unpackElems from'.width 128 unit).map (convert (fmtRM x.fmt) (fmtSat x.fmt) t from'))))))) ∧
     (¬ok ∨ (acf = 2 ∧ row.toNat % 2 = 1) → exec (.mdrain l t z d row) s = bad) ∧
     (acf = 0 → exec (.mdrainq l k z d row) s = .next (s.did 2 (zeroed
       (x.pushGroup 8 d.toNat 1 (BitVec.allOnes 1024) 8 512
         (blockImage k ((unpackElems 32 128 unit).map Fmt.f32.value)))))) ∧
     (acf ≠ 0 → exec (.mdrainq l k z d row) s = bad)) ∧
  (∀ (x : Strand) (n row : Nat) (op : AccOp), x.accOps = [] → x.iss.handler = false → fmtACF x.fmt ≠ 2 →
     let y := x.accWrite row op
     let z := { y with iss := { y.iss with n := n } }
     (x.iss.n + 100 ≤ n → z.drainUnit row = op.onRow 0 (leNat (Mem.readN x.accBase (512 * row) 512))) ∧
     (n < x.iss.n + 100 → z.drainUnit row = leNat (Mem.readN x.accBase (512 * row) 512)) ∧
     (∀ r, r ≠ row → z.drainUnit r = leNat (Mem.readN x.accBase (512 * r) 512)))

/-- R253, R261: what an instruction that enters the memory queue appends: one request with the identity of its strand, last in program
order, for which a trap's entry waits where it says so; and its landing takes the register at its own cycle, unready. R200, R202, R203,
R212, R219, R220: a command at issue. The region closes; where nothing of the memory queue holds it back the engine accepts it at once, and
its promise, the sum of its term, the skew, and the later of now and the last promise its engine holds, is the value that lands in sd at
bundle n + 4; else it waits, and its landing with it. A copy of no bytes has written all at its acceptance: it ends there, or its post sets
out. R219, R220, R236, R377: the term of each command's promise. Where a copy, RST, RATM or XRED has an end in the fabric half whose first
page translates, the term is 400 and the rotor term of its messages; SEAL and UNSEAL add the rotor term to their own. WBR's term is that of
the range it names (log entry 37). -/
def Obligations.MemoryQueue : Prop :=
  (∀ (s : State) (w half : Bool) (k : ReqKind) (ps : List Piece) (n : Nat) (tgt : Target),
     let r := s.addReq w k ps
     let x := s.me
     r.1 = s.nextId ∧ r.2.nextId = s.nextId + 1 ∧
     r.2.reqs = s.reqs ++ [⟨s.nextId, none, s.nextId, s.cur, x.gtag, x.sidx, x.part, x.iss.handler, k, .queued, none, ps⟩] ∧
     r.2.me = (if w then { x with iss := { x.iss with await := s.nextId :: x.iss.await } } else x) ∧
     x.land half n s.nextId tgt = x.addWrite ⟨x.iss.n + n, some s.nextId, half, false, false, tgt⟩ ∧
     r.2.cmds = s.cmds ∧ r.2.posts = s.posts ∧ r.2.mem = s.mem ∧ ∀ j, j ≠ s.cur → r.2.strand j = s.strand j) ∧
  (∀ (s : State) (d : BitVec 6) (k : CmdKind) (f0 f1 : W64) (c : Cmd),
     let t := s.closeRegion
     let id := t.nextId
     let u := s.issueCmd d k f0 f1
     let free := t.commandFree t.cur id = true ∧ ∀ e ∈ t.cmds, e.strand = t.cur → e.kind.counted = true → e.accepted ≠ none
     let p := max t.clk (t.lastPromise (k.engine s.cur)) + t.promiseTerm t.me.part k + (t.core (coreOf s.cur)).skew
     let lands := t.me.land false 4 id (.s d.toNat 0)
     let empty := ∃ a b, k = .cpy a b 0
     k.counted = true →
     (free → d ≠ 0 → u.me.pend = fillLanding id (landScalar (BitVec.ofNat 64 p)) lands.pend ∧
       u.me.pendH = fillLanding id (landScalar (BitVec.ofNat 64 p)) lands.pendH) ∧
     (¬free → d ≠ 0 → u.me.pend = lands.pend ∧ u.me.pendH = lands.pendH) ∧
     (¬empty → u.cmds.getLast? = some c →
       c.strand = s.cur ∧ c.kind = k ∧ c.fd0 = f0 ∧ c.fd1 = f1 ∧ c.part = t.me.part ∧ c.engine = k.engine s.cur ∧
       (free → c.accepted = some s.clk ∧ c.issued = some s.clk ∧ c.promise = p) ∧
       (¬free → c.accepted = none ∧ c.issued = none ∧ c.promise = 0)) ∧
     (¬(empty ∧ free) → u.reqs = t.reqs ∧ u.posts = t.posts ∧ u.mem = s.mem) ∧
     (empty → free → (∀ e ∈ t.cmds, e.id ≠ id) →
       (flagKind f1 = 0 → u.cmds = t.cmds ∧ u.posts = t.posts) ∧
       (flagKind f1 ≠ 0 → (∃ m, u.posts = t.posts ++ [⟨m, t.me.part, bits f0.toNat 37 14, bits f0.toNat 8 0, bits f0.toNat 13 9,
           bits f1.toNat 47 32, none, some (f0, f1), some id⟩]) ∧
         (u.cmds.getLast? = some c → c.id = id ∧ c.written = true ∧ c.accepted = some s.clk)) ∧
       u.reqs = t.reqs ∧ u.mem = s.mem)) ∧
  (∀ (s : State) (q : Nat) (op : AtomOp) (z : As) (e5 sp : Bool) (src dst len m a v c r : Nat) (b : List Byte) (td : W64) (w : W64),
     let size := if z = .i32 ∨ z = .n32 then 4 else 8
     let near := fun (u : Nat) => u.testBit 47 = false
     let is := fun k (n : Nat) => s.promiseTerm q k = n
     let rotor := fun (k : CmdKind) (u : Nat) (rd wr : Bool) (base alone : Nat) (go back : List Nat) =>
       (∀ t, s.walk q u rd wr = .ok t → s.promiseTerm q k = base + s.rotorTerm t.pa.hi go back) ∧
       (∀ f, s.walk q u rd wr = .error f → s.promiseTerm q k = alone)
     let l := messageSizes 4096 src src len
     (near src → near dst → is (.cpy src dst len) (200 + (len + 255) / 256)) ∧
     (near dst → is (.xred e5 src dst m) (200 + (m / 32 * 33 + 255) / 256)) ∧
     is (.wbr a len) (200 + (len + 255) / 256) ∧ is (.lease m len a r) 320400 ∧ is (.lrecl m r) 250400 ∧
     is (.krot a m v r) (400 + 600 * m) ∧
     (near c → is (.seal sp src len c td r) (400 + 400 * (len / 4096)) ∧ is (.unseal sp dst len c r) (400 + 800 * (len / 4096))) ∧
     is (.scrub 0 a len) (16 + (len + 2047) / 2048) ∧ is (.scrub 1 a len) (16 + len) ∧ is (.scrub 2 a len) (16 + (len + 63) / 64) ∧
     is (.scrub 3 a len) (200 + (len + 255) / 256) ∧ is (.meas a len r) (200 + (len + 63) / 64) ∧
     (¬near dst → rotor (.cpy src dst len) dst false true 400 (200 + (len + 255) / 256) (messageSizes 4096 dst dst len) [0]) ∧
     (near dst → ¬near src → rotor (.cpy src dst len) src true false 400 (200 + (len + 255) / 256) (l.map fun _ => 0) l) ∧
     rotor (.rst a b) a false true 400 (200 + (b.length + 255) / 256) (messageSizes 256 a a b.length) [0] ∧
     rotor (.ratm op z a w td r) a true true 400 201 [0] [size] ∧
     (¬near dst → 32 ≤ m → rotor (.xred e5 src dst m) dst true true 400 (200 + (m / 32 * 33 + 255) / 256) (blockSizes (m / 32) dst (m / 32)) [0]) ∧
     (¬near c → rotor (.seal sp src len c td r) c false true (400 + 400 * (len / 4096)) (400 + 400 * (len / 4096))
       (List.replicate (len / 4096 + 1) 4096) [0]) ∧
     (¬near c → rotor (.unseal sp dst len c r) c true false (400 + 800 * (len / 4096)) (400 + 800 * (len / 4096))
       (List.replicate (len / 4096 + 1) 0) (List.replicate (len / 4096 + 1) 4096)))

/-- R199, R205 to R208, R223: the loads of slot D. Each appends its reads, 64 bytes a line for a group, and its landing at bundle n + ARR.
TLD and RLD clear the low six address bits and read consecutive lines, TLDS one line each stride, TLDM the first `len` bytes, SLDG its word,
or its bytes one by one where it is not aligned. An address outside the half traps BOUNDS; which of several addresses TVAL holds, and that a
tile access gives its line with the low six bits zero, is this model's choice (log entries 24 and 26). -/
def Obligations.GlobalLoads : Prop :=
  ∀ (s : State) (gd : BitVec 4) (g : Grp) (v : BitVec 7) (d a : BitVec 6) (arr : BitVec 10) (z : Sz),
    let x := s.me
    let q := (x.s a).toNat / 64 * 64
    let u := (x.s a).toNat
    let stride := (x.s (a + 1)).toNat / 64 * 64
    let len := min (x.s (a + 1)).toNat (512 * g.size)
    let line := fun e n o => Piece.read e n o (x.heldBytes e n)
    let lines := (List.range (8 * g.size)).map fun j => line (q + 64 * j) 64 (64 * j)
    let gives := fun (ps : List Piece) (t : Target) =>
      let r := s.addReq true .load ps
      let y := r.2.me.land true arr.toNat r.1 t
      Host.Outcome.next (r.2.did 3 y)
    let grp := Target.group v.toNat (List.replicate g.size 0)
    (x.p gd.toNat).getLsbD 0 = true →
    (q + 512 * g.size ≤ 2 ^ 47 → exec (.tld gd g v a arr) s = gives lines grp) ∧
    (2 ^ 47 < q + 512 * g.size → exec (.tld gd g v a arr) s = .next (s.traps 3 .bounds (BitVec.ofNat 64 (max q (2 ^ 47))))) ∧
    (2 ^ 47 ≤ q → q < 2 ^ 48 → 2 ^ 48 < q + 512 * g.size → exec (.rld gd g v a arr) s = .next (s.traps 3 .bounds (2 ^ 48))) ∧
    (2 ^ 47 ≤ q → q + 512 * g.size ≤ 2 ^ 48 → exec (.rld gd g v a arr) s = gives lines grp) ∧
    (q < 2 ^ 47 ∨ 2 ^ 48 ≤ q → exec (.rld gd g v a arr) s = .next (s.traps 3 .bounds (BitVec.ofNat 64 q))) ∧
    ((∀ j, j < 8 * g.size → (q + j * stride) % 2 ^ 64 < 2 ^ 47) → exec (.tlds gd g v a arr) s =
      gives ((List.range (8 * g.size)).map fun j => line ((q + j * stride) % 2 ^ 64) 64 (64 * j)) grp) ∧
    (q < 2 ^ 47 → q + len ≤ 2 ^ 47 → exec (.tldm gd g v a arr) s =
      gives ((List.range ((len + 63) / 64)).map fun j => line (q + 64 * j) (min 64 (len - 64 * j)) (64 * j)) grp) ∧
    (u % z.bytes = 0 → u < 2 ^ 47 →
      exec (.sldg gd z d a arr) s = gives [line u z.bytes 0] (if d = 0 then .nothing else .s d.toNat 0)) ∧
    (u % z.bytes ≠ 0 → u + z.bytes ≤ 2 ^ 47 →
      exec (.sldg gd z d a arr) s =
        gives ((List.range z.bytes).map fun k => line (u + k) 1 k) (if d = 0 then .nothing else .s d.toNat 0)) ∧
    (2 ^ 47 ≤ u → exec (.sldg gd z d a arr) s = .next (s.traps 3 .bounds (x.s a))) ∧
    (u < 2 ^ 47 → u % z.bytes ≠ 0 → 2 ^ 47 < u + z.bytes → exec (.sldg gd z d a arr) s = .next (s.traps 3 .bounds (2 ^ 47))) ∧
    (2 ^ 47 ≤ q ∨ 2 ^ 47 < q + len → exec (.tldm gd g v a arr) s = .next (s.traps 3 .bounds (BitVec.ofNat 64 (max q (2 ^ 47))))) ∧
    (∀ j, j < 8 * g.size → 2 ^ 47 ≤ (q + j * stride) % 2 ^ 64 → (∀ i, i < j → (q + i * stride) % 2 ^ 64 < 2 ^ 47) →
      exec (.tlds gd g v a arr) s = .next (s.traps 3 .bounds (BitVec.ofNat 64 (q + j * stride))))

/-- R203, R205, R207, R208, R300: the stores of slot D send the bytes of a group or register to the memory queue in one request. While a
region is open they are held by line, later bytes over earlier ones, unless a 65th line would be needed; then the buffer is released first.
An address outside the local half traps BOUNDS; which address TVAL holds is this model's choice (log entries 24 and 26). -/
def Obligations.GlobalStores : Prop :=
  ∀ (s : State) (gd : BitVec 4) (g : Grp) (v : BitVec 7) (d a : BitVec 6) (z : Sz),
    let x := s.me
    let q := (x.s a).toNat / 64 * 64
    let u := (x.s a).toNat
    let stride := (x.s (a + 1)).toNat / 64 * 64
    let img := x.group v.toNat g.size
    let val := (x.s d).toNat
    let chunk := fun e n (k : Nat) => Piece.store e ((natLe n k).map some)
    let stores := fun (i : Instr) (ps : List Piece) =>
      let l := ps.foldl holdPiece x.held
      (x.regOpen = false → exec i s = .next ((s.addReq true .store ps).2.did 3 (s.addReq true .store ps).2.me)) ∧
      (x.regOpen = true → l.length ≤ 64 → exec i s = .next (s.did 3 { x with held := l })) ∧
      (x.regOpen = true → 64 < l.length →
        let t := (s.closeRegion.addReq true .store ps).2
        exec i s = .next (t.did 3 t.me))
    (x.p gd.toNat).getLsbD 0 = true →
    (q + 512 * g.size ≤ 2 ^ 47 →
      stores (.tst gd g v a) ((List.range (8 * g.size)).map fun j => chunk (q + 64 * j) 64 (img >>> (512 * j)))) ∧
    (2 ^ 47 < q + 512 * g.size → exec (.tst gd g v a) s = .next (s.traps 3 .bounds (BitVec.ofNat 64 (max q (2 ^ 47))))) ∧
    ((∀ j, j < 8 * g.size → (q + j * stride) % 2 ^ 64 < 2 ^ 47) →
      stores (.tsts gd g v a) ((List.range (8 * g.size)).map fun j => chunk ((q + j * stride) % 2 ^ 64) 64 (img >>> (512 * j)))) ∧
    (u % z.bytes = 0 → u < 2 ^ 47 → stores (.sstg gd z d a) [chunk u z.bytes val]) ∧
    (u % z.bytes ≠ 0 → u + z.bytes ≤ 2 ^ 47 →
      stores (.sstg gd z d a) ((List.range z.bytes).map fun k => chunk (u + k) 1 (val >>> (8 * k)))) ∧
    (2 ^ 47 ≤ u → exec (.sstg gd z d a) s = .next (s.traps 3 .bounds (x.s a))) ∧
    (u < 2 ^ 47 → u % z.bytes ≠ 0 → 2 ^ 47 < u + z.bytes → exec (.sstg gd z d a) s = .next (s.traps 3 .bounds (2 ^ 47))) ∧
    (∀ j, j < 8 * g.size → 2 ^ 47 ≤ (q + j * stride) % 2 ^ 64 → (∀ i, i < j → (q + i * stride) % 2 ^ 64 < 2 ^ 47) →
      exec (.tsts gd g v a) s = .next (s.traps 3 .bounds (BitVec.ofNat 64 (q + j * stride))))

/-- R203, R209: an atomic or RED first closes the region, and then enters the memory queue with its operation and the operands in the bytes
of its size; with sd ≠ 0 the old value lands 16 + 32 × AQ bundles later. An address outside the local half, or one that its size does not
divide, traps BOUNDS. R212, R213: FENCE enters the memory queue with its scope and kind, and nothing waits for it at issue; VJOIN leaves the
strand no earlier scratchpad access whose order is open. R244: KQRY.group gives the group's effective rights with the count of its
extensions; the other forms ask memory for their page and take the answer four bundles later. An address outside the local half traps
BOUNDS. That KQRY.group writes its register at issue, not by a landing, is this model's reading (log entry 40). -/
def Obligations.AtomicsAndFences : Prop :=
  (∀ (s : State) (gd : BitVec 4) (z : As) (d a b : BitVec 6) (aq : BitVec 5) (rop : RedOp),
     let x := s.me
     let u := (x.s a).toNat
     let size := if z = .i32 ∨ z = .n32 then 4 else 8
     let low := fun (w : W64) => if size = 4 then BitVec.ofNat 64 (w.toNat % 2 ^ 32) else w
     let req := fun (op : AtomOp) (ret : Bool) =>
       s.closeRegion.addReq true (.atomic op z (low (x.s b)) (low (x.runAt b 1)) ret) [Piece.read u size 0 []]
     let forms := [(Instr.atadd gd z d a b aq, AtomOp.add), (.atfadd gd z d a b aq, .fadd), (.atmin gd z d a b aq, .min),
       (.atmax gd z d a b aq, .max), (.atand gd z d a b aq, .and), (.ator gd z d a b aq, .or), (.atxor gd z d a b aq, .xor),
       (.atswp gd z d a b aq, .swp), (.atcas gd z d a b aq, .cas)]
     let reds := [(RedOp.add, AtomOp.add), (.fadd, .fadd), (.min, .min), (.max, .max), (.and, .and), (.or, .or), (.xor, .xor)]
     (x.p gd.toNat).getLsbD 0 = true →
     (u < 2 ^ 47 → u % size = 0 →
       (∀ f ∈ forms, d ≠ 0 → exec f.1 s = .next ((req f.2 true).2.did 3
         ((req f.2 true).2.me.land true (16 + 32 * aq.toNat) (req f.2 true).1 (.s d.toNat 0)))) ∧
       (∀ f ∈ forms, d = 0 → exec f.1 s = .next ((req f.2 false).2.did 3 (req f.2 false).2.me)) ∧
       (∀ f ∈ reds, f.1 = rop → exec (.red gd rop z a b) s = .next ((req f.2 false).2.did 3 (req f.2 false).2.me))) ∧
     (2 ^ 47 ≤ u ∨ u % size ≠ 0 →
       (∀ f ∈ forms, exec f.1 s = .next (s.traps 3 .bounds (x.s a))) ∧ exec (.red gd rop z a b) s = .next (s.traps 3 .bounds (x.s a)))) ∧
  (∀ (s : State) (gd : BitVec 4) (scope : Scope) (kind : FenceKind),
     (s.me.p gd.toNat).getLsbD 0 = true →
     exec (.fence gd scope kind) s = .next ((s.addReq false (.fence scope kind) []).2.did 3 s.me) ∧
     (let t := s.closeGathers s.cur (fun _ => true) (fun _ => true);
       exec (.vjoin gd) s = .next (t.did 3 { t.me with spadLog := [] })) ∧
      (let t := s.closeGathers s.cur (fun _ => true) (fun _ => true);
       ∀ e ∈ t.me.pend ++ t.me.pendH, ∀ v o n rows, e.tgt = .gather v o n rows → ∀ row ∈ rows, ∀ seg ∈ row,
         seg.line ≠ none → seg.seen ≠ none)) ∧
  (∀ (s : State) (gd : BitVec 4) (d a : BitVec 6) (sel : KqSel),
     let x := s.me
     let r := s.addReq true (.kqry sel) [Piece.read (x.s a).toNat 1 0 []]
     (x.p gd.toNat).getLsbD 0 = true →
     exec (.kqry gd .group d a) s = .next (s.did 3 (x.pushS 4 d
       (BitVec.ofNat 64 (s.myGrp.rights.toNat + (s.myGrp.nmeas % 2 ^ 32) * 2 ^ 32)))) ∧
     (sel ≠ .group → (x.s a).toNat < 2 ^ 47 → exec (.kqry gd sel d a) s =
       .next (r.2.did 3 (r.2.me.land false 4 r.1 (if d = 0 then .nothing else .s d.toNat 0)))) ∧
     (sel ≠ .group → 2 ^ 47 ≤ (x.s a).toNat → exec (.kqry gd sel d a) s = .next (s.traps 3 .bounds (x.s a))))

/-- R214, R216, R227, R229: STRM binds a stream to a ring that is enabled, unbound and idle and gives its total; STRMX unbinds it and gives
the slots it completed; MAPR maps a range under the lowest free index or releases the map at an offset, and gives the index; INVR forgets
the pages of its range, which fill again only after the fences before it. A release and INVR end the fills in progress of their pages (log
entry 100). Otherwise they trap RING, ENGINE or BOUNDS. That a release tests no address, that these results are no landings, and what STRMX
finds after its hold are this model's readings (log entries 39, 40 and 85). -/
def Obligations.StreamsAndMaps : Prop :=
  ∀ (s : State) (gd : BitVec 4) (d a b : BitVec 6) (h : BitVec 4) (drain : Bool) (e : MapEnt) (i : Nat),
    let x := s.me
    let n := fun k => (x.s (a + BitVec.ofNat 6 k)).toNat
    let r := x.ring h.toNat
    let counts := [n 1, n 2, n 3, n 4]
    let total := n 1 * n 2 * n 3 * n 4
    let ok := r.en = true ∧ r.bind = 0 ∧ r.infl = 0 ∧ n 1 ≤ 65535 ∧ n 2 ≤ 65535 ∧ n 3 ≤ 65535 ∧ n 4 ≤ 65535
    let t := s.closeRegion
    let y := t.me
    let stream := Stream.mk h.toNat drain (n 0) counts ((List.range 4).map fun k => (x.s (b + BitVec.ofNat 6 k)).toInt) 0 0 false t.nextId t.clk
    let ends := fun (j : Instr) (f : Nat → Nat → Prop) (z : Strand) =>
      ∃ l : List Cmd, l.Sublist t.cmds ∧
        (∀ c, c ∈ l ↔ c ∈ t.cmds ∧ ¬(c.gtag = x.gtag ∧ c.sidx = x.sidx ∧ ∃ k p, c.kind = .fill k p ∧ f k p)) ∧
        exec j s = .next ({ t with cmds := l }.did 3 z)
    (x.p gd.toNat).getLsbD 0 = true →
    (n 0 < 2 ^ 47 → ok → 0 < total → exec (.strm gd d a b h drain) s = .next (t.did 3
      ({ y.setRing h.toNat { y.ring h.toNat with bind := if drain then 2 else 1 } with streams := y.streams ++ [stream] }.pushS 4 d
        (BitVec.ofNat 64 total)))) ∧
    (n 0 < 2 ^ 47 → ok → total = 0 → exec (.strm gd d a b h drain) s = .next (t.did 3 (y.pushS 4 d 0))) ∧
    (2 ^ 47 ≤ n 0 → exec (.strm gd d a b h drain) s = .next (s.traps 3 .bounds (BitVec.ofNat 64 (n 0)))) ∧
    (n 0 < 2 ^ 47 → ¬ok → exec (.strm gd d a b h drain) s = .next (s.traps 3 .ring (BitVec.ofNat 64 h.toNat))) ∧
    (r.en = true → exec (.strmx gd d h) s = .next (s.did 3
      ({ x.setRing h.toNat { r with bind := 0 } with streams := x.streams.filter fun (q : Stream) => q.ring ≠ h.toNat }.pushS 4 d
        (BitVec.ofNat 64 (((x.streams.find? fun (q : Stream) => q.ring = h.toNat).map Stream.done).getD 0))))) ∧
    (r.en = false → exec (.strmx gd d h) s = .next (s.traps 3 .ring (BitVec.ofNat 64 h.toNat))) ∧
    (n 1 ≠ 0 → n 2 < 2 ^ 47 → maprOk x (n 0) (n 1) (n 2) = true → i < 4 → (∀ m ∈ x.maps, m.index ≠ i) →
        (∀ j, j < i → ∃ m ∈ x.maps, m.index = j) →
      exec (.mapr gd d a) s = .next (t.did 3
        ({ y with maps := y.maps ++ [MapEnt.mk i (n 0) (n 1) (n 2) [] [] t.nextId []] }.pushS 4 d (BitVec.ofNat 64 i)))) ∧
    (n 1 ≠ 0 → n 2 < 2 ^ 47 → maprOk x (n 0) (n 1) (n 2) = false →
      exec (.mapr gd d a) s = .next (s.traps 3 .engine 6)) ∧
    (n 1 = 0 → x.maps.find? (fun m => m.off == n 0) = some e →
      ends (.mapr gd d a) (fun k _ => k = e.index)
        ({ y with maps := y.maps.filter fun (m : MapEnt) => m.index ≠ e.index }.pushS 4 d (BitVec.ofNat 64 e.index))) ∧
    (n 1 = 0 → (∀ m ∈ x.maps, m.off ≠ n 0) → exec (.mapr gd d a) s = .next (s.traps 3 .engine 6)) ∧
    (mapOf x (n 0) (n 1) ≠ none →
      ends (.invr gd a) (fun k p => ∃ m ∈ x.maps, m.index = k ∧ m.off + 4096 * p < n 0 + n 1 ∧ n 0 < m.off + 4096 * p + 4096)
      { y with maps := y.maps.map fun (m : MapEnt) =>
          let out := fun p => ¬(m.off + 4096 * p < n 0 + n 1 ∧ n 0 < m.off + 4096 * p + 4096)
          { m with filled := m.filled.filter out, dirty := m.dirty.filter out,
                     again := ((List.range (m.size / 4096)).filter fun p => decide ¬(out p)).foldl (fun l p => Tbl.insert l p t.nextId) m.again } }) ∧
    (mapOf x (n 0) (n 1) = none → exec (.invr gd a) s = .next (s.traps 3 .engine 7))

/-- R219 to R225, R229 to R231, R241 to R252: with legal operands each engine instruction hands its engine the command they name, with the
flag descriptor of the second run. No alignment is asked of the return address of RATM, the destination of XRED or the status place of
LRECL: the rules name none (log entry 38). R217 to R252: the traps of the engine instructions. Each tests its operands in the order listed
here (this model's reading of R232 and R252, log entry 37), and traps by the first that is bad: BOUNDS with an address of the wrong half or
not aligned, KEY 1 without the right, KEY 2 or 3 for an operand of a key operation, ENGINE with the number of its case. -/
def Obligations.EngineCommands : Prop :=
  (∀ (s : State) (gd : BitVec 4) (g : Grp) (v : BitVec 7) (d a b : BitVec 6) (op : AtomOp) (z : As) (e5 : Bool),
     let x := s.me
     let w := fun k => x.s (a + BitVec.ofNat 6 k)
     let n := fun k => (w k).toNat
     let f0 := x.s b
     let f1 := x.s (b + 1)
     let size := if z = .i32 ∨ z = .n32 then 4 else 8
     let low := fun (u : W64) => if size = 4 then BitVec.ofNat 64 (u.toNat % 2 ^ 32) else u
     let issues := fun (i : Instr) (dst : BitVec 6) k f0 f1 =>
       let t := s.issueCmd dst k f0 f1
       exec i s = .next (t.did 3 t.me)
     let local' := fun u => u < 2 ^ 47
     let global := fun u => u < 2 ^ 48
     let fabric := fun u => 2 ^ 47 ≤ u ∧ u < 2 ^ 48
     let fd := fdOk f0 f1 = true
     (x.p gd.toNat).getLsbD 0 = true →
     (global (n 0) → global (n 1) → fd → ¬(fabric (n 0) ∧ fabric (n 1)) → n 2 ≤ 2 ^ 32 →
       issues (.cpy gd d a b) d (.cpy (n 0) (n 1) (n 2)) f0 f1) ∧
     (fabric (n 0 / 64 * 64) → n 0 / 64 * 64 + 512 * g.size ≤ 2 ^ 48 → fdOk (w 1) (w 2) = true → (w 2).toNat % 4 ≠ 0 →
       issues (.rst gd g v a) 0 (.rst (n 0 / 64 * 64) (natLe (512 * g.size) (x.group v.toNat g.size))) (w 1) (w 2)) ∧
     (fabric (n 0) → n 0 % size = 0 → local' (n 3) → fd →
       issues (.ratm gd op z d a b) d (.ratm op z (n 0) (low (w 1)) (low (w 2)) (n 3)) f0 f1) ∧
     (local' (n 0) → n 0 % 4 = 0 → global (n 1) → fd → n 2 % 32 = 0 → 32 ≤ n 2 → n 2 ≤ 2 ^ 24 →
       issues (.xred gd e5 d a b) d (.xred e5 (n 0) (n 1) (n 2)) f0 f1) ∧
     (fabric (n 2) → local' (n 3) → fd → n 1 ≠ 0 → n 1 % 2 ^ 21 = 0 → n 2 % 2 ^ 21 = 0 → n 3 % 8 = 0 →
       issues (.lease gd d a b) d (.lease (n 0) (n 1) (n 2) (n 3)) f0 f1) ∧
     (local' (n 1) → fd → issues (.lrecl gd d a b) d (.lrecl (n 0) (n 1)) f0 f1) ∧
     (mapOf x (n 0) (n 1) ≠ none → issues (.wbr gd d a) d (.wbr (n 0) (n 1)) 0 0) ∧
     (s.myGrp.rights.getLsbD 0 = true → local' (n 0) → local' (n 3) → fd → 1 ≤ n 1 → n 1 ≤ 65536 → n 2 < 65536 → n 0 % 4096 = 0 →
       n 3 % 16 = 0 → issues (.krot gd d a b) d (.krot (n 0) (n 1) (n 2) (n 3)) f0 f1) ∧
     (s.myGrp.rights.getLsbD 1 = true → n 0 = 0 ∧ local' (n 1) ∨ n 0 = 1 ∧ n 1 + n 2 ≤ x.spadSize → global (n 3) → local' (n 5) → fd →
       4096 ≤ n 2 → n 2 ≤ 2 ^ 30 → n 2 % 4096 = 0 → n 1 % 4096 = 0 → n 3 % 4096 = 0 → n 5 % 16 = 0 →
       issues (.seal gd d a b) d (.seal (n 0 = 1) (n 1) (n 2) (n 3) (w 4) (n 5)) f0 f1) ∧
     (s.myGrp.rights.getLsbD 2 = true → n 0 = 0 ∧ local' (n 1) ∨ n 0 = 1 ∧ n 1 + n 2 ≤ x.spadSize → global (n 3) → local' (n 4) → fd →
       4096 ≤ n 2 → n 2 ≤ 2 ^ 30 → n 2 % 4096 = 0 → n 1 % 4096 = 0 → n 3 % 4096 = 0 → n 4 % 16 = 0 →
       issues (.unseal gd d a b) d (.unseal (n 0 = 1) (n 1) (n 2) (n 3) (n 4)) f0 f1) ∧
     (n 2 ≠ 0 → n 0 = 0 ∧ n 1 % 65536 = 0 ∧ n 2 % 65536 = 0 ∧ n 1 + n 2 ≤ x.spadSize ∨
         n 0 = 1 ∧ n 1 % 32 = 0 ∧ n 2 % 32 = 0 ∧ n 1 + n 2 ≤ x.accRows ∨ n 0 = 2 ∧ n 1 % 4096 = 0 ∧ n 2 % 4096 = 0 ∧ n 1 + n 2 ≤ x.sdmSize ∨
         n 0 = 3 ∧ local' (n 1) ∧ n 1 % 4096 = 0 ∧ n 2 % 4096 = 0 ∧ n 2 ≤ 2 ^ 20 →
       issues (.scrub gd d a) d (.scrub (n 0) (n 1) (n 2)) 0 0) ∧
     (local' (n 0) → local' (n 2) → n 1 ≤ 2 ^ 20 → n 2 % 8 = 0 → issues (.meas gd d a) d (.meas (n 0) (n 1) (n 2)) 0 0)) ∧
  (∀ (s : State) (gd : BitVec 4) (g : Grp) (v : BitVec 7) (d a b : BitVec 6) (op : AtomOp) (z : As) (e5 : Bool),
     let x := s.me
     let w := fun k => x.s (a + BitVec.ofNat 6 k)
     let n := fun k => (w k).toNat
     let q := n 0 / 64 * 64
     let size := if z = .i32 ∨ z = .n32 then 4 else 8
     let bad := fdOk (x.s b) (x.s (b + 1)) = false
     let lacks := fun k => s.myGrp.rights.getLsbD k = false
     let off := fun u => u < 2 ^ 47 ∨ 2 ^ 48 ≤ u
     let badSeal := fun r => 1 < n 0 ∨ n 2 < 4096 ∨ 2 ^ 30 < n 2 ∨ n 2 % 4096 ≠ 0 ∨ n 1 % 4096 ≠ 0 ∨ n 3 % 4096 ≠ 0 ∨ r % 16 ≠ 0 ∨
       n 0 = 1 ∧ x.spadSize < n 1 + n 2
     let badScrub := n 2 = 0 ∨ n 0 = 0 ∧ (n 1 % 65536 ≠ 0 ∨ n 2 % 65536 ≠ 0 ∨ x.spadSize < n 1 + n 2) ∨
       n 0 = 1 ∧ (n 1 % 32 ≠ 0 ∨ n 2 % 32 ≠ 0 ∨ x.accRows < n 1 + n 2) ∨
       n 0 = 2 ∧ (n 1 % 4096 ≠ 0 ∨ n 2 % 4096 ≠ 0 ∨ x.sdmSize < n 1 + n 2) ∨
       n 0 = 3 ∧ (n 1 % 4096 ≠ 0 ∨ n 2 % 4096 ≠ 0 ∨ 2 ^ 20 < n 2)
     let order := fun (i : Instr) (cs : List (Prop × Cause × Nat)) => ∀ (k : Nat) p c u, cs[k]? = some (p, c, u) → p →
       (∀ (j : Nat) r c' u', j < k → cs[j]? = some (r, c', u') → ¬r) → exec i s = .next (s.traps 3 c (BitVec.ofNat 64 u))
     (x.p gd.toNat).getLsbD 0 = true →
     order (.cpy gd d a b) [(2 ^ 48 ≤ n 0, .bounds, n 0), (2 ^ 48 ≤ n 1, .bounds, n 1), (bad, .engine, 1),
       (2 ^ 47 ≤ n 0 ∧ 2 ^ 47 ≤ n 1, .engine, 3), (2 ^ 32 < n 2, .engine, 5)] ∧
     order (.rst gd g v a) [(off q, .bounds, q), (2 ^ 48 < q + 512 * g.size, .bounds, 2 ^ 48), (fdOk (w 1) (w 2) = false, .engine, 1),
       ((w 2).toNat % 4 = 0, .engine, 2)] ∧
     order (.ratm gd op z d a b) [(off (n 0), .bounds, n 0), (n 0 % size ≠ 0, .bounds, n 0), (2 ^ 47 ≤ n 3, .bounds, n 3), (bad, .engine, 1)] ∧
     order (.xred gd e5 d a b) [(2 ^ 47 ≤ n 0, .bounds, n 0), (n 0 % 4 ≠ 0, .bounds, n 0), (2 ^ 48 ≤ n 1, .bounds, n 1), (bad, .engine, 1),
       (n 2 % 32 ≠ 0 ∨ n 2 < 32 ∨ 2 ^ 24 < n 2, .engine, 4)] ∧
     order (.lease gd d a b) [(off (n 2), .bounds, n 2), (2 ^ 47 ≤ n 3, .bounds, n 3), (bad, .engine, 1),
       (n 1 = 0 ∨ n 1 % 2 ^ 21 ≠ 0 ∨ n 2 % 2 ^ 21 ≠ 0 ∨ n 3 % 8 ≠ 0, .engine, 8)] ∧
     order (.lrecl gd d a b) [(2 ^ 47 ≤ n 1, .bounds, n 1), (bad, .engine, 1)] ∧
     order (.wbr gd d a) [(mapOf x (n 0) (n 1) = none, .engine, 7)] ∧
     order (.krot gd d a b) [(lacks 0, .key, 1), (2 ^ 47 ≤ n 0, .bounds, n 0), (2 ^ 47 ≤ n 3, .bounds, n 3),
       (n 1 = 0 ∨ 65536 < n 1 ∨ 65536 ≤ n 2 ∨ n 0 % 4096 ≠ 0 ∨ n 3 % 16 ≠ 0, .key, 2), (bad, .engine, 1)] ∧
     order (.seal gd d a b) [(lacks 1, .key, 1), (n 0 = 0 ∧ 2 ^ 47 ≤ n 1, .bounds, n 1), (2 ^ 48 ≤ n 3, .bounds, n 3),
       (2 ^ 47 ≤ n 5, .bounds, n 5), (badSeal (n 5), .key, 2), (bad, .engine, 1)] ∧
     order (.unseal gd d a b) [(lacks 2, .key, 1), (n 0 = 0 ∧ 2 ^ 47 ≤ n 1, .bounds, n 1), (2 ^ 48 ≤ n 3, .bounds, n 3),
       (2 ^ 47 ≤ n 4, .bounds, n 4), (badSeal (n 4), .key, 2), (bad, .engine, 1)] ∧
     order (.scrub gd d a) [(n 0 = 3 ∧ 2 ^ 47 ≤ n 1, .bounds, n 1), (badScrub, .key, 2), (3 < n 0, .key, 3)] ∧
     order (.meas gd d a) [(2 ^ 47 ≤ n 0, .bounds, n 0), (2 ^ 47 ≤ n 2, .bounds, n 2), (2 ^ 20 < n 1 ∨ n 2 % 8 ≠ 0, .key, 2)])

/-- R204, R206, R207, R210, R263, R291, R292, R296 and R315: a request that may depart is translated and departs; a fence whose condition
holds ends; a side-log entry behind no other replays; where translation fails, the fault is recorded with the access and its address, a
request that returns a value waits and its landing with it, and any other retires into the side log, once that has room; the gateway accepts
a departed request, which takes the next place in its order and holds a trap no longer; data of which every piece has come fill the landing,
and the request ends; the oldest gather completes. Which pieces of a request may go before others is this model's reading (log entry 42). -/
def Obligations.MemoryDepartures : Prop :=
  ∀ (s : State) (id k va pa : Nat) (r : Req) (t : State) (ps : List Piece) (p : Piece) (g : Gather) (gs : List Gather) (two : Bool),
    let walked := s.placePieces (clusterOf r.strand) r.part r.needs.1 r.needs.2 r.pieces
    let departs := fun i => exec i s =
      .next { t with reqs := t.reqs.map fun q => if q.id = id then { q with stage := .departed, pieces := ps } else q }
    let acc := match r.kind with
      | .store => 1
      | .atomic .. => 2
      | _ => 0
    let stop := if two then t.stop2 r.part va else (0, false)
    let fault := FaultRec.mk t.nextId r.part two va acc (if r.returns then 0 else 1) r.strand (t.grp r.gtag).wid stop.1 stop.2 false
      (false, id, va)
    let faults := fun i f => ∃ u : State, exec i s = .next u ∧ u.faults = t.faults ++ [fault] ∧ u.req id = some (f { r with fault := some t.nextId }) ∧
      u.mem = s.mem
    let held := fun (l : List Write) => l.map fun w => if w.land = some id then { w with faulted := true } else w
    let logged := (s.reqs.filter fun e => e.gtag == r.gtag && e.sidx == r.sidx && e.stage == .sideLog).length
    (s.req id = some r →
      (r.stage = .queued → r.fault = none → r.isFence = false → s.mayDepart r = true → walked = (.ok ps, t) → departs (.memoryQueueDepart id)) ∧
      (r.stage = .queued → r.fault = none → r.isFence = true → s.fenceHolds r = true →
        exec (.memoryQueueDepart id) s = .next { s with reqs := s.reqs.filter fun q => q.id ≠ id }) ∧
      (r.stage = .sideLog → r.fault = none → s.behindEntry r = false → walked = (.ok ps, t) → departs (.sideLogReplay id)) ∧
      (r.stage = .queued → r.fault = none → r.isFence = false → s.mayDepart r = true → walked = (.error (.stage two, va), t) →
        (r.returns = true → faults (.memoryQueueDepart id) (fun q => q) ∧ ∃ u : State, exec (.memoryQueueDepart id) s = .next u ∧
          (u.strand r.strand).pend = held (s.strand r.strand).pend ∧ (u.strand r.strand).pendH = held (s.strand r.strand).pendH) ∧
        (r.returns = false → logged < 32 → faults (.memoryQueueDepart id) (fun q => { q with stage := .sideLog, log := some (t.nextId + 1) }) ∧
          ∃ u : State, exec (.memoryQueueDepart id) s = .next u ∧
            (u.strand r.strand).iss.await = (s.strand r.strand).iss.await.filter fun i => i ≠ id) ∧
        (r.returns = false → 32 ≤ logged → exec (.memoryQueueDepart id) s = .next t)) ∧
      (r.stage = .sideLog → r.fault = none → s.behindEntry r = false → r.returns = false → walked = (.error (.stage two, va), t) →
        faults (.sideLogReplay id) fun q => q) ∧
      (r.stage = .queued → r.fault = none → r.isFence = false → s.mayDepart r = true → walked = (.error (.poison pa, va), t) →
        ∃ u : State, exec (.memoryQueueDepart id) s = .next u ∧ Tbl.find u.groups r.gtag = none) ∧
      (r.stage = .departed → r.pieces = [p] → s.admits r 0 p = true → ∃ (u : State) (q : Req) (p' : Piece), exec (.gatewayRequest [id]) s = .next u ∧
        u.req id = some q ∧ q.stage = .accepted ∧ q.run = id ∧ q.pieces = [p'] ∧ p'.acc = some s.nextId ∧ u.mem = s.mem ∧
        (u.strand r.strand).iss.await = (s.strand r.strand).iss.await.filter (fun i => i ≠ id) ∧
        ∀ j, j ≠ r.strand → u.strand j = s.strand j) ∧
      (let x := s.strand r.strand
       r.stage = .accepted → r.kind = .load → r.pieces.all Piece.done = true → x.gtag = r.gtag → x.sidx = r.sidx →
        let f := fillLanding id (landValue (loadNat r.pieces))
        exec (.loadDataArrival id) s =
          .next ({ s with reqs := s.reqs.filter fun q => q.id ≠ id }.setStrand r.strand { x with pend := f x.pend, pendH := f x.pendH }))) ∧
    (let x := s.strand k
     x.mat.gathers = g :: gs → (g.left ≠ [] → exec (.gatherComplete k) s = .next s) ∧ (g.left = [] → exec (.gatherComplete k) s = .next (s.setStrand k { x with mat := { x.mat with gathers := gs } })))

/-- R209, R211, R233, R244, R316, R319, R321, R322, R324 and R328: what a home slice does with a piece that has come and is ready: a load
binds the bytes its cluster sees and changes no byte; a store writes its bytes; an atomic binds the old word, where it returns one, and
writes the new one; a key query reads the page's counters, also where single lines are poisoned (log entry 16). Each then has its deadline,
whose first miss a contract reports. A write at a minor counter of 127 first starts a rewrite of the page (log entries 45 and 75). Poison
and failed checks end the group: a message that fails is discarded before its access, a response after it. A rewrite puts the page under CUR
with a new major counter; line by line it locks, rewrites with minor counter 0 and unlocks. A miss counter clears as it is read. -/
def Obligations.HomeSlice : Prop :=
  ∀ (s : State) (id i slice part cls : Nat) (r : Req) (p : Piece) (b : Phys) (op : AtomOp) (z : As) (x e : W64) (ret own : Bool) (sel : KqSel)
    (chk : SliceCheck) (page g k : Nat) (w : Rewrite) (q : Partition),
    let ready := s.req id = some r ∧ s.wholeRuns [id] = [r] ∧ r.pieces[i]? = some p ∧ p.pa = some b ∧ b.fab = false ∧ p.done = false ∧
      p.via = true ∧ s.pieceReady r i p b.pa = true
    let line := lineOf b.pa
    let sound := chk ≠ .message ∧ chk ≠ .memory ∧ s.lineWaits line r.writes = false ∧ s.poisoned line = false
    let old := leNat (Mem.readN s.mem b.pa (asBytes z))
    let new := natLe (asBytes z) (atomNew op z old x.toNat e.toNat)
    let bound := fun (t : State) (d : List Byte) => ∃ (q : Req) (p' : Piece), t.req id = some q ∧ q.pieces[i]? = some p' ∧ p'.done = true ∧
      p'.data = d
    let ev := Instr.homeSliceRequest [id] i chk
    let after := fun (u : State) => u.deadline (clusterOf r.strand) (sliceOf (pageOf b.pa)) r.part (if (s.grp r.gtag).contract.isSome then 0 else 1) r.gtag
    let performs := fun m (f : State → Prop) => ∃ (u : State) (l : List Req), u.mem = m ∧
      let t := { after u with reqs := l }
      ((s.grp r.gtag).contract = none → t.mem = m) ∧
      (chk = .sound → f t ∧ exec ev s = .next t) ∧
      (chk = .response → ∃ l' : List Req, let n := State.badMessage { after u with reqs := l' } r.gtag r.part
        exec ev s = .next n ∧ Tbl.find n.groups r.gtag = none ∧ LanternRecord.message r.part r.gtag ∈ n.lantern)
    (ready →
      (sound → r.kind = .load → performs s.mem fun t => bound t (s.clusterBytes (clusterOf r.strand) (fun _ => false) b.pa p.len)) ∧
      (sound → r.kind = .store → performs (Mem.writeMasked s.mem b.pa p.bytes) fun _ => True) ∧
      (sound → r.kind = .atomic op z x e ret → i = 0 → performs (Mem.writeMasked s.mem b.pa (new.map some)) fun t =>
        ret = true → bound t (natLe (asBytes z) old)) ∧
      (chk = .sound ∨ chk = .response → r.kind = .kqry sel → s.poison.contains (stackPage (pageOf b.pa), none) = false →
        performs s.mem fun t => bound t (natLe 8 (s.keyReport sel b.pa))) ∧
      (chk = .message → ∃ t : State, exec ev s = .next t ∧ (∀ q ∈ t.reqs, q.id ≠ id) ∧ Tbl.find t.groups r.gtag = none ∧
        LanternRecord.message r.part r.gtag ∈ t.lantern ∧ (Tbl.find s.groups r.gtag = none → t.mem = s.mem)) ∧
      (chk ≠ .message → r.writes = true → s.minor (line / 64) (line % 64) = 127 →
        (s.rewrite (line / 64) = none → exec ev s = .next (let t := s.startRewrite (line / 64) false
          { t with
            rewrites := Tbl.modify t.rewrites (line / 64) fun w => { w with trig := some (line % 64) }
            owed := t.owed ++ [(line, false, id)] })) ∧
        (s.rewrite (line / 64) ≠ none → exec ev s = .next s)) ∧
      (r.isKqry = false → s.lineWaits line r.writes = false → chk = .memory ∨ (chk ≠ .message ∧ s.poisoned line = true) →
        ∃ t : State, exec ev s = .next t ∧ Tbl.find t.groups r.gtag = none)) ∧
    (s.rewrite page = none → let t := s.startRewrite page own
      t.gen page = (s.key (keyOf page)).cur ∧ t.major page = s.major page + 1 ∧ t.mem = s.mem) ∧
    (s.rewrite page = some w → w.scrub = false →
      (w.locked = false → exec (.pageReencryption page) s = .next { s with rewrites := Tbl.insert s.rewrites page { w with locked := true } }) ∧
      (w.locked = true → w.line ≤ 63 → ∃ t : State, exec (.pageReencryption page) s = .next t ∧ t.minor page w.line = 0 ∧ t.mem = s.mem ∧
        t.rewrite page = if w.line = 63 then none else some { w with line := w.line + 1, locked := false })) ∧
    (let o := s.overrunNs cls slice part 0
     let c := Tbl.getD q.ctrs k Contract.reset
     (s.grp g).contract = some k → s.part part = some q →
      (o = 0 ∨ c.rtMiss = true → s.deadline cls slice part 0 g = s.miss cls slice part 0) ∧
      (o ≠ 0 → c.rtMiss = false → s.deadline cls slice part 0 g =
        ((s.miss cls slice part 0).onPart part fun q => { q with ctrs := Tbl.put Contract.reset q.ctrs k { c with rtMiss := true } }).event part 5 noStrand
          slice k o)) ∧
    (s.mgmtOpen = true → slice < 12 → part < 16 → cls < 4 →
      let n := (slice * 16 + part) * 4 + cls
      exec (.misscntRead slice part cls) s =
        .next { s with misscnt := Tbl.erase s.misscnt n, answer := some (natLe 8 (Tbl.getD s.misscnt n 0).toNat) })

/-- R293 to R298 and R440: a fault joins the entry of its partition, stage and page, whatever its access, or takes a free one, and waits
where none is free; the record of a stage-1 entry is written where its ring has room, and its entry ends as INVALID where stage 2 does not
map the ring, or its line is poisoned (log entry 99). The guest's answer resolved ends the entry and every waiting access goes on, but where
stage 1 still faults a new record is written; INVALID ends every waiting access: a load's landing becomes zero and its ADDRESS arrives with
its bundle, a side-log entry or command is gone and its ADDRESS pends. Lantern answers a stage-2 entry resolved where stage 2 now gives what
the access needs, holds it while an agreement toward its peer is in progress, and answers any other INVALID, an ACCESS request always. -/
def Obligations.PageRequests : Prop :=
  ∀ (s : State) (id tag p n a i va : Nat) (v : W64) (f : FaultRec) (e : PageReq) (q : Partition) (r : Req) (tr : Trans) (b : Bool × Nat) (l : Leaf)
    (c : Cmd),
    let joins := fun (d : PageReq) => d.part = f.part ∧ d.stage2 = f.stage2 ∧ d.page = f.va / 4096
    let left := s.faults.filter fun g => g.id ≠ id
    let taken := fun (k : Nat) => ∃ d ∈ s.preqs, d.tag = k
    let freed := fun (t : State) => ∀ d ∈ t.preqs, d.tag ≠ e.tag
    let resolved := fun (t : State) => freed t ∧ ∀ w ∈ e.waiters,
      (w.1 = false → t.req w.2.1 = (s.req w.2.1).map fun (r : Req) => { r with fault := none }) ∧
      (w.1 = true → t.cmd w.2.1 = (s.cmd w.2.1).map fun (c : Cmd) => { c with fault := none })
    let st := if e.stage2 then 1 else 0
    let invalid := fun (t : State) => freed t ∧
      (∀ w ∈ e.waiters, (w.1 = false → t.req w.2.1 = none) ∧ (w.1 = true → t.cmd w.2.1 = none)) ∧
      (e.waiters = [(false, i, va)] → s.req i = some r → (let x := s.strand r.strand
        let y := t.strand r.strand
        let zero := fun (l : List Write) => (fillLanding i zeroLand l).map fun w => if w.land = some i then { w with entry := false } else w
        Tbl.find s.strands r.strand = some x → x.gtag = r.gtag → x.sidx = r.sidx → x.life ≠ .doneWait →
        (r.returns = true → x.arrivalOf i = some b → y.pend = zero x.pend ∧ y.pendH = zero x.pendH ∧
          y.traps = x.traps ++ [⟨.address, BitVec.ofNat 64 va, 0, st, some b, s.clk⟩]) ∧
        (r.returns = false → y.traps = queueTrap x.traps ⟨.address, BitVec.ofNat 64 va, 1, st, none, s.clk⟩))) ∧
      (e.waiters = [(true, i, va)] → s.cmd i = some c → (∃ x y z, c.kind = .cpy x y z) → (let x := s.strand c.strand
        Tbl.find s.strands c.strand = some x → x.gtag = c.gtag → x.life ≠ .doneWait →
        (t.strand c.strand).traps = queueTrap x.traps ⟨.address, BitVec.ofNat 64 va, 2, st, none, s.clk⟩ ∧
        t.posts = s.posts.filter fun p => p.cmd ≠ some i))
    let answers := fun ev (f : State → Prop) => ∃ t : State, exec ev s = .next t ∧ f t
    let need := fun va => s.walk e.part va (e.acc ≠ 1) (e.acc = 1 ∨ e.acc = 2)
    (s.faults.find? (fun g => g.id == id) = some f →
      ((∀ d ∈ s.preqs, ¬joins d) → s.freeEntry f.part = some n → exec (.pageRequestEnqueue id) s = .next { s with
        faults := left
        preqs := s.preqs ++ [⟨n, f.part, f.stage2, f.va / 4096, f.va, f.acc, f.src, f.strand, f.wid, f.ipa, f.table, f.access, false, [f.waiter]⟩] }) ∧
      ((∃ d ∈ s.preqs, joins d) → exec (.pageRequestEnqueue id) s = .next { s with
        faults := left
        preqs := s.preqs.map fun d => if joins d then { d with waiters := d.waiters ++ [f.waiter] } else d }) ∧
      ((∀ d ∈ s.preqs, ¬joins d) → s.freeEntry f.part = none → exec (.pageRequestEnqueue id) s = .next s)) ∧
    (s.freeEntry p = some n → ¬taken n ∧ (4 * p ≤ n ∧ n < 4 * p + 4 ∨ 64 ≤ n ∧ n < 256 ∧ ∀ k, 4 * p ≤ k → k < 4 * p + 4 → taken k)) ∧
    (s.freeEntry p = none → (∀ k, 4 * p ≤ k → k < 4 * p + 4 → taken k) ∧ ∀ k, 64 ≤ k → k < 256 → taken k) ∧
    (let ev := Instr.pageRequestRecordWrite tag
     s.preqs.find? (fun d => d.tag == tag) = some e → s.part e.part = some q → e.stage2 = false → e.written = false →
      let slot := s.ringSlot e.part q.prqBase q.prqProd q.prqLsz
      (ringRoom q.prqProd q.prqCons q.prqLsz = false → exec ev s = .next s) ∧
      (ringRoom q.prqProd q.prqCons q.prqLsz = true →
        (slot = none → answers ev invalid) ∧
        (slot = some a → s.poisoned (lineOf a) = true → answers ev freed) ∧
        (slot = some a → s.poisoned (lineOf a) = false → s.lineWaits (lineOf a) true = false →
          ∃ (t : State) (q' : Partition), exec ev s = .next t ∧
            t.mem = Mem.writeMasked s.mem a ((pageRecord e).map some) ∧ t.part e.part = some q' ∧ q'.prqProd = q.prqProd + 1 ∧
            ∀ d ∈ t.preqs, d.tag = tag → d.written = true))) ∧
    (let ev := Instr.prespWrite p v
     let found := s.preqs.find? fun d => d.tag == v.toNat % 256 && d.part == p && !d.stage2
     (found = none ∨ s.tdi p = none → exec ev s = .next s) ∧
     ((s.tdi p).isSome = true → found = some e →
      (v.toNat.testBit 8 = true → answers ev invalid) ∧
      (v.toNat.testBit 8 = false →
        (need e.va = .ok tr → answers ev resolved) ∧
        (need e.va = .error (.stage true) → answers ev resolved) ∧
        (need e.va = .error (.stage false) → exec ev s =
          .next { s with preqs := s.preqs.map fun d => if d.tag = e.tag then { d with written := false } else d })))) ∧
    (let ev := Instr.lanternStage2Answer tag
     let now := s.stage2 e.part e.ipa (e.table ∨ e.acc ≠ 1) (¬e.table ∧ (e.acc = 1 ∨ e.acc = 2))
     s.preqs.find? (fun d => d.tag == tag && d.stage2) = some e → s.part e.part = some q →
      (e.access = true → answers ev invalid) ∧
      (e.access = false →
        (now = none → answers ev invalid) ∧
        (now = some l → e.table = true → (l.fab = false → answers ev resolved) ∧ (l.fab = true → answers ev invalid)) ∧
        (now = some l → e.table = false →
          (l.fab ≠ e.va.testBit 47 → answers ev invalid) ∧
          (l.fab = e.va.testBit 47 → l.fab = false ∨ q.hasPeer l.hi = true → answers ev resolved) ∧
          (l.fab = true → e.va.testBit 47 = true → q.hasPeer l.hi = false →
            (q.tdx.busy = true → q.tdx.peer = l.hi → exec ev s = .next s) ∧
            (q.tdx.busy = false ∨ q.tdx.peer ≠ l.hi → answers ev invalid)))))

/-- R22, R87, R200, R215, R218 to R222, R228, R240, R249, R251 and R312: a delayed command is accepted; a copy whose every byte has moved
ends, its flag set out, and one of no bytes at its acceptance; a scrub zeroes, a measurement extends; a transfer unit takes a drain slot of
its ring and completes a fill slot; a page or chunk fill ends, one that does not authenticate ending its group; a post that has arrived adds
to its flag; an overdue promise traps once; the divider becomes free. R219, R223 to R225, R229, R233, R237, R242, R245 to R248, R375: what a
unit of an engine's work writes. A local copy reads up to the end of its destination's page and writes it; a copy, RST, RATM or XRED with a
peer sends one message with the bytes; an answer is written where the command wants it; a local XRED writes the block of the rounded sums;
WBR stores a line of the SPAD; KROT steps the generation, rewrites a page that is not at CUR, skips one that is, and writes its record; SEAL
writes a page of ciphertext, then header and tag, then its record; UNSEAL collects the checkpoint, checks its header and its tag, writes a
page of plaintext, and extends the measurement as it ends. The unit an event moves and how a range with a fabric end is cut are the choice
of this model (log entries 11, 34 and 35). -/
def Obligations.EngineEvents : Prop :=
  (∀ (s : State) (id k h page c i : Nat) (d : Cmd) (st : Store) (p : Post) (m : Stream) (src dst len off size a g : Nat) (map : MapEnt),
     let x := s.strand k
     let v := s.takeMeasures
     let run := exec (.engineCommandComplete id) s
     let works := v.cmd id = some d ∧ d.accepted ≠ none ∧ d.written = false ∧ d.fault = none ∧ v.engineBusy d = false ∧ d.phase ≠ 100 ∧
       v.returned id = none ∧ d.stop = false ∧
       v.gangWaits d = false
     let ends := fun (t : State) => if flagKind d.fd1 = 0 ∨ d.net.carried ≠ none then ∀ e ∈ t.cmds, e.id ≠ id else
       ∃ q ∈ t.posts, q.cmd = some id ∧ q.fd = some (d.fd0, d.fd1) ∧ q.count = d.fd1.toNat / 2 ^ 32 % 2 ^ 16
     (s.cmd id = some d → d.accepted = none → (∀ e ∈ s.cmds, e.gtag = d.gtag → e.sidx = d.sidx → e.kind.counted = true → e.accepted = none →
         id ≤ e.id) → s.commandFree d.strand id = true →
       (d.kind = .cpy src dst 0 → ∃ t : State, exec (.engineCommandAccept id) s = .next t ∧ ends t) ∧
       ((∀ y z, d.kind ≠ .cpy y z 0) → ∃ (t : State) (e : Cmd), exec (.engineCommandAccept id) s = .next t ∧ t.cmd id = some e ∧ e.accepted = some s.clk ∧
         e.promise = max (d.issued.getD s.clk) (s.lastPromise d.engine) + s.promiseTerm d.part d.kind + (s.core d.core).skew)) ∧
     (works →
       (d.kind = .cpy src dst len → len ≤ d.progress → v.answered id = true → ∃ t : State, run = .next t ∧ ends t) ∧
       (d.kind = .scrub 2 a len → v.hasStrand d = true → d.progress < len → ∃ t : State, run = .next t ∧
         (t.strand d.strand).sdm = Mem.zero (s.strand d.strand).sdm (a + d.progress) (min 64 (len - d.progress))) ∧
       (d.kind = .meas a len 0 → len ≤ d.progress → v.myTurn d = true → (Tbl.find s.groups d.gtag).isSome = true → ∃ t : State, run = .next t ∧
         (t.grp d.gtag).gm = BitVec.ofNat 384 (leNat (sha384 (gmBytes (s.grp d.gtag).gm ++ sha384 d.data))) ∧
         (t.grp d.gtag).nmeas = (s.grp d.gtag).nmeas + 1 ∧ ends t)) ∧
     (x.streams.find? (fun e => e.ring == h) = some m → m.drain = true → m.stop = false → m.next < streamTotal m.counts →
       (x.ring h).fill ≠ 0 → s.fencesDone k m.after true false false = true →
       s.soDone k m.after false false false = true → m.born < s.clk → x.adv = none → (∀ e ∈ s.cmds, e.phase ≠ 0 ∨ ∀ u v w, e.kind ≠ .slot h false u v w) →
       s.inUse x .spad ((x.ring h).base + 64 * (x.ring h).slsz * (x.ring h).head) (64 * (x.ring h).slsz) = false →
       (s.fillFor k false fun q => if q = .spad then slotLines ((x.ring h).base + 64 * (x.ring h).slsz * (x.ring h).head) (64 * (x.ring h).slsz)
         else []).1 = false →
       ∃ t : State, exec (.streamSlotStart k h) s = .next t ∧ (t.strand k).ring h = { x.ring h with
         head := ((x.ring h).head + 1) % (x.ring h).nslot, fill := (x.ring h).fill - 1, infl := (x.ring h).infl + 1 }) ∧
     (Tbl.find s.strands k = some x → s.cmds.find? (fun e => e.gtag == x.gtag && e.sidx == x.sidx && (match e.kind with
           | .slot r .. => r == h
           | _ => false)) = some d → d.kind = .slot h false a off size → d.fault = none → d.phase = 1 →
       s.inUse x .spad off size = false →
       ∃ t : State, exec (.streamSlotComplete k h) s = .next t ∧ (t.strand k).spad = Mem.writeN x.spad off d.data ∧
         ((t.strand k).ring h).infl = (x.ring h).infl - 1 ∧ ((t.strand k).ring h).fill = (x.ring h).fill + 1) ∧
     (x.maps.find? (fun e => decide (e.off ≤ 4096 * page) && decide (4096 * page < e.off + e.size)) = some map →
       s.cmds.find? (fun e => e.gtag == x.gtag && e.sidx == x.sidx && e.kind == .fill map.index (page - map.off / 4096)) = some d →
       d.fault = none → d.phase = 1 → d.progress = 64 →
       ∃ t : State, exec (.maprFillComplete k page) s = .next t ∧ (t.strand k).spad = Mem.writeN x.spad (4096 * page) d.data ∧
         (∀ e ∈ (t.strand k).spadLog, e.line / 64 ≠ page) ∧ (∀ e ∈ t.cmds, e.id ≠ d.id) ∧
         (t.strand k).maps = x.maps.map fun (e : MapEnt) => if e.index = map.index then { e with filled := e.filled ++ [page - map.off / 4096] } else e) ∧
     ((∃ e ∈ x.chunks, e.store = st ∧ e.index = i ∧ e.filling = true) → (∀ e ∈ x.chunks, e.claiming = false) →
       (s.authentic st x.gtag x.sidx i = true → ∃ t : State, exec (.chunkFillComplete k st i true) s = .next t ∧ (t.strand k).chunks = x.chunks.map fun (e : Chunk) =>
         if e.store = st ∧ e.index = i ∧ e.filling = true then { e with unfilled := false, filling := false } else e) ∧
       ∀ sound : Bool, sound = false ∨ s.authentic st x.gtag x.sidx i = false →
         ∃ t : State, exec (.chunkFillComplete k st i sound) s = .next t ∧ Tbl.find t.groups x.gtag = none) ∧
     (s.posts.find? (fun q => q.id == id) = some p → p.fd = none → p.cmd = none → p.due = some c → c ≤ s.clk → p.gtag = g →
       (Tbl.find s.groups g).isSome = true →
       ∃ t : State, exec (.flagPostArrival id) s = .next t ∧ Tbl.getD (t.grp g).flags p.flag 0 =
         BitVec.ofNat 32 (min 0xFFFFFFFF ((Tbl.getD (s.grp g).flags p.flag 0).toNat + p.count)) ∧ ∀ q ∈ t.posts, q.id ≠ id) ∧
     (s.cmd id = some d → d.accepted ≠ none → d.kind.counted = true → d.raised = false →
       d.promise + 256 < s.cyc d.core → (s.strand d.strand).gtag = d.gtag → (s.strand d.strand).life ≠ .doneWait →
       (Tbl.find s.strands d.strand).isSome = true →
       exec (.promiseExpiry id) s = .next ({ s with cmds := s.cmds.map fun (e : Cmd) => if e.id = id then { e with raised := true } else e }.setStrand d.strand
         { s.strand d.strand with
           traps := (s.strand d.strand).traps ++ [Pending.mk .promise (BitVec.ofNat 64 d.promise) 0 0 none s.clk] })) ∧
     ((s.core c).divBusy = 1 → exec (.dividerBusyExpiry c) s = .next (s.setCore c { s.core c with divBusy := 0 }))) ∧
  (∀ (s : State) (id : Nat) (c : Cmd) (b d : List Byte) (t u w y : State) (src dst len a : Nat) (z : As) (op : AtomOp) (x e : W64) (e5 sp : Bool)
     (m : Msg) (r : Trans) (tail : Option (Nat × Bool)) (key : BitVec 256) (gm : BitVec 384) (q : Partition),
     let v := s.takeMeasures
     let run := exec (.engineCommandComplete id) s
     let works := v.cmd id = some c ∧ c.accepted ≠ none ∧ c.written = false ∧ c.fault = none ∧ v.engineBusy c = false ∧ v.gangWaits c = false ∧
       c.stop = false
     let free := works ∧ c.phase ≠ 100 ∧ v.returned id = none
     let k := c.progress
     let moves := fun (t : State) (n : Nat) => run = .next (t.onCmd id fun e => { e with progress := e.progress + n })
     let sends := fun (t : State) (va : Nat) (rd wr : Bool) (op : RemoteOp) (piece n : Nat) =>
       va < 2 ^ 48 → t.translate (clusterOf c.strand) c.part va rd wr = (.ok r, y) → y.gangHolds c.gtag r.pa.hi = false → r.attr ≠ .so →
       (wr = true → y.behindLoad c va (max 1 (opBytes op)) = false) →
       ∃ (n' : State) (m : Msg) (e : Cmd), run = .next n' ∧ m ∈ n'.msgs ∧ m.isCmd = true ∧ m.owner = id ∧ m.piece = piece ∧ m.peer = r.pa.hi ∧
         m.fia = (r.phys va).addr ∧ m.op = op ∧ n'.mem = y.mem ∧ n'.cmd id = some e ∧ e.progress = k + n
     let record := fun (v : State) (l : List Byte) => ∀ t, (v.onCmd id fun _ => { c with phase := 100, data := l }).wrote { c with phase := 100, data := l } c.kind.record l t →
       run = .next (if l.head? = some 0 then t.commandDone id else t.dropCmd id)
     let rec' := fun st op info n => natLe 8 (st + op * 2 ^ 8 + info * 2 ^ 16) ++ natLe 8 n
     (free → c.kind = .cpy src dst len → k < len →
       (let n := min (len - k) (4096 - (dst + k) % 4096)
        (src + k).testBit 47 = false → (dst + k).testBit 47 = false → meets src len dst len = false ∨ src = dst →
         v.reads c (src + k) n b t → t.wrote c (dst + k) b u → moves u n) ∧
       (let n := min (len - k) (min (4096 - (src + k) % 4096) (4096 - (dst + k) % 4096))
        (src + k).testBit 47 = true → sends v (src + k) true false (.read n) k n) ∧
       (let n := min (len - k) (4096 - (dst + k) % 4096)
        (src + k).testBit 47 = false → (dst + k).testBit 47 = true → v.reads c (src + k) n b t →
         sends t (dst + k) false true (.write (b.map some)) k n)) ∧
     (free → c.kind = .rst a b → k < b.length →
       let n := min (min (b.length - k) 256) (4096 - (a + k) % 4096)
       sends v (a + k) false true (.write (((b.drop k).take n).map some)) k n) ∧
     (free → c.kind = .ratm op z a x e dst → k = 0 → sends v a true true (.atomic op z x e) 0 1) ∧
     (works → c.phase ≠ 100 → v.returned id = some (m, b) →
       let ends := fun (u : State) => run = .next { u with msgs := u.msgs.filter fun n => n.id ≠ m.id }
       (c.kind = .cpy src dst len → (dst + m.piece).testBit 47 = false → v.wrote c (dst + m.piece) b u → ends u) ∧
       (c.kind = .ratm op z a x e dst → dst ≠ 0 → v.wrote c dst b u → ends u)) ∧
     (free → c.kind = .xred e5 src dst len → k < len / 32 →
       let f := if e5 then Bk.mxE5m2 else Bk.mxE4m3
       let pay := fun (g : List Byte) => quantise f ((unpackElems 32 32 (leNat g)).map Fmt.f32.value)
       (dst.testBit 47 = false → v.reads c (src + 128 * k) 128 b t → t.reads c (dst + 33 * k) 33 d u →
         u.wrote c (dst + 33 * k) (natLe 33 (quantise f ((List.range 32).map fun i =>
           Fmt.f32.value (Fmt.f32.round .rne (FV.add .rne (blockDecode f (pay b) i).inF32 (blockDecode f (leNat d) i).inF32))))) w → moves w 1) ∧
       (let n := max 1 (min (len / 32 - k) ((4096 - (dst + 33 * k) % 4096) / 33))
        dst.testBit 47 = true → v.reads c (src + 128 * k) (128 * n) b t → t.tailOf c (dst + 33 * k) = (.ok tail, u) → tail.map Prod.snd ≠ some true →
         sends u (dst + 33 * k) true true (.xred e5 (tail.map Prod.fst) ((groupsOf 128 n b).flatMap fun g => natLe 33 (pay g))) k n)) ∧
     (free → c.kind = .wbr a len → v.hasStrand c = true → 1 ≤ c.phase → k < 64 →
       let pa := c.nonce + 64 * k
       v.noWay c pa = false → v.poisoned (lineOf pa) = false → v.lineWaits (lineOf pa) true = false →
       run = .next (((v.cmdDeadline c pa).put pa (Mem.readN (v.strand c.strand).spad (4096 * (c.phase - 1) + 64 * k) 64)).onCmd id fun e =>
         if k = 63 then { e with phase := 0, progress := 0 } else { e with progress := k + 1 })) ∧
     (free → c.kind = .krot src len dst a →
       (let kid := keyOf (pageOf (r.phys src).pa)
        c.phase = 0 → src < 2 ^ 47 → v.translate (clusterOf c.strand) c.part src false true = (.ok r, y) → y.reads c a 16 b t →
         (dst = (t.key kid).cur.toNat + 1 → dst < 2 ^ 16 → (t.key kid).lag = 0 → ∃ n : State, run = .next n ∧
           n.key kid = ⟨(t.key kid).owner, BitVec.ofNat 16 dst, (t.pages.filter fun e => keyOf e.1 == kid).length⟩ ∧ n.mem = t.mem) ∧
         (dst = (t.key kid).cur.toNat → ∃ n : State, run = .next n ∧ n.keys = t.keys ∧ n.mem = t.mem)) ∧
       (let va := src + 4096 * k
        let page := pageOf (r.phys va).pa
        c.phase = 1 → k < len → va < 2 ^ 47 → v.translate (clusterOf c.strand) c.part va false true = (.ok r, y) → keyOf page = c.tdid.toNat →
         y.noWay c (4096 * page) = false → y.blockPoisoned page = false → y.rewrite page = none → y.owes page = false →
         (y.gen page ≠ (y.key (keyOf page)).cur → y.poisonedIn (4096 * page) 4096 = false → run = .next (y.startRewrite page false)) ∧
         (y.gen page = (y.key (keyOf page)).cur → moves y 1)) ∧
       (c.phase = 1 → len ≤ k → dst < 2 ^ 16 → len < 2 ^ 32 → record v (rec' 0 0x50 dst len))) ∧
     (free → c.kind = .seal sp src len dst x a → v.part c.part = some q → v.answered id = true →
       let iv := natLe 4 Config.packageSerial.toNat ++ natLe 8 c.nonce
       (q.sealKey c.tdid = none → record v (rec' 3 0x52 0 0)) ∧
       (q.sealKey c.tdid = some key →
         (c.phase = 0 → run = .next { v.onCmd id fun e => { e with phase := 1, nonce := v.sealCnt } with sealCnt := v.sealCnt + 1 }) ∧
         (let ct := ((gcm true key iv [] (c.data ++ b)).1).drop c.data.length
          c.phase = 1 → k < len / 4096 → (dst + 4096 + 4096 * k).testBit 47 = false →
           (if sp then v.hasStrand c = true ∧ t = v ∧ b = Mem.readN (v.strand c.strand).spad (src + 4096 * k) 4096 else v.reads c (src + 4096 * k) 4096 b t) →
           t.wrote c (dst + 4096 + 4096 * k) ct u → run = .next (u.onCmd id fun e => { e with progress := e.progress + 1, data := e.data ++ b })) ∧
         (let h := ckptHeader (if sp then 1 else 0) c.tdid len q.guaranteed.length (q.logical (clusterOf c.strand)) x c.nonce gm
          c.phase = 1 → len / 4096 ≤ k → c.measure = some gm → dst.testBit 47 = false →
           v.wrote c dst (h ++ (gcm true key iv h c.data).2 ++ natLe 3840 0) u → run = .next (u.onCmd id fun e => { e with phase := 2 })) ∧
         (c.phase = 2 → len / 4096 ≤ k → len / 4096 < 2 ^ 32 → record v (rec' 0 0x52 0 (len / 4096))))) ∧
     (free → c.kind = .unseal sp dst len src a →
       let n := c.data.length
       (c.phase = 0 ∧ n < 4096 ∨ c.phase = 1 ∧ n < 4096 + c.hdr 16 8 → (src + n).testBit 47 = false → v.reads c (src + n) 4096 b t →
         run = .next (t.onCmd id fun e => { e with data := e.data ++ b })) ∧
       (c.phase = 0 → 4096 ≤ n → v.part c.part = some q →
         let known := c.hdr 0 4 = 1 ∧ q.sealKey (BitVec.ofNat 64 (c.hdr 8 8)) ≠ none
         (¬known → record v (rec' 3 0x53 0 0)) ∧
         (known → q.guaranteed.length < c.hdr 24 4 → record v (rec' 2 0x53 0 0)) ∧
         (known → c.hdr 24 4 ≤ q.guaranteed.length → len < c.hdr 16 8 → record v (rec' 4 0x53 0 0)) ∧
         (known → c.hdr 24 4 ≤ q.guaranteed.length → c.hdr 16 8 ≤ len → run = .next (v.onCmd id fun e => { e with phase := 1 }))) ∧
       (let g := gcm false key ((c.data.drop 40).take 12) (c.data.take 240) ((c.data.drop 4096).take (c.hdr 16 8))
        c.phase = 1 → 4096 + c.hdr 16 8 ≤ n → v.part c.part = some q → q.sealKey (BitVec.ofNat 64 (c.hdr 8 8)) = some key →
         (g.2 = (c.data.drop 240).take 16 → run = .next (v.onCmd id fun e => { e with phase := 2, data := e.data.take 4096 ++ g.1 })) ∧
         (g.2 ≠ (c.data.drop 240).take 16 → record v (rec' 3 0x53 0 0))) ∧
       (c.phase = 2 → c.hdr 16 8 / 4096 ≤ k → v.myTurn c = true → c.hdr 28 4 < 2 ^ 16 → c.hdr 16 8 / 4096 < 2 ^ 32 →
         record (v.extend c.gtag (c.data.take 256)) (rec' 0 0x53 (c.hdr 28 4) (c.hdr 16 8 / 4096))) ∧
       (let d := (c.data.drop (4096 + 4096 * k)).take 4096
        c.phase = 2 → k < c.hdr 16 8 / 4096 →
         (sp = false → v.wrote c (dst + 4096 * k) d u → moves u 1) ∧
         (sp = true → v.hasStrand c = true → ∃ n : State, run = .next n ∧
           (n.strand c.strand).spad = Mem.writeN (v.strand c.strand).spad (dst + 4096 * k) d))))

/-- R36 to R38, R238, R289, R302 to R304, R312 and R362: the guest resumes a strand that waits under TPOL 1, which reissues the slots that
have not performed, or aborts its group; a pre-emption request starts the drain bound, and in RUN in kernel mode the strand drains; a strand
at a drain point goes off-core with its registers as its last writes leave them; an expired bound without a region ends the group by rung 2,
with one it halts the strand; a saved group returns to the slots it fits, once what lies on other cores is saved; a finished strand is
released, and with the last one its group ends. The register image of a save, what RESUME reissues and the order of requests and saves are
this model's readings (log entries 7, 32, 33, 80, 92 and 97). -/
def Obligations.Preemption : Prop :=
  ∀ (s : State) (k p g c : Nat) (v : W64) (x : Strand) (r : Replay) (o : Offer) (slots : List Nat) (sp : Snapshot),
    (bits v.toNat 8 0 = k → x = s.strand k → x.untaken = some r → x.part = p → (s.tdi p).map Partition.tpol = some 1 →
      (v.toNat.testBit 9 = true → ∃ t : State, exec (.ctxcmdResume p v) s = .next t ∧ (t.strand k).life = x.back ∧
        (t.strand k).pc = r.idx ∧ (t.strand k).reissue = some { r with record := none, again := true } ∧
        (t.strand k).sreg = x.sreg ∧ ∀ j, j ≠ k → t.strand j = s.strand j) ∧
      (v.toNat.testBit 9 = false → ∃ t : State, exec (.ctxcmdAbort p v) s = .next t ∧ Tbl.find t.groups x.gtag = none)) ∧
    (Tbl.find s.strands k = some x → x.life ≠ .doneWait → x.drainAt = none →
      (x.struck = false → exec (.preemptRequest k) s =
        .next (s.setStrand k { x with drainAt := some (s.cyc (coreOf k) + x.image.dpbound), asked := true })) ∧
      (x.struck = true → exec (.preemptRequest k) s = .next s)) ∧
    (Tbl.find s.strands k = some x → x.asked = true → x.drainAt ≠ none → x.voidAsk.drainAt = none ∧ x.voidAsk.struck = true ∧
      ((s.endAsk k).strand k).life = (if x.life = .run ∧ x.handler = false then .draining else x.life) ∧
      (x.life = .run → x.handler = false → ∀ e ∈ (s.endAsk k).cmds, e.gtag = x.gtag → e.sidx = x.sidx → e.kind.stops = true → e.stop = true)) ∧
    (Tbl.find s.strands k = some x → x.halted = false → x.dpHit = true → x.life = .draining ∨ x.yielded = true → x.regOpen = false →
      let y := (x.applyAll (sortWrites x.pend)).accSettle (x.sbn + 100)
      ∃ t : State, exec (.strandSave k) s = .next t ∧ (x.sidx, { y.saved with saveNo := s.saves + 1 }) ∈ (t.grp x.gtag).saved ∧ k ∉ (t.grp x.gtag).strands) ∧
    (Tbl.find s.strands k = some x → x.halted = true → x.snap = some sp → s.busy x = false →
      ∃ t : State, exec (.strandSave k) s = .next t ∧ (x.sidx, { (x.restarted sp).saved with saveNo := s.saves + 1 }) ∈ (t.grp x.gtag).saved) ∧
    (Tbl.find s.strands k = some x → x.drainAt = some p → p ≤ s.cyc (coreOf k) → x.halted = false → x.life ≠ .doneWait →
      (x.asked = true → exec (.drainBoundExpiry k) s = .next s) ∧
      (x.asked = false → x.regOpen = false → ∃ t : State, exec (.drainBoundExpiry k) s = .next t ∧ Tbl.find t.groups x.gtag = none ∧
        ((Tbl.find s.groups x.gtag).isSome = true → ∃ e ∈ t.rungs, e.rung = 2 ∧ e.scope = x.gtag)) ∧
      (x.asked = false → x.regOpen = true → ∃ t : State, exec (.drainBoundExpiry k) s = .next t ∧ (t.strand k).halted = true ∧ (t.strand k).held = [] ∧
        (t.strand k).iss = Issue.none ∧ (t.strand k).sreg = x.sreg ∧ t.groups = s.groups)) ∧
    (s.served = some (o, c, slots) → o.saved = some g → (s.grp g).saved ≠ [] → (s.grp g).strands = [] → (s.grp g).yieldTo = none →
      (∀ e ∈ s.looseSaves, e.2.2.2 ≠ g) →
      let away := (slots.zip ((sortBy Prod.fst (s.grp g).saved).map Prod.snd)).any fun e => awayFrom e.1 e.2
      (away = false → ∃ t : State, exec (.strandRestore g c) s = .next t ∧
        (t.grp g).strands = slots ∧ (t.grp g).saved = [] ∧ (t.grp g).cluster = c) ∧
      (away = true → ∃ t : State, exec (.strandRestore g c) s = .next t ∧ t.grp g = s.grp g ∧ t.strands = s.strands)) ∧
    (Tbl.find s.strands k = some x → x.life = .doneWait → s.doneHolds k = false → (∀ e ∈ x.maps, e.dirty = []) →
      ((s.grp x.gtag).strands.filter (fun i => i ≠ k) = [] → (s.grp x.gtag).saved = [] →
        ∃ t : State, exec (.strandRelease k) s = .next t ∧ Tbl.find t.strands k = none ∧ Tbl.find t.groups x.gtag = none) ∧
      ((s.grp x.gtag).strands.filter (fun i => i ≠ k) ≠ [] →
        ∃ t : State, exec (.strandRelease k) s = .next t ∧ Tbl.find t.strands k = none ∧
          (t.grp x.gtag).strands = (s.grp x.gtag).strands.filter fun i => i ≠ k))

/-- R338 to R341, R344 to R346, R348, R350 and R351: a queue is enabled with a base and a size or stopped; a notification within its size
moves TAIL, beyond it raises LAUNCH_ERROR; the next record is read and HEAD advances, the launch with the status its first broken rule
gives; a wait word at its value opens the launch; the next group is dispatched to its cluster with the parameter in s1 and the group count
in ss2, one that fits no cluster of its partition ends UNPLACEABLE, and one that fits none now is passed over; a launch without groups ends
with its record; 100 µs passed over is starvation; a cancel marks, discards or aborts. What LQCFG takes, when image and list are read, and
which broken rule gives the status are this model's readings (log entries 48, 51, 97 and 101). -/
def Obligations.Launches : Prop :=
  ∀ (s : State) (p n seq c m : Nat) (v : W64) (q : Partition) (l : Launch) (b : List Byte) (o : Offer) (slots : List Nat) (i : Image),
    let k := q.queue n
    let w := bytesWords b
    let a := k.base + 128 * (k.head % 2 ^ k.lsz)
    let reads := fun st => ∃ (t : State) (x : Launch) (q' : Partition), exec (.launchRecordRead p n) s = .next t ∧ t.launches = s.launches ++ [x] ∧
      x.part = p ∧ x.lq = n ∧ x.seq = k.head ∧ x.status = st ∧ t.part p = some q' ∧ (q'.queue n).head = (k.head + 1) % 2 ^ 32
    (s.tdi p = some q → n < 8 →
      (k.en = false → v.toNat.testBit 0 = true → 4 ≤ v.toNat / 2 ^ 48 % 16 → v.toNat / 2 ^ 48 % 16 ≤ 12 → v.toNat.testBit 47 = false →
        ∃ (t : State) (q' : Partition), exec (.lqcfgWrite p n v) s = .next t ∧ t.part p = some q' ∧
          q'.queue n = ⟨true, v.toNat / 2 % 4, v.toNat / 2 ^ 12 % 2 ^ 36 * 4096, v.toNat / 2 ^ 48 % 16, 0, 0, []⟩) ∧
      (k.en = true → v.toNat.testBit 0 = false → ∃ (t : State) (q' : Partition), exec (.lqcfgWrite p n v) s = .next t ∧ t.part p = some q' ∧
        q'.queue n = { k with en := false }) ∧
      (k.en = true → (v.toNat % 2 ^ 32 + 2 ^ 32 - k.head) % 2 ^ 32 ≤ 2 ^ k.lsz →
        ∃ (t : State) (q' : Partition), exec (.lqnotifyWrite p n v) s = .next t ∧ t.part p = some q' ∧
          q'.queue n = { k with tail := v.toNat % 2 ^ 32 }) ∧
      (k.en = true → 2 ^ k.lsz < (v.toNat % 2 ^ 32 + 2 ^ 32 - k.head) % 2 ^ 32 →
        exec (.lqnotifyWrite p n v) s = .next (s.event p 12 noStrand n (v.toNat % 2 ^ 32 * 2 ^ 32) 0))) ∧
    (s.part p = some q → n < 8 → k.en = true → q.open' = true → q.queueCtr n = none → k.head ≠ k.tail →
      (s.sysRead p a 128 = none → reads .fault) ∧
      (s.sysRead p a 128 = some b → recordOk w = false → reads .badRecord) ∧
      (s.sysRead p a 128 = some b → recordOk w = true → k.head ∈ k.marked → reads .cancelled) ∧
      (s.sysRead p a 128 = some b → recordOk w = true → k.head ∉ k.marked → (wordAt w 0).testBit 18 = true → reads .noContract) ∧
      (∀ e, s.sysRead p a 128 = some b → recordOk w = true → k.head ∉ k.marked → (wordAt w 0).testBit 18 = false →
        s.readImage p (wordAt w 1) = .error e → reads e) ∧
      (s.sysRead p a 128 = some b → recordOk w = true → k.head ∉ k.marked → (wordAt w 0).testBit 18 = false →
        s.readImage p (wordAt w 1) = .ok i → reads .ok)) ∧
    (s.launchWhere p n seq (fun e => !e.waitMet && s.notBehindWait e) = some l → s.sysRead p (wordAt l.words 8) 4 = some b →
      wordAt l.words 9 ≤ leNat b → ∃ t : State, exec (.launchWaitPoll p n seq) s = .next t ∧
        t.launches = s.launches.map fun e => if e.id = l.id then { e with waitMet := true } else e) ∧
    (s.launchWhere p n seq s.launchReady = some l → s.fullOf p = false →
      let marks := fun (f : Launch → Launch) => exec (.groupDispatch p n seq) s =
        .next { s with launches := s.launches.map fun e => if e.id = l.id then f e else e }
      (s.placeable l = false → marks fun e => { e with
        status := if e.status = .ok then .unplaceable else e.status, count := some e.next, waitMet := true, cut := true }) ∧
      (s.placeable l = true → s.served = none → s.firstFit (l.offer (s.queueClass p n) l.job) = none → l.passed = none →
        marks fun e => { e with passed := some s.clk })) ∧
    (s.launchWhere p n seq s.launchReady = some l → s.fullOf p = false → s.placeable l = true → s.served = some (o, c, slots) → o.launch = some l.id → l.count = some m →
      ∃ (t : State) (g : Group), exec (.groupDispatch p n seq) s = .next t ∧ Tbl.find t.groups s.newTag = some g ∧ g.part = p ∧
        g.cluster = c ∧ g.strands = slots ∧ g.index = l.next ∧ g.born = s.clk ∧
        (t.launches = s.launches.map fun e => if e.id = l.id then { e with
          next := e.next + 1, dispatched := e.dispatched + 1, passed := none, starved := false, tags := e.tags ++ [s.newTag] } else e) ∧
        ∀ j ∈ slots, (t.strand j).gtag = s.newTag ∧ (t.strand j).s 1 = BitVec.ofNat 64 (wordAt l.words 2) ∧
          (t.strand j).s 2 = BitVec.ofNat 64 m ∧ (t.strand j).pc = 0) ∧
    (s.launchWhere p n seq (fun e => s.launchOver e && s.groupsPerformed e) = some l →
      let gone := fun (t : State) => t.launches = s.launches.filter fun e => e.id ≠ l.id
      (wordAt l.words 7 = 0 → wordAt l.words 11 = 0 → ∃ t : State, exec (.launchComplete p n seq) s = .next t ∧ gone t ∧ t.mem = s.mem) ∧
      (wordAt l.words 7 ≠ 0 → wordAt l.words 11 = 0 → s.sysHeld p (wordAt l.words 7) 16 = none → ∃ t : State,
        exec (.launchComplete p n seq) s = .next t ∧ gone t ∧
          t.mem = ((s.sysWrite p (wordAt l.words 7) l.record).sysTouch p (wordAt l.words 7) 16 true).mem)) ∧
    (s.launchWhere p n seq (fun e => !e.starved && (e.passed.map fun k => decide (k + 125000 ≤ s.clk)).getD false) = some l →
      exec (.launchStarvationTimeout p n seq) s =
        .next { s with launches := s.launches.map fun e => if e.id = l.id then { e with starved := true } else e }) ∧
    (s.tdi p = some q → bits v.toNat 2 0 = n → bits v.toNat 63 32 = seq →
      (q.cancelBusy = true → exec (.lcancelWrite p v) s = .next s) ∧
      (q.cancelBusy = false → s.launchWhere p n seq (fun _ => true) = some l →
        (v.toNat.testBit 3 = false → s.dispatchedNow = [] → l.count = some m → ∃ (t : State) (l' : Launch) (q' : Partition),
          exec (.lcancelWrite p v) s = .next t ∧ t.part p = some q' ∧ q'.cancelBusy = true ∧ l' ∈ t.launches ∧ l'.id = l.id ∧
          l'.count = some l.next ∧ l'.discarded = l.discarded + (m - l.next) ∧
          l'.status = (if l.status = .ok ∧ l.next < m then .cancelled else l.status)) ∧
        (v.toNat.testBit 3 = true → ∃ t : State, exec (.lcancelWrite p v) s = .next t ∧ ∀ g ∈ l.tags, Tbl.find t.groups g = none ∧
          ((Tbl.find s.groups g).isSome = true → ∃ e ∈ t.rungs, e.rung = 2 ∧ e.scope = g))) ∧
      (q.cancelBusy = false → s.launchWhere p n seq (fun _ => true) = none → k.en = true →
        (seq + 2 ^ 32 - k.head) % 2 ^ 32 < (k.tail + 2 ^ 32 - k.head) % 2 ^ 32 →
        ∃ (t : State) (q' : Partition), exec (.lcancelWrite p v) s = .next t ∧ t.part p = some q' ∧
          q'.queue n = { k with marked := k.marked ++ [seq] }))

/-- R336 and R337: a margin cluster that is empty is lent under the conditions of lending, once what is parked there is saved; an idle loan
and an owner's need start a reclaim, which pre-empts every strand on the cluster; it ends once none is left and what is parked is saved, and
at 12,000 cycles it ends the groups that stay. -/
def Obligations.Lending : Prop :=
  ∀ (s : State) (c b i t0 : Nat) (a q : Partition) (k : Nat) (x : Strand),
    let n := s.cluster c
    (s.ownerOf c = some i → s.part i = some a → s.part b = some q → c ∈ a.margin → s.unlent c = true → s.emptyCluster c = true →
      (wordAt a.desc 1).testBit b = true → i ≠ b → s.lacks i ((s.tried i).filter fun d => d != c) = false →
      (∃ o ∈ s.offers, o.part = b ∧ o.ctr = none ∧ o.shape.image.dpbound ≤ 10000 ∧
        ∀ d ∈ q.guaranteed ++ q.margin.filter s.unlent, s.fit o.shape d = none) → (∀ e ∈ s.looseSaves, e.1 / 8 ≠ c) →
      (s.parkedOn c = true → exec (.clusterLend c b) s = .next (s.claimCluster c)) ∧
      (s.parkedOn c = false → ∃ t : State, exec (.clusterLend c b) s = .next t ∧ (t.cluster c).lentTo = some b ∧ (t.cluster c).idleAt = s.clk ∧
        (t.cluster c).lines = [] ∧ (t.cluster c).trans = [] ∧ (t.cluster c).ents = [])) ∧
    (n.lentTo ≠ none → n.reclaim = none → s.emptyCluster c = true → n.idleAt + 125000 ≤ s.clk →
      exec (.borrowIdleTimeout c) s = .next (s.setCluster c { n with reclaim := some s.clk })) ∧
    (n.lentTo ≠ none → n.reclaim = none → s.ownerOf c = some i → s.part i = some a →
      s.lacks i (a.guaranteed ++ a.margin.filter s.unlent) = true →
      ∃ t : State, exec (.clusterReclaim c) s = .next t ∧ (t.cluster c).reclaim = some s.clk ∧
        (Tbl.find s.strands k = some x → clusterOf k = c → x.life ≠ .doneWait → x.struck = false → (t.strand k).drainAt ≠ none)) ∧
    (n.reclaim = some t0 → s.emptyCluster c = true →
      (s.parkedOn c = true → exec (.clusterReclaim c) s = .next (s.claimCluster c)) ∧
      (s.parkedOn c = false → ∃ t : State, exec (.clusterReclaim c) s = .next t ∧ (t.cluster c).lentTo = none ∧
        (t.cluster c).reclaim = none ∧ (t.cluster c).lines = [])) ∧
    (n.reclaim = some t0 → t0 + 12000 ≤ s.clk → ∃ t : State, exec (.reclaimPhase1Timeout c) s = .next t ∧
      ∀ e ∈ s.strands, clusterOf e.1 = c → Tbl.find t.groups e.2.gtag = none)

/-- R353 to R360: a contract that is asked for is admitted to its cluster or refused with its reason; removal waits for its jobs; a release
reads the next job, numbers it and sets its deadline, or gives a job that has overrun its new budget and the next deadline, the missed one
reported; a used budget and a passed deadline are reported once, by an event record in the partition's ring; a gang whose groups are all
dispatched sends GREADY to the other members; GREADY is noted; GABORT and the timer end the gang's groups, the timer with GABORT to the
others. When a job is released and refused, and who the members of a gang are, are this model's readings (log entries 47, 50 and 90). -/
def Obligations.ContractsAndGangs : Prop :=
  ∀ (s : State) (p i k id m a x y z : Nat) (q : Partition) (gang : Gang) (l : Launch),
    let c := q.ctr i
    let changed := fun (t : State) (f : Launch → Launch) => { t with launches := t.launches.map fun (e : Launch) => if e.id = l.id then f e else e }
    let at' := c.admitted + c.offset + c.job * c.period
    let after := fun ev f => ∃ (t : State) (q' : Partition), exec ev s = .next t ∧ t.part p = some q' ∧ f (q'.ctr i)
    let sent := fun (t : State) (msg : PeerMsg) => ∀ e ∈ gang.others, ∃ x ∈ t.msgs, x.peer = e.2 ∧ x.op = .mgmt msg
    let ends := fun (t : State) => (∀ e ∈ l.tags, Tbl.find t.groups e = none) ∧ (t.gang id).map Gang.finished = some true
    (s.part p = some q →
      (c.asked = true → s.admission q i = .ok k → after (.contractAdmit p i) fun (d : Contract) =>
        d.asked = false ∧ d.state = 1 ∧ d.cluster = k ∧ d.job = 0 ∧ d.admitted = s.lcycOf (k / 8)) ∧
      (c.asked = true → s.admission q i = .error k → after (.contractAdmit p i) fun d => d = { c with asked := false, state := 2, reason := k }) ∧
      (c.live = true → after (.contractRemove p i) fun d => d = { c with state := if s.openJobs p i = [] then 0 else 3 }) ∧
      (c.state = 3 → s.openJobs p i = [] → after (.jobRelease p i) fun d => d = { c with state := 0 }) ∧
      (c.state = 1 → at' ≤ s.lcycOf (c.cluster / 8) → q.open' = true →
        (after (.jobRelease p i) fun d => d = { c with job := c.job + 1, rtMiss := false }) ∧
        ((∀ e ∈ s.openJobs p i, e.overrun = false) → (q.queue c.lq).en = true → (q.queue c.lq).head ≠ (q.queue c.lq).tail →
          ∃ (t : State) (x : Launch), exec (.jobRelease p i) s = .next t ∧ t.launches = s.launches ++ [x] ∧ x.jobNo = c.job ∧
            x.deadline = at' + c.rel) ∧
        (l ∈ s.openJobs p i → l.overrun = true → ∃ t : State, exec (.jobRelease p i) s = .next t ∧ ∀ e ∈ t.launches, e.id = l.id →
          e.overrun = false ∧ e.late = false ∧ e.deadline = at' + c.rel)) ∧
      (s.openJobs p i = [l] → c.live = true → at' ≤ s.lcycOf (c.cluster / 8) → q.open' = true → l.overrun = true → l.late = false → l.deadline ≤ at' →
        exec (.jobRelease p i) s = .next (((changed (s.onPart p fun q => q.setCtr i { c with job := c.job + 1, rtMiss := false }) fun e =>
          { e with late := true }).event p 8 noStrand i l.jobNo (at' - l.deadline)).onLaunch l.id (fun e =>
            { e with overrun := false, late := false, deadline := at' + c.rel }) |>.makeWay c.cluster)) ∧
      (let f := fun (e : Launch) => !e.overrun && s.onCore e && decide (c.budget ≤ e.used) && !s.pastDone e
       ((s.openJobs p i).find? f = some l → exec (.contractOverrun p i) s =
         .next (((changed s fun e => { e with overrun := true, used := 0 }).makeWay c.cluster).event p 7 noStrand i l.jobNo 0)) ∧
       ((s.openJobs p i).find? f = none → exec (.contractOverrun p i) s = .next s)) ∧
      (let now := s.lcycOf (c.cluster / 8)
       let f := fun (e : Launch) => !e.late && decide (e.deadline < now)
       ((s.openJobs p i).find? f = some l → exec (.deadlineMiss p i) s =
         .next ((changed s fun e => { e with late := true }).event p 8 noStrand i l.jobNo (now - l.deadline))) ∧
       ((s.openJobs p i).find? f = none → exec (.deadlineMiss p i) s = .next s)) ∧
      (let slot := s.ringSlot p q.evBase q.evProd q.evLsz
       q.evWait = [] → q.evLost = 0 → ringRoom q.evProd q.evCons q.evLsz = true → slot = some a → s.poisoned (lineOf a) = false →
        s.lineWaits (lineOf a) true = false → ∃ q' : Partition, let t := s.event p k id x y z
          t.mem = Mem.writeMasked s.mem a ((eventBytes k p id q.evSeq.toNat x y z).map some) ∧ t.part p = some q' ∧
            q' = { q with evProd := q.evProd + 1, evSeq := q.evSeq + 1 })) ∧
    (s.gang id = some gang →
      (s.launches.find? (fun e => e.id == gang.launch) = some l → gang.started = none → gang.finished = false → l.cut = false →
        l.count = some k → k ≤ l.next → ∃ t : State, exec (.gangReady id) s = .next t ∧
          t.gang id = some { gang with started := some s.clk } ∧ sent t (.gready id gang.index)) ∧
      (m < gang.members → m ∉ gang.ready → ∃ t : State, exec (.gready id m) s = .next t ∧
        t.gang id = some { gang with ready := gang.ready ++ [m] }) ∧
      (gang.finished = false → s.launches.find? (fun e => e.id == gang.launch) = some l →
        ∃ t : State, exec (.gabort id m) s = .next t ∧ ends t) ∧
      (gang.finished = false → s.launches.find? (fun e => e.id == gang.launch) = some l → gang.complete = false → gang.started = some k →
        k + 1250 * (if gang.timeout = 0 then 2000 else gang.timeout) ≤ s.clk →
        ∃ t : State, exec (.gangTimeout id) s = .next t ∧ ends t ∧ sent t (.gabort id gang.index)))

/-- R295, R326, R332, R353, R361, R380 and R395: a consumer index is taken where it lies between PROD and the size of its ring below it;
S1ROOT keeps EN and ROOT and starts an invalidation of everything; S1INV starts one of a page where none is in progress; when it completes
no cache holds a result or a stage-1 table entry that it names; an OVERFLOW record with the lost count comes first once a ring has room;
MEMCLS raises a budget of RT to its floor; a fabric window word is stored where the enabled entry is legal, and an entry of a locked owner
takes that owner to ERROR; the other registers store their fields. The model's choice: what covers a page (log entry 55), the TDI of a
locked owner (log entry 61). R10, R338, R353, R374, R380, R394, R395, R400 and R403 to R406: what a register read through a BAR returns,
which leaves the state but for its answer as it was; write-only and unassigned offsets, and every register of an unlocked TDI, read 0. In
recovery PF0 answers for LSTAT and RECOVCTL alone. That a read is a view of the state is log entry 73, the fields of PWRSTAT log entry 66.
-/
def Obligations.HostRegisters : Prop :=
  (∀ (s : State) (p i word off a : Nat) (v : W64) (q : Partition) (e : Option Nat),
     let after := fun ev f => ∃ (t : State) (q' : Partition), exec ev s = .next t ∧ t.part p = some q' ∧ f q'
     let c : BitVec 32 := v.setWidth 32
     let w := s.window i
     let new := if word = 0 then (v &&& 0x0FFFFFFFFFFFF000#64, w.2.1, w.2.2) else if word = 1 then (w.1, v &&& 0x7FFFFFFFFFFFF000#64, w.2.2)
       else (w.1, w.2.1, v &&& 0xFFFFFFFF#64)
     let g := s.mgmt
     (s.tdi p = some q →
       ((q.prqProd - c).toNat ≤ 2 ^ q.prqLsz → after (.prqconsWrite p v) fun r => r = { q with prqCons := c }) ∧
       ((q.evProd - c).toNat ≤ 2 ^ q.evLsz → after (.evconsWrite p v) fun r => r = { q with evCons := c }) ∧
       (after (.s1rootWrite p v) fun r => r = { q with
         s1root := BitVec.ofNat 64 (v.toNat % 2 + v.toNat / 2 ^ 12 % 2 ^ 36 * 2 ^ 12), s1inv := some none }) ∧
       (q.s1inv = none → after (.s1invAll p) fun r => r = { q with s1inv := some none }) ∧
       (q.s1inv = none → v.toNat.testBit 0 = true → v.toNat.testBit 1 = false →
         after (.s1invPage p v) fun r => r = { q with s1inv := some (some (v.toNat / 2 ^ 12 % 2 ^ 36)) }) ∧
       (after (.registerWrite (.tdi p) 0x30 v) fun r => r = { q with tdx := { q.tdx with tdid := v } }) ∧
       (i < 16 → after (.registerWrite (.tdi p) (0x200 + 32 * i) v) fun r =>
         r.ctr i = if (q.ctr i).state = 1 then q.ctr i else { q.ctr i with a := v })) ∧
     (s.part p = some q →
       (s.mgmtOpen = true → after (.memclsWrite p v) fun r => (200 ≤ v.toNat % 2 ^ 16 → r.memcls = v) ∧
         (v.toNat % 2 ^ 16 < 200 → r.memcls.toNat % 2 ^ 16 = 200 ∧ r.memcls.toNat / 2 ^ 16 = v.toNat / 2 ^ 16)) ∧
       (s.mgmtOpen = false → exec (.memclsWrite p v) s = .next s) ∧
       (q.s1inv = some e → ∃ t : State, exec (.s1InvalidationComplete p) s = .next t ∧ (t.part p).map Partition.s1inv = some none ∧
         ∀ k ∈ t.clusters, (∀ x ∈ k.2.trans, x.part = p → ∃ page, e = some page ∧ x.covers page = false) ∧
           ∀ x ∈ k.2.ents, x.part = p → x.two = true ∨ ∃ page, e = some page ∧ x.onPath page = false) ∧
       (q.evLost ≠ 0 → ringRoom q.evProd q.evCons q.evLsz = true → s.ringSlot p q.evBase q.evProd q.evLsz = some a →
         q.evWait = [] → s.poisoned (lineOf a) = false → s.lineWaits (lineOf a) true = false →
         ∃ (t : State) (r : Partition), exec (.eventRingOverflow p) s = .next t ∧ t.part p = some r ∧ r.evLost = 0 ∧ r.evProd = q.evProd + 1 ∧
           t.mem = Mem.writeMasked s.mem a ((eventBytes 11 p noStrand q.evSeq.toNat q.evLost 0 0).map some))) ∧
     (s.mgmtOpen = true → (g.fevProd - c).toNat ≤ 2 ^ g.fevLsz → exec (.fevconsWrite v) s = .next { s with mgmt := { g with fevCons := c } }) ∧
     (s.mgmtOpen = true → word < 3 → new ≠ w →
       (s.frozenKey (windowOf w).key = none → s.frozenKey (windowOf new).key = none →
         ((windowOf new).en = false ∨ s.windowOk i (windowOf new) = true →
           ∃ t : State, exec (.fwinWrite i word v) s = .next t ∧ t.window i = (if i < Config.fwinMax then new else w)) ∧
         ((windowOf new).en = true → s.windowOk i (windowOf new) = false → exec (.fwinWrite i word v) s = .next s)) ∧
       (s.frozenKey (windowOf w).key = some p ∨ s.frozenKey (windowOf new).key = some p → ∃ t : State, exec (.fwinWrite i word v) s = .next t ∧
         (i < Config.fwinMax → ∀ r, t.part p = some r → r.tdisp = .error) ∧ (Config.fwinMax ≤ i → t = s))) ∧
     (s.mgmtOpen = true → off < 6 → exec (.registerWrite .pf0 (0x200 + 8 * off) v) s =
       .next { s with mgmt := { g with pdesc := g.pdesc.set off v } }) ∧
     (s.mgmtOpen = true → off < 4 → exec (.registerWrite .pf0 (0x120 + 8 * off) v) s =
       .next { s with mgmt := { g with featDrv := g.featDrv.set off v } }) ∧
     (s.power = true → g.phase = 3 → off % 8 = 0 → off + 8 ≤ 2 ^ 24 → exec (.registerWrite .staging off v) s =
       .next { s with mgmt := { g with staging := Mem.writeN g.staging off (natLe 8 v.toNat) } })) ∧
  (∀ (s : State) (p n k : Nat) (q : Partition) (a : HostAccess),
     let reads := fun off (v : W64) => exec (.hostApertureAccess p { a with addr := off }) s = .next { s with answer := some (natLe 8 v.toNat) }
     let field := fun off x => reads off (BitVec.ofNat 64 x)
     let bit := fun (b : Bool) i => if b = true then 2 ^ i else 0
     let g := s.mgmt
     a.write = none → a.len = 8 →
     (a.bar = .tdi → s.part p = some q → s.mgmtOpen = true → q.refuse = false → s.ideOk p q a = true →
       (q.tdisp = .unlocked → k < 8192 → reads (8 * k) 0) ∧
       (q.tdisp = .locked ∨ q.tdisp = .run →
         reads 0x00 0 ∧ reads 0x08 q.s1root ∧ field 0x10 (bit q.s1inv.isSome 2) ∧ field 0x18 (bit q.cancelBusy 4) ∧ reads 0x20 0 ∧
         field 0x28 (bit q.tdx.busy 2 + q.tdx.status % 256 * 256) ∧ reads 0x30 q.tdx.tdid ∧ field 0x38 q.evProd.toNat ∧
         field 0x40 q.evCons.toNat ∧ field 0x48 q.prqProd.toNat ∧ field 0x50 q.prqCons.toNat ∧ reads 0x58 0 ∧
         (k < 4 → reads (0x60 + 8 * k) ((g.featAct[k]?).getD 0)) ∧
         (k < 8 → field (0x100 + 24 * k) (bit (q.queue k).en 0 + (q.queue k).cls % 4 * 2 + (q.queue k).base / 4096 % 2 ^ 36 * 2 ^ 12 +
             (q.queue k).lsz % 16 * 2 ^ 48) ∧ field (0x108 + 24 * k) (q.queue k).head ∧ reads (0x110 + 24 * k) 0) ∧
         (k < 16 → reads (0x200 + 32 * k) (q.ctr k).a ∧ reads (0x208 + 32 * k) (q.ctr k).b ∧ reads (0x210 + 32 * k) (q.ctr k).c ∧
           field (0x218 + 32 * k) ((q.ctr k).state % 4 * 4 + (q.ctr k).cluster % 32 * 16 + (q.ctr k).reason % 256 * 65536)))) ∧
     (a.bar = .pf0 → s.power = true →
       field 0 (g.phase % 8 + g.err % 16 * 256 + g.svn.toNat * 2 ^ 32) ∧ field 8 (bit g.recBusy 25) ∧
       (s.mgmtOpen = false → 2 ≤ k → k < 2 ^ 21 → exec (.hostApertureAccess p { a with addr := 8 * k }) s = .next { s with answer := none }) ∧
       (s.mgmtOpen = true → let x := s.port n; let e := Tbl.getD x.ents k RotEnt.reset; let w := s.window k
         reads 0x100 0xFFFF ∧ (k < 4 → reads (0x120 + 8 * k) ((g.featDrv[k]?).getD 0)) ∧ field 0x140 (g.featStat % 4 * 256) ∧
         (k < 6 → reads (0x200 + 8 * k) ((g.pdesc[k]?).getD 0)) ∧ field 0x230 (bit g.pctlBusy 6 + g.pctlStat % 256 * 256) ∧
         reads 0x400 ((g.pwr &&& 0x100000000#64) ||| BitVec.ofNat 64 (s.clampShare % 256 * 2 ^ 24) ||| (Config.powerSense s.clk).setWidth 64) ∧
         reads 0x1000 g.fevBase ∧ field 0x1008 g.fevProd.toNat ∧ field 0x1010 g.fevCons.toNat ∧
         (n < 32 → field (0x10000 + 0x200 * n) (bit x.lock 0 + bit x.dis 1 + (if x.everLock = true then x.idx % 32 * 4 else 0) + x.txu.toNat * 2 ^ 8 +
             x.fails % 4 * 2 ^ 24 + if x.everLock = true then x.round.toNat * 2 ^ 28 else 0) ∧
           (k < 32 → field (0x10100 + 0x200 * n + 8 * k) (e.peer % 2 ^ 12 + e.pport % 32 * 2 ^ 12 + bit (e.valid && x.everLock) 17 + bit e.rate 18 +
             e.txm.toNat * 2 ^ 20 + e.rxm.toNat * 2 ^ 36))) ∧
         (k < 256 → reads (0x20000 + 32 * k) w.1 ∧ reads (0x20008 + 32 * k) w.2.1 ∧ reads (0x20010 + 32 * k) w.2.2) ∧
         (n < 16 → reads (0x30000 + 8 * n) (((s.part n).map Partition.memcls).getD 0)) ∧
         reads 0x40000 (g.rbreq ||| BitVec.ofNat 64 (bit g.rbBusy 18 + bit g.rbDeny 19)) ∧
         (k < 8 → reads (0x40040 + 8 * k) (g.rbdata.extractLsb' (64 * k) 64)) ∧ (k < 2 → reads (0x40080 + 8 * k) ((g.rbtag[k]?).getD 0) ∧
           reads (0x40090 + 8 * k) (g.rbmac.extractLsb' (64 * k) 64)))))

/-- R238, R361, R363 to R365, R368, R395 and R401: rung 1 stops a queue and drops what it has not read; rung 2 ends a group; rung 3 ends the
groups that use a cluster's engines and abandons their commands; rung 4 ends every group of a partition and clears its registers, with RESET
as record 0 and then a GROUP_END record for each group that it ended; rung 5 resets every partition, stops every interface and keeps the
vault's root keys, the KeyIDs, the signature counter and the stacks. Each rung writes its RESET record; rungs 1 to 3 stand until what they
wait for has ended or their timeout applies the next. The model's choice: a reset taken in one step and the order of its records (log entry
53), the standing rungs and their records (log entries 54 and 97), the hub die (log entry 56), and what of the management window stays (log
entry 65). -/
def Obligations.Resets : Prop :=
  ∀ (s : State) (p n g c d : Nat) (st : Status) (q : Partition) (x : Group) (r : Rung),
    let partitionIsReset := fun (t : State) (rung : Nat) => (∀ e ∈ t.groups, e.2.part ≠ p) ∧ (∀ e ∈ t.reqs, e.part ≠ p) ∧ (∀ e ∈ t.cmds, e.part ≠ p) ∧
      (∀ e ∈ t.launches, e.part ≠ p) ∧ (∃ q', t.part p = some q' ∧ q'.lqs = [] ∧ q'.ctrs = [] ∧ q'.s1root = 0 ∧ q'.refuse = false ∧
        q'.desc = q.desc ∧ q'.domains = q.domains ∧ q'.s2root = q.s2root) ∧
      ∃ (u : State) (q0 : Partition), u.part p = some q0 ∧ q0.evProd = 0 ∧ q0.evCons = 0 ∧ q0.evSeq = 0 ∧ q0.evLost = 0 ∧ q0.evWait = [] ∧
        t = (s.groups.filter fun e => e.2.part == p).foldl
          (fun (t : State) e => t.event p 2 noStrand e.2.wid.toNat (statusCode .reset + e.2.seq % 2 ^ 32 * 2 ^ 32) e.2.lq)
          (u.event p 10 noStrand rung (statusCode .reset) 0)
    let deviceIsReset := fun (t : State) => t.groups = [] ∧ t.strands = [] ∧ t.reqs = [] ∧ t.cmds = [] ∧ t.clk = 0 ∧ t.power = s.power ∧
      (∀ e ∈ t.parts, e.2.tdisp = .unlocked) ∧ t.ports = [] ∧ t.links = [] ∧ t.fwin = [] ∧ t.mgmt.phase = 0 ∧ t.xmss = s.xmss ∧
      (∀ r, t.part p = some r → s.part p = some q → r.domains = (q.domains.map fun d => (d.1, d.2.1, none)).eraseDups) ∧
      let u := s.parts.foldl (fun (u : State) e => u.resetPartition e.1 5) s
      t.mem = u.mem ∧ t.keys = u.keys ∧ t.pages = u.pages ∧ t.majors = u.majors ∧ t.poison = u.poison ∧ t.rewrites = u.rewrites ∧
        t.sealCnt = u.sealCnt ∧ t.mgmt.flash = u.mgmt.flash ∧ t.mgmt.minSvn = u.mgmt.minSvn
    (n < 8 → s.part p = some q → ∃ (t : State) (q' : Partition), exec (.queueReset p n) s = .next t ∧ t.part p = some q' ∧
      (q'.queue n).en = false ∧ (q'.queue n).head = 0 ∧ (q'.queue n).tail = 0 ∧
      ∃ r ∈ t.rungs, r.rung = 1 ∧ r.scope = 8 * p + n ∧ r.since = s.clk) ∧
    (Tbl.find s.groups g = some x → ∃ t : State, exec (.contextReset g st) s = .next t ∧ Tbl.find t.groups g = none ∧
      (∀ k ∈ x.strands, Tbl.find t.strands k = none) ∧ (∀ r ∈ t.reqs, r.gtag = g → r.stage = .accepted) ∧
      t = (s.event x.part 10 noStrand 2 (statusCode st) 0).contextReset g st ∧
      ∃ r ∈ t.rungs, r.rung = 2 ∧ r.scope = g ∧ r.since = s.clk ∧ r.left = [g]) ∧
    (∃ t : State, exec (.engineReset c) s = .next t ∧ (∀ e ∈ t.cmds, e.onEngines c = false) ∧
      (∀ e ∈ s.cmds, e.onEngines c = true → Tbl.find t.groups e.gtag = none) ∧ ∃ r ∈ t.rungs, r.rung = 3 ∧ r.scope = c ∧ r.since = s.clk) ∧
    (s.part p = some q → (∃ t : State, exec (.partitionReset p) s = .next t ∧ partitionIsReset t 4) ∧
      ∃ t : State, exec (.vfFunctionLevelReset (p + 1)) s = .next t ∧ partitionIsReset t 4) ∧
    (∃ t : State, exec .deviceReset s = .next t ∧ deviceIsReset t ∧ exec .pf0FunctionLevelReset s = .next t) ∧
    (dieLinks d ≠ [] → (∀ l ∈ dieLinks d, (s.link l).up = false ∧ (s.link l).downAt + 1250000 ≤ s.clk) →
      ∃ t : State, exec (.dieIsolationTimeout d) s = .next t ∧ deviceIsReset t) ∧
    (s.rungs.find? (fun e => e.rung == n && e.scope == c) = some r →
      (s.rungOver r = true → exec (.resetRungTimeout n c) s =
        .next { s with rungs := s.rungs.filter fun e => !(e.rung == n && e.scope == c) }) ∧
      (s.rungOver r = false → s.clk < r.since + rungTimeout n → exec (.resetRungTimeout n c) s = .next s) ∧
      (s.rungOver r = false → r.since + rungTimeout n ≤ s.clk → ∃ t : State, exec (.resetRungTimeout n c) s = .next t ∧
        (n = 1 → ∀ l ∈ s.launches, l.id ∈ r.left → ∀ e ∈ l.tags, Tbl.find t.groups e = none) ∧
        (n = 2 → ∀ e ∈ s.cmds, e.gtag ∈ r.left → ∀ f ∈ t.cmds, f.onEngines (clusterOf e.strand) = false) ∧
        (n = 3 → ∀ e ∈ s.cmds, e.gtag ∈ r.left → s.part e.part ≠ none → ∀ f ∈ t.cmds, f.part ≠ e.part)))

/-- R366 to R368, R371 to R376, R383 to R387 and R390: the failed tag of a retried flit takes a die link down; a retrained link is up; at a
matching boundary the matching steps on, what is unacknowledged returns, and an entry without a beacon is invalid; beacons bind and lock a
port, 32 matchings without one unlock it; at a locked port with a link key a flit of a matching whose beacon has come is accepted in order,
and nacked at a gap or a bad tag; without any of these none is; a nack acknowledges what is below it; lost light is reported, and the
transmitter leaves those wavelengths; an attempt of training uses its matching, and three failed ones disable a port; a routed message
reserves its slots, one without a candidate waits for the next round. The model's choice: the paths of the die links (log entry 56), that
flits are counted (57), when a restripe applies (58), when an attempt is made (59). -/
def Obligations.LinksAndPorts : Prop :=
  ∀ (s : State) (l p k id seq target i : Nat) (again : Bool) (b : BeaconMsg) (f : FlitMsg) (lost m : BitVec 16) (mine peer : TrainRec) (r : Route)
    (msg : Msg),
    let x := s.port p
    let a := s.instanceOf p
    let ready := x.lock = true ∧ x.heard = true ∧ s.keyed p = true ∧ x.rxPend = none
    let after := fun ev f => ∃ t : State, exec ev s = .next t ∧ f (t.port p)
    let nack := fun (w : BitVec 16) => { x with nacks := x.nacks + 1, nackSent := some (x.rxNext, w) }
    (l < 8 → (s.link l).up = true → again = false ∨ (s.link l).failed ≠ 1 →
      exec (.dielinkTagFail ⟨l, again⟩) s = .next (s.setLink l { s.link l with failed := 1 })) ∧
    (l < 8 → (s.link l).up = true → (s.link l).failed = 1 → ∃ t : State, exec (.dielinkTagFail ⟨l, true⟩) s = .next t ∧ (t.link l).up = false) ∧
    (l < 8 → (s.link l).up = true → ∃ t : State, exec (.dieLinkDown l) s = .next t ∧ (t.link l).up = false ∧ (t.link l).downAt = s.clk) ∧
    ((s.link l).up = false → ∃ t : State, exec (.dielinkRetrain l) s = .next t ∧ t.link l = Link.reset) ∧
    (x.lock = true → x.pendMask = none → after (.matchingBoundary p) fun y => y.idx = (x.idx + 1) % 32 ∧
      y.round = (if x.idx = 31 then x.round + 1 else x.round) ∧ y.nacks = 0 ∧ y.missed = (if x.heard then 0 else x.missed + 1) ∧
      y.heard = false ∧ y.acked = 0 ∧ (x.heard = false → (Tbl.getD y.ents x.idx RotEnt.reset).valid = false)) ∧
    (x.lock = false → x.everLock = true → x.heard = false →
      after (.matchingBoundary p) fun y => y.agree = 0 ∧ (Tbl.getD y.ents ((a - 1) % 32) RotEnt.reset).valid = false) ∧
    (b.digestOk = true → p < 32 → x.dis = false → x.lock = false → x.agree = 0 → after (.beacon p b) fun y =>
      y.agree = 1 ∧ y.lock = false ∧ y.idx = b.index % 32 ∧ y.round = BitVec.ofNat 32 b.round ∧ y.heard = true) ∧
    (b.digestOk = true → p < 32 → x.dis = false → x.lock = false → x.agree = 1 → b.index % 32 = (x.idx + 1) % 32 →
      b.round % 2 ^ 32 = (if x.idx = 31 then x.round + 1 else x.round).toNat → (∀ q, q < 32 → q ≠ p → (s.port q).lock = false) →
      after (.beacon p b) fun y => y.lock = true ∧ y.everLock = true ∧ y.phase = b.phaseNs) ∧
    (x.lock = true → 32 ≤ x.missed → after (.beaconLossTimeout p) fun y => y.lock = false ∧ y.sent = []) ∧
    (x.lock = false ∨ x.heard = false ∨ s.keyed p = false → exec (.dataFlit p f) s = .next s ∧ exec (.relayDataFlit p f target) s = .next s) ∧
    (ready → f.tagOk = true → f.ack = 0 → f.seq = x.rxNext → (after (.dataFlit p f) fun y => y.rxNext = x.rxNext + 1) ∧
      after (.relayDataFlit p f target) fun y => y.rxNext = x.rxNext + 1) ∧
    (ready → f.tagOk = true → f.ack = 0 → x.rxNext < f.seq → (after (.dataFlit p f) fun y => y = nack 0) ∧
      after (.relayDataFlit p f target) fun y => y = nack 0) ∧
    (ready → f.tagOk = false → (after (.dataFlit p f) fun y => y = nack 0) ∧ after (.relayDataFlit p f target) fun y => y = nack 0) ∧
    (x.acked < seq → seq ≤ x.txSeq → after (.nack p seq 0) fun y => y.acked = seq) ∧
    (p < 32 → lost = BitVec.ofNat 16 (15 * 2 ^ (4 * (k % 4))) &&& x.txu → lost ≠ 0 → x.pendMask = none → x.lock = false →
      x.txu &&& ~~~lost ≠ 0 → after (.laserModuleFail p k) fun y => y.txu = x.txu &&& ~~~lost) ∧
    (p < 32 → lost ≠ 0 → after (.lossOfLightDeclare p lost) fun y => y = nack lost) ∧
    (after (.restripe p m seq) fun y => y = { x with rxPend := some (seq, m) }) ∧
    (s.mgmtOpen = true → p < 32 → after (.portRetrain p) fun y => y = { x with retrain := true, dis := false, fails := 0 }) ∧
    (x.attempt = some a → exec (.retrainAttempt p i mine peer again) s = .next s) ∧
    (x.trains a i = true → p < 32 → i < 32 → after (.retrainAttempt p i mine peer true) fun y => y.fails = 0 ∧ y.retrain = false ∧ y.attempt = some a ∧
      (crc32 (trainBytes mine) ≠ crc32 (trainBytes peer) → mine.rate = true → let e := Tbl.getD y.ents i RotEnt.reset
        e.rate = true ∧ e.txm = mine.txUse &&& peer.rxUse ∧ e.rxm = peer.txUse &&& mine.rxUse)) ∧
    (x.trains a i = true → p < 32 → i < 32 → after (.retrainAttempt p i mine peer false) fun y =>
      (x.fails < 2 → y = { x with fails := x.fails + 1, attempt := some a }) ∧ (2 ≤ x.fails → y.dis = true)) ∧
    (s.msgs.find? (fun e => e.id == id) = some msg → msg.route = none → msg.acked = false → msg.tried ≠ s.roundNow →
      (∀ e ∈ s.msgs, e.id ≠ id → e.id < id ∨ e.route.isSome = true → e.acked = false → s.collides e msg = false) →
      let route := (chooseRoute s.ownTables s.tablesOf s.reserved (s.aheadOf msg) msg.peer msg.left s.fabricTime).map Prod.snd
      (route = some r → r.slot ≠ s.instanceOf r.port → exec (.messageRoute id) s = .next { s with
        nextId := s.nextId + 1
        msgs := s.msgs.map fun e => if e.id = id then { e with route := some r, relayed := r.relay.isSome, rank := s.nextId } else e }) ∧
      (route = none → exec (.messageRoute id) s = .next { s with
        msgs := s.msgs.map fun e => if e.id = id then { e with tried := s.roundNow } else e }))

/-- R218, R316, R322, R378, R380 to R382: a message is performed once: one whose tag fails is discarded, gives Lantern a record and tells
the sender, and a count seen before changes nothing; without a window of its source, a trust domain or a right it is answered with ACCESS; a
write that passes is stored and answered, and where it is the last of its command the target posts the command's flag word. The data of a
completed read reach their request; an ACCESS answer is a stage-2 fault; an answer whose tag fails, or that reports a failed tag or poison,
ends the group. The forms of the answers and that the target is told of a command's messages by number are the model's choice (log entry
62). -/
def Obligations.RemoteTransactions : Prop :=
  ∀ (s : State) (r : RemoteReq) (a : RemoteAnswer) (m : Msg) (b : List (Option Byte)) (p : Nat) (e : Req) (n : Nat),
    let fits := fun (w : Window) => w.en && w.src == r.src && decide (w.base ≤ r.fia) && decide (r.fia < w.base + w.size)
    let found := (s.fwin.map fun e => windowOf e.2).find? fits
    let answered := fun (t : State) (access failed : Bool) => ∃ x ∈ t.msgs, x.peer = r.src ∧ x.op = .answer r.count access false false failed []
    (r.tagOk = false → ∃ t : State, exec (.fabricRequestReceive r) s = .next t ∧ t.mem = s.mem ∧ t.accepts = s.accepts ∧
      t.lantern = s.lantern ++ [.fabric r.src r.endpoint] ∧ answered t false true) ∧
    (r.tagOk = true → (r.src, r.endpoint, r.count) ∈ s.accepts → exec (.fabricRequestReceive r) s = .next s) ∧
    (r.tagOk = true → s.countOk r.src r.endpoint r.count = true → r.op = .write b → b ≠ [] → r.fia % 64 + b.length ≤ 64 →
      (found = none → ∃ t : State, exec (.fabricRequestReceive r) s = .next t ∧ t.mem = s.mem ∧ answered t true false ∧
        (r.src, r.endpoint, r.count) ∈ t.accepts) ∧
      (∀ w, found = some w → (s.key w.key).owner = some p → (∃ q d, s.part p = some q ∧ d ∈ q.domains ∧ d.1 = r.tdid) →
        let pa := w.key * 2 ^ 48 + w.tpa + (r.fia - w.base)
        let m1 := Mem.writeMasked s.mem pa b
        (w.wr = false ∨ w.base + w.size < r.fia + b.length →
          ∃ t : State, exec (.fabricRequestReceive r) s = .next t ∧ t.mem = s.mem ∧ answered t true false) ∧
        (w.wr = true → r.fia + b.length ≤ w.base + w.size → s.poisonedIn pa b.length = false →
          (∀ l ∈ linesIn pa b.length, s.lineWaits l true = false) → ∃ t : State, exec (.fabricRequestReceive r) s = .next t ∧ answered t false false ∧
            (r.cmd = none → t.mem = m1) ∧
            (∀ c k fia count, r.cmd = some c → r.post = some (.word k fia count) → (∀ x ∈ s.far, ¬(x.src = r.src ∧ x.ep = r.endpoint ∧ x.cmd = c)) →
              (k = 2 → t.mem = m1) ∧
              (∀ p2 pa2, k = 1 → s.windowPlace r (.flagWord count) fia 4 = some (p2, pa2) → s.poisonedIn pa2 4 = false →
                (∀ l ∈ linesIn pa2 4, s.lineWaits l true = false ∧ l ∉ linesIn pa b.length) →
                t.mem = Mem.writeN m1 pa2 (natLe 4 ((leNat (Mem.readN m1 pa2 4) + count) % 2 ^ 32))))))) ∧
    (s.msgs.find? (fun x => x.id == a.target && x.isCmd == a.isCmd && !x.acked) = some m → m.isCmd = false → m.op = .read n →
      s.req m.owner = some e → m.piece < e.pieces.length → (∀ l ∈ s.leases, l.lender = true ∨ l.state ≠ 1) →
      (a.tagOk = true → a.poison = false → a.failed = false → a.access = false → ∃ (t : State) (e' : Req) (q : Piece),
        exec (.fabricCompletion a) s = .next t ∧ (∀ x ∈ t.msgs, x.id ≠ m.id) ∧ t.req m.owner = some e' ∧ e'.pieces[m.piece]? = some q ∧
        q.done = true ∧ q.data = a.data) ∧
      (a.tagOk = true → a.poison = false → a.failed = false → a.access = true → ∃ (t : State) (f : FaultRec) (e' : Req),
        exec (.fabricCompletion a) s = .next t ∧ f ∈ t.faults ∧ f.stage2 = true ∧ f.access = true ∧ f.waiter.1 = false ∧ f.waiter.2.1 = e.id ∧
        t.req m.owner = some e' ∧ e'.fault = some f.id) ∧
      (a.tagOk = false ∨ a.failed = true → ∃ t : State, exec (.fabricCompletion a) s = .next t ∧ Tbl.find t.groups e.gtag = none ∧
        .message e.part e.gtag ∈ t.lantern) ∧
      (a.tagOk = true → a.failed = false → a.poison = true → ∃ t : State, exec (.fabricCompletion a) s = .next t ∧ Tbl.find t.groups e.gtag = none))

/-- R388 to R390: an initiation with its trust domain starts and sends step 1; an armed acceptance stands for 1 ms; step 1 that it matches
goes on to step 2, step 2 to step 3, where the signature verifies and the identity key that the message holds is the one of the sender's
certificate; step 3 gives the accepter the root key that it unwraps or ends with 2, step 4 with the right confirmation ends the agreement
with STATUS 0; a check that fails ends it with 2, 1 ms with 3. The model's choice: whether a signature verifies is the message's own field,
and the keys are opaque (log entry 63); when an acceptance lapses (log entry 25); what H covers (log entry 94). -/
def Obligations.KeyAgreement : Prop :=
  ∀ (s : State) (p peer t0 : Nat) (v : W64) (q : Partition) (m : TdxMsg) (root : BitVec 256) (arm : Nat × Nat × W64 × Nat),
    let x := q.tdx
    let td := x.tdid
    let ppart := v.toNat / 2 ^ 28 % 16
    let after := fun ev f => ∃ (t : State) (q' : Partition), exec ev s = .next t ∧ t.part p = some q' ∧ f q'
    let running := fun n => x.busy = true ∧ x.step = n ∧ x.peer = peer ∧ x.goal = m.tdid ∧ m.part = p ∧ m.tdid ≠ 0 ∧ m.verdict = none
    let ended := fun n (r : Partition) => r.tdx.busy = false ∧ r.tdx.status = n
    let k := takeStep3 x.draw x.log m
    let good := fun place => m.checked = true ∧ (m.body.drop place).take 68 = Config.certifiedKey peer
    (s.tdi p = some q → x.busy = false → s.exhausted = false →
      (v.toNat % 4 = 1 → q.atLimit td = false → td ≠ 0 → td ∈ q.tds → after (.tdxInitiate p v) fun r => r.tdx.busy = true ∧ r.tdx.step = 1 ∧
        r.tdx.goal = td ∧ r.tdx.peer = v.toNat / 2 ^ 16 % 2 ^ 12 ∧ r.tdx.ppart = ppart ∧ r.tdx.since = s.clk) ∧
      (v.toNat % 4 = 3 → after (.tdxAcceptArm p v) fun r => r = { q with
        tdx := { x with armed := some (v.toNat / 2 ^ 16 % 2 ^ 12, ppart, td, s.clk) } })) ∧
    (s.part p = some q →
      (x.armed = some arm → arm.2.2.2 + 1250000 ≤ s.clk → after (.tdxAcceptExpiry p) fun r => r = { q with tdx := { x with armed := none } }) ∧
      (x.busy = true → x.since + 1250000 ≤ s.clk → after (.tdxAgreementTimeout p) (ended 3)) ∧
      (m.part = p → m.tdid ≠ 0 → x.busy = false → x.armed = some (peer, m.source, m.tdid, t0) → s.clk < t0 + 1250000 → s.exhausted = false →
        q.atLimit m.tdid = false →
        (good 41 → after (.keyAgreementStep1 peer m) fun r => r.tdx.busy = true ∧ r.tdx.step = 2 ∧ r.tdx.goal = m.tdid ∧ r.tdx.peer = peer) ∧
        (¬good 41 → after (.keyAgreementStep1 peer m) (ended 2))) ∧
      (running 1 → s.exhausted = false → (good 32 → after (.keyAgreementStep2 peer m) fun r => r.tdx.busy = true ∧ r.tdx.step = 3) ∧
        (¬good 32 → after (.keyAgreementStep2 peer m) (ended 2))) ∧
      (running 2 → m.checked = false → after (.keyAgreementStep3 peer m) (ended 2)) ∧
      (running 2 → m.checked = true → after (.keyAgreementStep3 peer m) fun r =>
        match keyUnwrap (agreeKeys k.2 k.1).1 (m.body.drop ciphertextBytes) with
        | some key => ended 0 r ∧ ∃ w, (m.tdid, w, some peer) ∈ r.domains ∧
            ((∀ d ∈ q.domains, ¬(d.1 = m.tdid ∧ d.2.2 = some peer)) → w = BitVec.ofNat 256 (beNat key))
        | none => ended 2 r) ∧
      (running 3 → m.checked = true → m.body = confirmation x.secret x.log → (m.tdid, root, none) ∈ q.domains →
        after (.keyAgreementStep4 peer m) fun r => ended 0 r ∧ ∃ w, (m.tdid, w, some peer) ∈ r.domains) ∧
      (running 3 → m.checked = false → after (.keyAgreementStep4 peer m) (ended 2)) ∧
      (running 3 → m.checked = true → m.body ≠ confirmation x.secret x.log → after (.keyAgreementStep4 peer m) (ended 2)))

/-- R230, R231, R391 and R392: a lender that has room for a lease grants it under a KeyID of its own and installs its window, unless its
policy forbids it; an answer writes the status word, and a grant maps the window first; no answer within 256 µs is STATUS 3; LEVICT takes
the window's translations and is answered with LACK once no request to the window is outstanding; LACK or 250,000 cycles end the lease at
the lender, whose pages read zero. The model's choice: where the window, the fabric address and the KeyID lie, and STATUS 1 for what the
lender cannot give (log entry 64); the pool's owner and policy (log entry 91). -/
def Obligations.Leases : Prop :=
  ∀ (s : State) (peer page k i fia id st lid n cmd : Nat) (td : W64) (c : Cmd) (l : Lease) (w : Nat) (size window : Nat),
    let answers := fun (t : State) (st id fia : Nat) => ∃ y ∈ t.msgs, y.peer = peer ∧ y.op = .mgmt (.leaseAnswer cmd st id fia)
    let own := Config.poolPartition
    (∃ t : State, exec (.leaseRequest ⟨peer, cmd⟩ td (4096 * n)) s = .next t ∧
      (Config.leaseForbidden peer td = true → t.leases = s.leases ∧ answers t 2 0 0) ∧
      (Config.leaseForbidden peer td = false →
        ((∃ e ∈ s.parts, ∃ d ∈ e.2.domains, d.1 = td ∧ d.2.2 = some peer) → s.poolHolds td = true →
          s.poolPlace n = some page → s.freeKey = some k →
          (List.range Config.fwinMax).find? (fun i => (windowOf (s.window i)).en == false) = some i →
          s.freeFia peer (4096 * n) = some fia →
          ∃ y : Lease, t.leases = s.leases ++ [y] ∧ y.lender = true ∧ y.peer = peer ∧ y.part = own ∧ y.pages = n ∧ y.base = 4096 * page ∧
            y.state = 0 ∧ (t.key k).owner = some own ∧ answers t 0 y.id fia ∧ windowOf (t.window i) =
              ⟨fia / 4096 % 2 ^ 36 * 4096, peer % 2 ^ 12, page % 2 ^ 36 * 4096, k % 2 ^ 12, true, true, true, n % 2 ^ 32 * 4096⟩) ∧
        (s.poolPlace n = none ∨ s.freeKey = none ∨ s.poolHolds td = false → t.leases = s.leases ∧ answers t 1 0 0))) ∧
    (s.leaseWaiting id = some (c, peer, size, window) →
      exec (.leaseAnswer id 0 lid fia) s = .next ({ s with leases := s.leases ++
        [Lease.mk lid false peer c.part (size / 4096) window fia (some id) 0 0] }.leaseEnd c lid 0) ∧
      (st ≠ 0 → exec (.leaseAnswer id st lid fia) s = .next (s.leaseEnd c 0 st)) ∧
      (∀ t, c.accepted = some t → t + 320000 ≤ s.clk → exec (.leaseAnswerTimeout id) s = .next (s.leaseEnd c 0 3))) ∧
    (s.leases.find? (fun y => y.id == id && !y.lender && y.peer == peer && y.state == 0) = some l → s.msgs = [] → ∃ t : State,
      exec (.levict peer id) s = .next t ∧ (∀ z ∈ t.leases, ¬(z.id = id ∧ z.lender = false ∧ z.peer = peer ∧ z.state ≤ 1)) ∧
      ∃ y ∈ t.msgs, y.peer = peer ∧ y.op = .mgmt (.lack id)) ∧
    (s.evicting id = some l →
      let gone := fun ev => ∃ t : State, exec ev s = .next t ∧ (windowOf (t.window l.fwin)).en = false ∧
        (∀ y ∈ t.leases, y.id = id → y.lender = true → 2 ≤ y.state) ∧ (t.key (windowOf (s.window l.fwin)).key).owner = none ∧
        ∀ j, j < l.pages → w < 4096 →
          Mem.read t.mem (((windowOf (s.window l.fwin)).key * 2 ^ 36 + l.base / 4096 + j) * 4096 + w) = 0
      gone (.lack id) ∧ (l.since + 250000 ≤ s.clk → gone (.lackTimeout id)))

/-- R322, R334, R394, R396 and R397: the messages of TDISP move an interface between its states and are answered over a session to it; STOP
from a locked or running interface resets the partition; a change of the stage 2, the descriptor or a KeyID is made while the interface is
unlocked, and moves a locked one to ERROR, but for an addition and for a change that changes nothing; the host's accesses are translated by
stage 2 and answered, and refused where the interface, the stream or the translation do not allow them. The bytes of messages (log entries
68 and 69) and what an unlocked aperture takes (log entry 70) are the model's choice. -/
def Obligations.Interfaces : Prop :=
  ∀ (s : State) (p k level gpa at' n : Nat) (entry : W64) (q : Partition) (a : HostAccess) (g pa : Nat) (b : List Byte),
    let after := fun ev f => ∃ (t : State) (q' : Partition), exec ev s = .next t ∧ t.part p = some q' ∧ f q'.tdisp (t.box (p + 1)).reply
    let locked := q.tdisp = .locked ∨ q.tdisp = .run
    let error := fun c => ∃ (t : State) (q' : Partition), exec (.stage2ChangeRequest p c) s = .next t ∧ t.part p = some q' ∧ q'.tdisp = .error
    let same := fun c => exec (.stage2ChangeRequest p c) s = .next s
    let forgotten := fun (t : State) => ∀ c ∈ t.clusters, (∀ x ∈ c.2.trans, x.part ≠ p) ∧ ∀ x ∈ c.2.ents, x.part ≠ p
    (s.part p = some q → s.session p = true →
      (after (.getTdispVersion p) fun d r => d = q.tdisp ∧ r = [0x10]) ∧
      (q.tdisp = .unlocked → after (.lockInterfaceRequest p) fun d r => d = .locked ∧ r = [1]) ∧
      (q.tdisp ≠ .unlocked → after (.lockInterfaceRequest p) fun d r => d = q.tdisp ∧ r = []) ∧
      (q.tdisp = .locked → after (.startInterfaceRequest p) fun d r => d = .run ∧ r = [1]) ∧
      (q.tdisp ≠ .locked → after (.startInterfaceRequest p) fun d r => d = q.tdisp ∧ r = []) ∧
      (after (.stopInterfaceRequest p) fun d r => d = .unlocked ∧ r = [1]) ∧
      (locked → ∃ (t : State) (r : Partition), exec (.stopInterfaceRequest p) s = .next t ∧ (∀ e ∈ t.groups, e.2.part ≠ p) ∧ (∀ e ∈ t.reqs, e.part ≠ p) ∧
        (∀ e ∈ t.cmds, e.part ≠ p) ∧ (∀ e ∈ t.launches, e.part ≠ p) ∧ t.part p = some r ∧ r.lqs = [] ∧ r.ctrs = [] ∧ r.s1root = 0 ∧ r.desc = q.desc) ∧
      (after (.getTdispCapabilities p) fun d r => d = q.tdisp ∧ r = [1]) ∧
      (after (.getDeviceInterfaceState p) fun d r => d = q.tdisp ∧ r = natLe 1 q.tdisp.code) ∧
      (locked → after (.getDeviceInterfaceReport p) fun d r => d = q.tdisp ∧ r = s.report p q)) ∧
    (s.part p = some q →
      (s.mgmtOpen = false → same (.keyid k true) ∧ same (.keyid k false) ∧ same (.descriptor n entry) ∧ same (.add level gpa entry) ∧
        same (.change level gpa entry)) ∧
      ((s.key k).owner ≠ none → same (.keyid k true)) ∧ ((s.key k).owner ≠ some p → same (.keyid k false)) ∧
      (q.desc.set n entry = q.desc → same (.descriptor n entry)) ∧
      (s.mgmtOpen = true →
        (1 ≤ k → k < 4096 → (s.key k).owner = none →
          (q.tdisp = .unlocked → exec (.stage2ChangeRequest p (.keyid k true)) s = .next (s.giveKey k (some p))) ∧ (locked → error (.keyid k true))) ∧
        ((s.key k).owner = some p → (q.tdisp = .unlocked → ∃ t : State, exec (.stage2ChangeRequest p (.keyid k false)) s = .next t ∧
          (t.key k).owner = none ∧ forgotten t ∧
          ∀ e ∈ s.pages, keyOf e.1 = k → ∀ w, w < 4096 → Mem.read t.mem (e.1 * 4096 + w) = 0) ∧ (locked → error (.keyid k false))) ∧
        (q.desc.set n entry ≠ q.desc → (locked → error (.descriptor n entry)) ∧ (q.tdisp = .unlocked →
          (s.descOk p (q.desc.set n entry) = true → ∃ t : State, exec (.stage2ChangeRequest p (.descriptor n entry)) s = .next t ∧
            t.part p = some { q with desc := q.desc.set n entry }) ∧
          (s.descOk p (q.desc.set n entry) = false → same (.descriptor n entry)))) ∧
        (s.entryOf q level gpa = .ok (some at') →
          let old := Mem.word s.mem at'
          let made := fun (kept : Bool) c => ∃ t : State, exec (.stage2ChangeRequest p c) s = .next t ∧ t.part p = some q ∧
            t.mem = Mem.writeN s.mem at' (natLe 8 entry.toNat) ∧ (kept = true ∨ forgotten t)
          let plain := (level = 3 ∨ entry.toNat.testBit 1 = false ∨ entry.toNat.testBit 0 = false) ∧ s.lineWaits (lineOf at') true = false ∧
            (entry.toNat.testBit 0 = true → entry.toNat.testBit 60 = false → s.leaseKey (entry.toNat / 2 ^ 48 % 2 ^ 12) = false)
          (old = entry → same (.add level gpa entry) ∧ same (.change level gpa entry)) ∧
          (old ≠ entry → old.toNat.testBit 0 = true → (locked → error (.add level gpa entry) ∧ error (.change level gpa entry)) ∧
            (q.tdisp = .unlocked → plain → made false (.add level gpa entry) ∧ made false (.change level gpa entry))) ∧
          (old ≠ entry → old.toNat.testBit 0 = false → q.tdisp ≠ .error → plain → made true (.add level gpa entry) ∧ made true (.change level gpa entry))) ∧
        (s.entryOf q level gpa = .error pa → exec (.stage2ChangeRequest p (.change level gpa entry)) s = .next (s.poisonRecord p pa))) ∧
      (s.mgmtOpen = true → q.refuse = false → s.ideOk p q a = true →
        (a.bar = .aperture → a.write = none → a.addr + a.len ≤ 2 ^ 39 → (s.hostPlaces p a.addr a.len false).1 = .ok [(pa, g)] → s.poisonedIn pa g = false →
          ∃ t : State, exec (.hostApertureAccess p a) s = .next t ∧ t.answer = some (Mem.readN s.mem pa g) ∧ t.mem = s.mem) ∧
        (a.bar = .aperture → a.write = some b → a.addr + b.length ≤ 2 ^ 39 → (s.hostPlaces p a.addr b.length true).1 = .ok [(pa, b.length)] →
          s.poisonedIn pa b.length = false → ∃ t : State, exec (.hostApertureAccess p a) s = .next t ∧ t.answer = some [] ∧
            t.mem = Mem.writeN s.mem pa b) ∧
        (a.bar = .tdi → a.write = none → a.len = 8 → a.addr % 8 = 0 → a.addr < 65536 → exec (.hostApertureAccess p a) s =
          .next { s with answer := some (natLe 8 ((s.readTdi p a.addr).getD 0).toNat) })) ∧
      (q.tdisp = .run ∧ a.tbit = false ∨ q.tdisp = .error ∨ q.refuse = true → a.bar = .aperture ∨ a.bar = .tdi →
        exec (.hostApertureAccess p a) s = .next { s with answer := none }))

/-- R396 and R398 to R406: SPDM negotiates in its order and opens, finishes and ends sessions; a session provisions root keys and binds IDE
streams; a boot reads, checks and starts its image or enters recovery, which a sound staged image ends; features are latched where all of
those that cannot be switched off are there; partitions are created and destroyed by the rules of their descriptors, and not while Lantern
acts; a readback keeps one result; a clamp freezes cores, contracted ones only with all others; removed power keeps no state. The model's
choice: one phase of the boot an event, and how long RECOVCTL is BUSY (log entry 65); PWRSTAT (66); when PCTL is BUSY (67); the bytes of
messages and measurements (68, 69); the layout of readbacks (71). -/
def Obligations.BootAndTrust : Prop :=
  ∀ (s : State) (p fn n stream index : Nat) (o : SpdmOffer) (nonce share : List Byte) (td v : W64) (key : BitVec 256) (q : Partition),
    let x := s.box fn
    let g := s.mgmt
    let asks := fun ev (y : Spdm) => ∃ t : State, exec ev s = .next t ∧ t.box fn = y
    let boots := fun (h : Mgmt) => exec .powerUp s = .next { s with free := s.free + 1, mgmt := h }
    let held := fun m => (s.strand (2 * m)).contract = true ∨ (s.strand (2 * m + 1)).contract = true
    (s.boxOpen fn = true →
      asks (.getVersion fn) { x with version := true, caps := false, algs := false, reply := [0x13] } ∧
      (x.version = true → asks (.getCapabilities fn) { x with caps := true, algs := false, reply := [1] }) ∧
      (x.caps = true → o.ecdsaP384 = true → o.sha384 = true → o.secp384r1 = true → o.aesGcm = true →
        asks (.negotiateAlgorithms fn o) { x with algs := true, reply := [1] }) ∧
      (x.algs = true → asks (.getDigests fn) { x with reply := sha384 Config.certChain } ∧
        asks (.getCertificate fn 0) { x with reply := Config.certChain } ∧ asks (.challenge fn nonce) { x with reply := Config.spdmSign nonce } ∧
        asks (.keyExchange fn share) { x with
          sessions := x.sessions ++ [(x.nextSess, false)], nextSess := x.nextSess + 1, reply := Config.spdmShare x.nextSess } ∧
        asks (.getMeasurements ⟨fn, none⟩ index) { x with reply := s.blocks none index } ∧
        ((n, true) ∈ x.sessions → 1 ≤ fn → asks (.getMeasurements ⟨fn, some n⟩ index) { x with reply := s.blocks (some (fn - 1)) index })) ∧
      ((n, false) ∈ x.sessions → asks (.finish fn n true) { x with
        sessions := (x.sessions.filter fun e => e.1 != n) ++ [(n, true)], reply := [1] }) ∧
      ((n, true) ∈ x.sessions → asks (.keyUpdate fn n) { x with reply := [1] } ∧ asks (.heartbeat fn n) { x with reply := [1] } ∧
        asks (.endSession fn n) { x with sessions := x.sessions.filter fun e => e.1 != n, reply := [1] })) ∧
    (stream < 32 → s.session p = true → (n, true) ∈ (s.box (p + 1)).sessions →
      exec (.ideKm n stream p key) s = .next { s with ide := Tbl.insert s.ide stream (p, key) }) ∧
    (s.session p = true → s.part p = some q → td ≠ 0 → q.atLimit td = false → ∃ (t : State) (q' : Partition),
      exec (.tenantRootKeyProvision p td key) s = .next t ∧ t.part p = some q' ∧ (td, key, none) ∈ q'.domains ∧
      ∀ d ∈ q'.domains, d.1 = td → d.2.2 = none → d.2.1 = key) ∧
    (s.power = false → exec .powerUp s = .next { s with power := true }) ∧
    (s.power = true →
      (g.phase = 0 → boots (
        if Config.flashReads s.free = false then { g with phase := 3, err := 4 }
        else match g.flashed with
          | none => { g with phase := 3, err := 1 }
          | some b => if 2 ^ 24 < b.length then { g with phase := 3, err := 5 } else { g with phase := 1 })) ∧
      (g.phase = 1 → g.recBusy = false → ∃ t : State, exec .powerUp s = .next t ∧
        let e := g.imageErr (g.flashed.getD [])
        (e = 0 → t.mgmt.phase = 2 ∧ t.mgmt.svn = Config.imageSvn (g.flashed.getD []) ∧ t.mgmt.err = 0) ∧
        (e ≠ 0 → boots { g with phase := 3, err := e })) ∧
      (g.phase = 3 → v.toNat.testBit 24 = true → g.recBusy = false →
        exec (.recovctlGo v) s = .next { s with mgmt := { g with phase := 1, recBusy := true, recLen := v.toNat % 2 ^ 24 } }) ∧
      (g.recBusy = true ∨ g.phase ≠ 3 → exec (.recovctlGo v) s = .next s) ∧
      (g.phase = 1 → g.recBusy = true → ∃ t : State, exec .powerUp s = .next t ∧ t.mgmt.recBusy = false ∧
        let img := Mem.readN g.staging 0 g.recLen
        (g.imageErr img = 0 → t.mgmt.phase = 2 ∧ t.mgmt.flash = some img ∧ t.mgmt.svn = Config.imageSvn img) ∧
        (g.imageErr img ≠ 0 → boots { g with phase := 3, err := g.imageErr img, recBusy := false })) ∧
      (g.phase = 2 → boots { g with phase := 4 })) ∧
    (s.mgmtOpen = true →
      (s.parts = [] → (g.featDrv.headD 0) &&& 0xFFFF = 0xFFFF → exec .featctlGo s =
        .next { s with mgmt := { g with featAct := List.zipWith (· &&& ·) featDev g.featDrv, featStat := 1 } }) ∧
      (s.parts = [] → (g.featDrv.headD 0) &&& 0xFFFF ≠ 0xFFFF → exec .featctlGo s =
        .next { s with mgmt := { g with featAct := [0, 0, 0, 0], featStat := 2 } }) ∧
      (g.pctlBusy = true → exec (.partitionCreate p) s = .next s ∧ exec (.partitionDestroy p) s = .next s) ∧
      (g.pctlBusy = false →
        (p < 16 → g.featStat = 1 → s.part p = none → s.descOk p g.pdesc = true → ∃ (t : State) (q' : Partition),
          exec (.partitionCreate p) s = .next t ∧ t.part p = some q' ∧ q'.desc = g.pdesc ∧ q'.tdisp = .unlocked ∧ t.mgmt.pctlStat = 0 ∧
          t.mgmt.pctlBusy = true) ∧
        (p < 16 → g.featStat = 1 → s.part p = none → s.descOk p g.pdesc = false →
          exec (.partitionCreate p) s = .next { s with mgmt := { g with pctlStat := 1, pctlBusy := true } }) ∧
        (s.part p = some q → q.tdisp = .unlocked → ∃ t : State, exec (.partitionDestroy p) s = .next t ∧ t.part p = none ∧ t.mgmt.pctlStat = 0 ∧
          t.mgmt.pctlBusy = true ∧ ∀ k, (t.key k).owner ≠ some p) ∧
        (s.part p = some q → q.tdisp ≠ .unlocked →
          exec (.partitionDestroy p) s = .next { s with mgmt := { g with pctlStat := 4, pctlBusy := true } })) ∧
      (v.toNat.testBit 17 = true → exec (.rbreqGo v) s = if g.rbBusy = true then .next s else
        .next { s with mgmt := { g with
          rbreq := v &&& 0xFFFFFFFFFFF1FFFF#64, rbAsk := v &&& 0xFFFFFFFFFFF1FFFF#64, rbBusy := true, rbDeny := false } })) ∧
    (g.rbBusy = true → ∃ t : State, exec .readbackComplete s = .next t ∧ t.mgmt.rbBusy = false ∧ t.mgmt.rbCount = g.rbCount + 1 ∧
      let r := s.readbackLoad.result
      t.mgmt.rbDeny = r.deny ∧ t.mgmt.rbdata = r.data ∧ t.mgmt.rbtag = r.tag ∧ t.mgmt.rbmac = r.mac) ∧
    (n < 256 → (¬held n → ∃ t : State,
        exec (.powerClamp [n]) s = .next t ∧ (t.core n).frozen = true ∧ s.clk ∈ (t.core n).clamps) ∧
      (held n → (∃ m, m < 256 ∧ m ≠ n ∧ ¬held m) → exec (.powerClamp [n]) s = .next s)) ∧
    (∃ t : State, exec .powerRemoval s = .next t ∧ t.power = false ∧ t.mem = [] ∧ t.keys = [] ∧ t.parts = [] ∧ t.xmss = 0) ∧
    (∃ t : State, exec .thermalShutdown s = .next t ∧ t.power = false ∧ t.mem = [] ∧ t.mgmt.pwr = 0x100000000)

/-- R5, R62 and R82 in this model's steps: in a core's part of a cycle, when one bundle comes to the merge stage that nothing holds, the
step is the issue of that bundle, to which what is due has become visible, and when the bundle's word decodes to one instruction, it is
`exec` of that instruction at the opened bundle, then the bundle's end; with it the core's part ends, and its gathers read the SPAD (R191).
A core that is frozen, or whose strand's late landing stops it, issues nothing (R8), though a drain bound may end and a promise pass (R6).
In the events part of a cycle the step is the next event of the agenda whose time has come, or with an empty agenda every internal event in
turn and the reset rungs' timeouts (R364). The transfer units come last (R20), and the end of the cycle follows them. That a cycle has these
parts in this order, and an agenda, is this model's choice (log entries 6 and 7). -/
def Obligations.StepRunsDecoded : Prop :=
  (∀ (s u : State) (c : Nat) (b : Bid), s.turn = c + 1 → (s.core c).frozen = false → c ≤ 255 → s.presented c = (u, some [b]) →
    b.ready = true → b.need = 0 → u.waitsMet [b] [] = [b] →
    let v := (u.settleFor b.k).askPorts b.k
    let w := (v.strand b.k).bundleAt (v.strand b.k).pc
    step s = andThen (v.issueBundle b.k) (fun t => .next { t.gatherCycle c with turn := c + 2 }) ∧
    ∀ i, (v.strand b.k).reissue = none → decodeOne w = some i →
      v.issueBundle b.k = andThen (exec i (v.openBundle b.k w)) fun t => .next (t.closeIssue b.k)) ∧
  (∀ (s t : State) (c : Nat), s.turn = c + 1 → c ≤ 255 →
    (((s.core c).frozen = true ∧ (let u := ((s.wake (2 * c)).wake (2 * c + 1)).promises c; t = u.setCore c { u.core c with frozen := false })) ∨
      ((s.core c).frozen = false ∧ s.presented c = (t, none))) →
    step s = .next { t.gatherCycle c with turn := c + 2 }) ∧
  (∀ (s : State) (e : Instr) (r : List (Nat × Instr)), s.turn = 0 → s.agenda = (0, e) :: r →
    step s = if isTransfer e then .next { s with turn := 1 } else exec e { s with agenda := r }) ∧
  (∀ (s : State) (n : Nat) (e : Instr) (r : List (Nat × Instr)), s.turn = 0 → s.agenda = (n + 1, e) :: r →
    step s = .next { s with turn := 1 }) ∧
  (∀ (s : State), s.turn = 0 → s.agenda = [] →
    step s = andThen (runAll s.events { s with turn := 1 }) fun t => .next t.rungTimeouts) ∧
  (∀ (s : State), 257 ≤ s.turn →
    (s.agenda = [] → step s = andThen (runAll s.transferEvents s) fun t => .next t.endCycle) ∧
    (∀ (e : Instr) (r : List (Nat × Instr)), s.agenda = (0, e) :: r →
      step s = if isTransfer e then exec e { s with agenda := r } else .next s.endCycle) ∧
    (∀ (n : Nat) (e : Instr) (r : List (Nat × Instr)), s.agenda = (n + 1, e) :: r → step s = .next s.endCycle))

/-- Words written out from the encodings of R60 to R71 and of the opcode tables, with the instruction each stands for. -/
def Obligations.DecodeWords : Prop :=
  decodeTableWord 32 0x56385010 = some (.lds .b4 7 2 16) ∧
  decodeTableWord 32 0x542E0FFF = some (.movhi 5 3 0x0FFF) ∧
  decodeTableWord 32 0x8A100003 = some (.loop 2 0 3) ∧
  decodeTableWord 32 0xA0001000 = some (.setfmt 0x1000) ∧
  decodeTableWord 64 (0x800C4112 * 2 ^ 32) = some (.vcvt ⟨0, .one, false⟩ .rne .bf16 .f32 3 8) ∧
  decodeTableWord 64 (0xC0603802 * 2 ^ 32) = some (.vld ⟨0, .one, false⟩ .swz 24 3 2) ∧
  decodeTableWord 64 (0x64504093 * 2 ^ 32) = some (.vmadc ⟨0, .one, false⟩ 20 8 9 3) ∧
  decodeTableWord 64 (0x74000800 * 2 ^ 32) = some (.vmsetm ⟨0, .one, false⟩ 0 1) ∧
  decodeTableWord 64 (0x78001820 * 2 ^ 32) = some (.vbfly ⟨0, .one, false⟩ 0 3 0 2) ∧
  decodeTableWord 64 (0x7C300130 * 2 ^ 32) = some (.vpermb ⟨0, .one, false⟩ 12 0 19) ∧
  decodeTableWord 96 (0x06080000 * 2 ^ 64) = some (.mpush ⟨0, false⟩ 2 0 false false) ∧
  decodeTableWord 96 (0x06080020 * 2 ^ 64) = some (.mpush ⟨0, false⟩ 2 0 true false) ∧
  decodeTableWord 96 (0x0A100020 * 2 ^ 64) = some (.mdrain ⟨0, false⟩ .f32 false 4 0) ∧
  decodeTableWord 96 (0x04040800 * 2 ^ 64) = some (.mshift ⟨0, false⟩ 1 1) ∧
  decodeTableWord 96 (0x16180000 * 2 ^ 64) = some (.mstg ⟨0, false⟩ 6) ∧
  decodeTableWord 96 (0x18002800 * 2 ^ 64) = some (.mrot ⟨0, false⟩ 5) ∧
  decodeTableWord 96 (0x02080400 * 2 ^ 64) = some (.mcfg ⟨0, false⟩ 2 1) ∧
  decodeTableWord 128 (0x48518800 * 2 ^ 96) = some (.cpy 0 10 12 16) ∧
  decodeTableWord 128 (0x44020A03 * 2 ^ 96) = some (.strm 0 0 16 20 3 false) ∧
  decodeTableWord 128 (0x66A20C00 * 2 ^ 96) = some (.xred 0 false 20 16 24) ∧
  decodeTableWord 128 (0x42000000 * 2 ^ 96) = some (.vjoin 0) ∧
  decodeTableWord 128 (0xA0520A00 * 2 ^ 96) = some (.krot 0 10 16 20) ∧
  decodeTableWord 128 (0xA2386003 * 2 ^ 96) = some (.kqry 0 .gen 7 3) ∧
  decodeTableWord 128 (0xA4620B00 * 2 ^ 96) = some (.seal 0 12 16 22) ∧
  decodeTableWord 128 (0xA6620B00 * 2 ^ 96) = some (.unseal 0 12 16 22) ∧
  decodeTableWord 128 (0xA8488000 * 2 ^ 96) = some (.scrub 0 9 4) ∧
  decodeTableWord 128 (0xAA4A0000 * 2 ^ 96) = some (.meas 0 9 16) ∧
  decodeTableWord 128 (0x02203050 * 2 ^ 96) = some (.tld 0 .one 8 3 20) ∧
  decodeTableWord 128 (0x204882E1 * 2 ^ 96) = some (.atadd 0 .n64 9 4 5 1) ∧
  decodeTableWord 128 (0x40000013 * 2 ^ 96) = some (.fence 0 .package .rel) ∧
  decodeTableWord 128 (0x60210000 * 2 ^ 96) = some (.rst 0 .one 8 16) ∧
  (decodeBundle 0x022082E3).toOption = some [(0, .drainPoint), (0, .syncPost 3 1), (0, .add 4 4 5)]

/-- R60 to R71, R81: for every well-formed instruction that a bundle can hold, the bundle that `encode` writes decodes to it, with every
operand at every value that the encoding admits. -/
def Obligations.EncodeDecodeRoundTrip : Prop :=
  ∀ i : Instr, i.wf = true → i.encodes = true → decodeOne (encode i) = some i

/-- Every byte store keeps its canonical form in every step: the package's storage, the host's memory, the staging buffer, and the SPAD, SDM
and accumulators of every strand, on a core or saved. -/
def Obligations.MemoryInvariant : Prop :=
  ∀ s t : State, s.storesWf = true → step s = .next t → t.storesWf = true

/-- R400, R30, R334, R338: what device reset leaves. No partition, group, strand, launch, request, command or message exists, no store lists
a byte and every byte of memory reads 0 (this model's choice, log entry 2), the stores are in canonical form, every core counter reads 0
(log entry 1), Lantern's boot is in its first phase, and the package waits in the events part of a cycle. What the spec does not give there
(bytes of memory, the counters) is the choice of this model: log entries 1 and 2. -/
def Obligations.ResetState : Prop :=
  State.reset.storesWf = true ∧
  State.reset.parts = [] ∧ State.reset.groups = [] ∧ State.reset.strands = [] ∧ State.reset.launches = [] ∧
  State.reset.reqs = [] ∧ State.reset.cmds = [] ∧ State.reset.posts = [] ∧ State.reset.msgs = [] ∧ State.reset.faults = [] ∧
  State.reset.preqs = [] ∧ State.reset.keys = [] ∧ State.reset.pages = [] ∧ State.reset.leases = [] ∧ State.reset.gangs = [] ∧
  (∀ a, Mem.read State.reset.mem a = 0) ∧ (∀ c, State.reset.cyc c = 0) ∧ (∀ d, State.reset.lcycOf d = 0) ∧
  (∀ c, (State.reset.core c).divBusy = 0 ∧ (State.reset.core c).tie = false) ∧
  State.reset.mgmt.phase = 0 ∧ State.reset.turn = 0 ∧ State.reset.agenda = [] ∧
  (∀ r, Strand.idle.s r = 0) ∧ (∀ r, Strand.idle.v r = 0) ∧ (∀ r, Strand.idle.p r = if r = 0 then BitVec.allOnes 1024 else 0) ∧
  Strand.idle.fmt = 0x1099#13

/-- R5, R15, R83, R85: a scalar or predicate result of latency `lat` that a kernel bundle of strand bundle number n gives is seen from
bundle n + lat on and not before, whatever else is unchanged; a predicate result changes the bits of its mask alone; writes to s0 and p0 are
discarded, and these read as zero and as all ones in every state. -/
def Obligations.ResultVisibility : Prop :=
  (∀ (x : Strand) (lat m : Nat) (d : BitVec 6) (v : W64), x.iss.handler = false → x.pend = [] → d ≠ 0 →
    let y := (x.pushS lat d v).settle false m
    y.s d = (if m < x.iss.n + lat then x.s d else v) ∧ (∀ r, r ≠ d → y.s r = x.s r) ∧ y.vreg = x.vreg ∧ y.preg = x.preg ∧ y.fmt = x.fmt ∧
      y.pend.length = (if m < x.iss.n + lat then 1 else 0)) ∧
  (∀ (x : Strand) (lat m : Nat) (d : BitVec 4) (mask data : PReg) (j : Nat), x.iss.handler = false → x.pend = [] → d ≠ 0 →
    let y := (x.pushP lat d mask data).settle false m
    (y.p d.toNat).getLsbD j =
      (if x.iss.n + lat ≤ m ∧ mask.getLsbD j = true then data.getLsbD j else (x.p d.toNat).getLsbD j) ∧
    (∀ r, r ≠ d.toNat → y.p r = x.p r) ∧ y.sreg = x.sreg ∧ y.vreg = x.vreg) ∧
  (∀ (x : Strand) (w w' : Write), x.pend = [w, w'] → w.ready = true → w'.ready = true → w.vis ≤ w'.vis →
    x.settle false w'.vis = { (x.apply w.tgt).apply w'.tgt with pend := [] }) ∧
  (∀ (x : Strand) (lat : Nat) (v : W64) (mask data : PReg), x.pushS lat 0 v = x ∧ x.pushP lat 0 mask data = x ∧ x.s 0 = 0 ∧
    x.p 0 = BitVec.allOnes 1024)

/-- What no instruction of a bundle changes when it acts at issue: stores, keys, pages, partitions, launches, the clock, the agenda, the
other strands, the other cores. Slots and header actions only change their own strand, hand over requests, commands and posts, use the
divider of their core, and take counts of their group's flags. -/
def Obligations.IssueFrame : Prop :=
  ∀ (s t : State) (i : Instr), i.encodes = true → exec i s = .next t →
    { t with strands := s.strands, reqs := s.reqs, cmds := s.cmds, posts := s.posts, nextId := s.nextId, free := s.free, cores := s.cores,
             groups := s.groups } = s ∧
    (∀ a, Mem.read t.mem a = Mem.read s.mem a) ∧ (∀ a, Mem.read t.hostMem a = Mem.read s.hostMem a) ∧
    (∀ k, k ≠ s.cur → t.strand k = s.strand k) ∧
    (∀ c, c ≠ coreOf s.cur → t.core c = s.core c) ∧
    (∀ c, (t.core c).tie = (s.core c).tie ∧ (t.core c).skew = (s.core c).skew) ∧
    (∀ g, g ≠ s.me.gtag → t.grp g = s.grp g) ∧
    ((∀ f c, i ≠ .syncWait f c) → t.groups = s.groups) ∧
    (i.slot ≠ some 3 → t.cmds = s.cmds)

/-- R83: an instruction of a slot never changes a register file at issue. Every register of the strand but those named here keeps its value,
and each write that it lists goes to a destination of it or stands in the place of a write that was in flight. The loop stack and the stage
predicates change by LOOP, LOOPS and LBRK alone; the ring handles by RADVC, RADVP, STRM and STRMX (and WRSR, which with ERET has its own
statements), and the mark of a pointer that moved in this cycle (R20) by RADVC and RADVP; the SPAD by VST, VSTX and VSTR; the SDM by STS;
the matrix state and the accumulators by slot C; the operand latches by slot B; the open region by slot D (REGION and ENDREG act when their
bundle completes, R112); the streams by slot D; the maps by slot D and by the stores to the SPAD, which leave dirty pages; of its chunks at
most the mark that SCRUB released them. -/
def Obligations.RegisterFrame : Prop :=
  ∀ (s t : State) (i : Instr), i.encodes = true → i.wf = true → i ≠ .eret → (∀ n a, i ≠ .wrsr n a) → exec i s = .next t →
    let x := s.me
    let y := t.me
    { y with pend := x.pend, pendH := x.pendH, iss := x.iss, loops := x.loops, q := x.q, rings := x.rings, spad := x.spad, sdm := x.sdm,
             spadLog := x.spadLog, mat := x.mat, accOps := x.accOps, accBase := x.accBase, latK := x.latK, latH := x.latH,
             regOpen := x.regOpen, regStart := x.regStart, held := x.held, snap := x.snap, streams := x.streams, maps := x.maps,
             chunks := x.chunks, adv := x.adv } = x ∧
    (y.chunks.map fun (c : Chunk) => { c with released := false }) = (x.chunks.map fun (c : Chunk) => { c with released := false }) ∧
    (∀ w ∈ y.pend ++ y.pendH, w.tgt.madeBy i = true ∨ ∃ v ∈ x.pend ++ x.pendH, v.vis = w.vis ∧ v.tgt.same w.tgt = true) ∧
    (x.iss.handler = false → y.pendH.length = x.pendH.length) ∧ (x.iss.handler = true → y.pend.length = x.pend.length) ∧
    ((∀ c a l, i ≠ .loop c a l ∧ i ≠ .loops c a l) → (∀ a u, i ≠ .lbrk a u) → y.loops = x.loops ∧ y.q = x.q) ∧
    ((∀ h n a, i ≠ .radvcImm h n ∧ i ≠ .radvpImm h n ∧ i ≠ .radvcReg h a ∧ i ≠ .radvpReg h a) → y.adv = x.adv) ∧
    ((∀ h n a, i ≠ .radvcImm h n ∧ i ≠ .radvpImm h n ∧ i ≠ .radvcReg h a ∧ i ≠ .radvpReg h a) →
      (∀ q d a b h z, i ≠ .strm q d a b h z ∧ i ≠ .strmx q d h) → y.rings = x.rings) ∧
    ((∀ l u v a o, i ≠ .vst l u v a o) → (∀ l u z v a n, i ≠ .vstx l u z v a n) → (∀ l u v h o n, i ≠ .vstr l u v h o n) →
      y.spad = x.spad ∧ (i.slot ≠ some 3 → y.maps = x.maps)) ∧
    ((∀ z d a o, i ≠ .sts z d a o) → y.sdm = x.sdm) ∧
    (i.slot ≠ some 2 → y.mat = x.mat ∧ y.accOps = x.accOps ∧ y.accBase = x.accBase) ∧
    (i.slot ≠ some 1 → y.latK = x.latK ∧ y.latH = x.latH) ∧
    (i.slot ≠ some 3 → y.regOpen = x.regOpen ∧ y.regStart = x.regStart ∧ y.held = x.held ∧ y.snap = x.snap) ∧
    (i.slot ≠ some 3 → y.streams = x.streams)
end

