-- ==== Sys2Proof/Laws/Encoding.lean ====
section
/-! SUPPORT. The fields of every slot format read back from its encoding (R71, R73, R76, R78). -/

namespace Sys2Proof

theorem encAR_op (op : BitVec 7) (d a b : BitVec 6) : fld (encAR op d a b) 25 7 = op := by
  refine (BitVec.extractLsb'_append_eq_of_le (by decide)).trans ?_
  refine (BitVec.extractLsb'_append_eq_of_le (by decide)).trans ?_
  refine (BitVec.extractLsb'_append_eq_of_le (by decide)).trans ?_
  refine (BitVec.extractLsb'_append_eq_of_le (by decide)).trans ?_
  exact BitVec.extractLsb'_eq_self
theorem encAR_d (op : BitVec 7) (d a b : BitVec 6) : fld (encAR op d a b) 19 6 = d := by
  refine (BitVec.extractLsb'_append_eq_of_le (by decide)).trans ?_
  refine (BitVec.extractLsb'_append_eq_of_le (by decide)).trans ?_
  refine (BitVec.extractLsb'_append_eq_of_le (by decide)).trans ?_
  exact BitVec.extractLsb'_append_eq_right
theorem encAR_a (op : BitVec 7) (d a b : BitVec 6) : fld (encAR op d a b) 13 6 = a := by
  refine (BitVec.extractLsb'_append_eq_of_le (by decide)).trans ?_
  refine (BitVec.extractLsb'_append_eq_of_le (by decide)).trans ?_
  exact BitVec.extractLsb'_append_eq_right
theorem encAR_b (op : BitVec 7) (d a b : BitVec 6) : fld (encAR op d a b) 7 6 = b := by
  refine (BitVec.extractLsb'_append_eq_of_le (by decide)).trans ?_
  exact BitVec.extractLsb'_append_eq_right

theorem encAS_op (op : BitVec 7) (d a b : BitVec 6) (x : BitVec 4) : fld (encAS op d a b x) 25 7 = op := by
  refine (BitVec.extractLsb'_append_eq_of_le (by decide)).trans ?_
  refine (BitVec.extractLsb'_append_eq_of_le (by decide)).trans ?_
  refine (BitVec.extractLsb'_append_eq_of_le (by decide)).trans ?_
  refine (BitVec.extractLsb'_append_eq_of_le (by decide)).trans ?_
  refine (BitVec.extractLsb'_append_eq_of_le (by decide)).trans ?_
  exact BitVec.extractLsb'_eq_self
theorem encAS_d (op : BitVec 7) (d a b : BitVec 6) (x : BitVec 4) : fld (encAS op d a b x) 19 6 = d := by
  refine (BitVec.extractLsb'_append_eq_of_le (by decide)).trans ?_
  refine (BitVec.extractLsb'_append_eq_of_le (by decide)).trans ?_
  refine (BitVec.extractLsb'_append_eq_of_le (by decide)).trans ?_
  refine (BitVec.extractLsb'_append_eq_of_le (by decide)).trans ?_
  exact BitVec.extractLsb'_append_eq_right
theorem encAS_a (op : BitVec 7) (d a b : BitVec 6) (x : BitVec 4) : fld (encAS op d a b x) 13 6 = a := by
  refine (BitVec.extractLsb'_append_eq_of_le (by decide)).trans ?_
  refine (BitVec.extractLsb'_append_eq_of_le (by decide)).trans ?_
  refine (BitVec.extractLsb'_append_eq_of_le (by decide)).trans ?_
  exact BitVec.extractLsb'_append_eq_right
theorem encAS_b (op : BitVec 7) (d a b : BitVec 6) (x : BitVec 4) : fld (encAS op d a b x) 7 6 = b := by
  refine (BitVec.extractLsb'_append_eq_of_le (by decide)).trans ?_
  refine (BitVec.extractLsb'_append_eq_of_le (by decide)).trans ?_
  exact BitVec.extractLsb'_append_eq_right
theorem encAS_x (op : BitVec 7) (d a b : BitVec 6) (x : BitVec 4) : fld (encAS op d a b x) 3 4 = x := by
  refine (BitVec.extractLsb'_append_eq_of_le (by decide)).trans ?_
  exact BitVec.extractLsb'_append_eq_right

theorem encAI_op (op : BitVec 7) (d a : BitVec 6) (imm : BitVec 13) : fld (encAI op d a imm) 25 7 = op := by
  refine (BitVec.extractLsb'_append_eq_of_le (by decide)).trans ?_
  refine (BitVec.extractLsb'_append_eq_of_le (by decide)).trans ?_
  refine (BitVec.extractLsb'_append_eq_of_le (by decide)).trans ?_
  exact BitVec.extractLsb'_eq_self
theorem encAI_d (op : BitVec 7) (d a : BitVec 6) (imm : BitVec 13) : fld (encAI op d a imm) 19 6 = d := by
  refine (BitVec.extractLsb'_append_eq_of_le (by decide)).trans ?_
  refine (BitVec.extractLsb'_append_eq_of_le (by decide)).trans ?_
  exact BitVec.extractLsb'_append_eq_right
theorem encAI_a (op : BitVec 7) (d a : BitVec 6) (imm : BitVec 13) : fld (encAI op d a imm) 13 6 = a := by
  refine (BitVec.extractLsb'_append_eq_of_le (by decide)).trans ?_
  exact BitVec.extractLsb'_append_eq_right
theorem encAI_imm (op : BitVec 7) (d a : BitVec 6) (imm : BitVec 13) : fld (encAI op d a imm) 0 13 = imm := by
  exact BitVec.extractLsb'_append_eq_right

theorem encAB_op (op : BitVec 7) (d : BitVec 6) (imm : BitVec 19) : fld (encAB op d imm) 25 7 = op := by
  refine (BitVec.extractLsb'_append_eq_of_le (by decide)).trans ?_
  refine (BitVec.extractLsb'_append_eq_of_le (by decide)).trans ?_
  exact BitVec.extractLsb'_eq_self
theorem encAB_d (op : BitVec 7) (d : BitVec 6) (imm : BitVec 19) : fld (encAB op d imm) 19 6 = d := by
  refine (BitVec.extractLsb'_append_eq_of_le (by decide)).trans ?_
  exact BitVec.extractLsb'_append_eq_right
theorem encAB_imm (op : BitVec 7) (d : BitVec 6) (imm : BitVec 19) : fld (encAB op d imm) 0 19 = imm := by
  exact BitVec.extractLsb'_append_eq_right

theorem encAP_op (op : BitVec 7) (d a b : BitVec 4) : fld (encAP op d a b) 25 7 = op := by
  refine (BitVec.extractLsb'_append_eq_of_le (by decide)).trans ?_
  refine (BitVec.extractLsb'_append_eq_of_le (by decide)).trans ?_
  refine (BitVec.extractLsb'_append_eq_of_le (by decide)).trans ?_
  refine (BitVec.extractLsb'_append_eq_of_le (by decide)).trans ?_
  exact BitVec.extractLsb'_eq_self
theorem encAP_d (op : BitVec 7) (d a b : BitVec 4) : fld (encAP op d a b) 21 4 = d := by
  refine (BitVec.extractLsb'_append_eq_of_le (by decide)).trans ?_
  refine (BitVec.extractLsb'_append_eq_of_le (by decide)).trans ?_
  refine (BitVec.extractLsb'_append_eq_of_le (by decide)).trans ?_
  exact BitVec.extractLsb'_append_eq_right
theorem encAP_a (op : BitVec 7) (d a b : BitVec 4) : fld (encAP op d a b) 17 4 = a := by
  refine (BitVec.extractLsb'_append_eq_of_le (by decide)).trans ?_
  refine (BitVec.extractLsb'_append_eq_of_le (by decide)).trans ?_
  exact BitVec.extractLsb'_append_eq_right
theorem encAP_b (op : BitVec 7) (d a b : BitVec 4) : fld (encAP op d a b) 13 4 = b := by
  refine (BitVec.extractLsb'_append_eq_of_le (by decide)).trans ?_
  exact BitVec.extractLsb'_append_eq_right

theorem encVR_op (op d a b : BitVec 7) (t : BitVec 4) : fld (encVR op d a b t) 25 7 = op := by
  refine (BitVec.extractLsb'_append_eq_of_le (by decide)).trans ?_
  refine (BitVec.extractLsb'_append_eq_of_le (by decide)).trans ?_
  refine (BitVec.extractLsb'_append_eq_of_le (by decide)).trans ?_
  refine (BitVec.extractLsb'_append_eq_of_le (by decide)).trans ?_
  exact BitVec.extractLsb'_eq_self
theorem encVR_d (op d a b : BitVec 7) (t : BitVec 4) : fld (encVR op d a b t) 18 7 = d := by
  refine (BitVec.extractLsb'_append_eq_of_le (by decide)).trans ?_
  refine (BitVec.extractLsb'_append_eq_of_le (by decide)).trans ?_
  refine (BitVec.extractLsb'_append_eq_of_le (by decide)).trans ?_
  exact BitVec.extractLsb'_append_eq_right
theorem encVR_a (op d a b : BitVec 7) (t : BitVec 4) : fld (encVR op d a b t) 11 7 = a := by
  refine (BitVec.extractLsb'_append_eq_of_le (by decide)).trans ?_
  refine (BitVec.extractLsb'_append_eq_of_le (by decide)).trans ?_
  exact BitVec.extractLsb'_append_eq_right
theorem encVR_b (op d a b : BitVec 7) (t : BitVec 4) : fld (encVR op d a b t) 4 7 = b := by
  refine (BitVec.extractLsb'_append_eq_of_le (by decide)).trans ?_
  exact BitVec.extractLsb'_append_eq_right
theorem encVR_t (op d a b : BitVec 7) (t : BitVec 4) : fld (encVR op d a b t) 0 4 = t := by
  exact BitVec.extractLsb'_append_eq_right

theorem encVU_op (op d a : BitVec 7) (r : BitVec 3) (t2 t : BitVec 4) : fld (encVU op d a r t2 t) 25 7 = op := by
  refine (BitVec.extractLsb'_append_eq_of_le (by decide)).trans ?_
  refine (BitVec.extractLsb'_append_eq_of_le (by decide)).trans ?_
  refine (BitVec.extractLsb'_append_eq_of_le (by decide)).trans ?_
  refine (BitVec.extractLsb'_append_eq_of_le (by decide)).trans ?_
  refine (BitVec.extractLsb'_append_eq_of_le (by decide)).trans ?_
  exact BitVec.extractLsb'_eq_self
theorem encVU_d (op d a : BitVec 7) (r : BitVec 3) (t2 t : BitVec 4) : fld (encVU op d a r t2 t) 18 7 = d := by
  refine (BitVec.extractLsb'_append_eq_of_le (by decide)).trans ?_
  refine (BitVec.extractLsb'_append_eq_of_le (by decide)).trans ?_
  refine (BitVec.extractLsb'_append_eq_of_le (by decide)).trans ?_
  refine (BitVec.extractLsb'_append_eq_of_le (by decide)).trans ?_
  exact BitVec.extractLsb'_append_eq_right
theorem encVU_a (op d a : BitVec 7) (r : BitVec 3) (t2 t : BitVec 4) : fld (encVU op d a r t2 t) 11 7 = a := by
  refine (BitVec.extractLsb'_append_eq_of_le (by decide)).trans ?_
  refine (BitVec.extractLsb'_append_eq_of_le (by decide)).trans ?_
  refine (BitVec.extractLsb'_append_eq_of_le (by decide)).trans ?_
  exact BitVec.extractLsb'_append_eq_right
theorem encVU_r (op d a : BitVec 7) (r : BitVec 3) (t2 t : BitVec 4) : fld (encVU op d a r t2 t) 8 3 = r := by
  refine (BitVec.extractLsb'_append_eq_of_le (by decide)).trans ?_
  refine (BitVec.extractLsb'_append_eq_of_le (by decide)).trans ?_
  exact BitVec.extractLsb'_append_eq_right
theorem encVU_t2 (op d a : BitVec 7) (r : BitVec 3) (t2 t : BitVec 4) : fld (encVU op d a r t2 t) 4 4 = t2 := by
  refine (BitVec.extractLsb'_append_eq_of_le (by decide)).trans ?_
  exact BitVec.extractLsb'_append_eq_right
theorem encVU_t (op d a : BitVec 7) (r : BitVec 3) (t2 t : BitVec 4) : fld (encVU op d a r t2 t) 0 4 = t := by
  exact BitVec.extractLsb'_append_eq_right

theorem encVP_op (op : BitVec 7) (p : BitVec 4) (c : BitVec 3) (a b : BitVec 7) (t : BitVec 4) : fld (encVP op p c a b t) 25 7 = op := by
  refine (BitVec.extractLsb'_append_eq_of_le (by decide)).trans ?_
  refine (BitVec.extractLsb'_append_eq_of_le (by decide)).trans ?_
  refine (BitVec.extractLsb'_append_eq_of_le (by decide)).trans ?_
  refine (BitVec.extractLsb'_append_eq_of_le (by decide)).trans ?_
  refine (BitVec.extractLsb'_append_eq_of_le (by decide)).trans ?_
  exact BitVec.extractLsb'_eq_self
theorem encVP_p (op : BitVec 7) (p : BitVec 4) (c : BitVec 3) (a b : BitVec 7) (t : BitVec 4) : fld (encVP op p c a b t) 21 4 = p := by
  refine (BitVec.extractLsb'_append_eq_of_le (by decide)).trans ?_
  refine (BitVec.extractLsb'_append_eq_of_le (by decide)).trans ?_
  refine (BitVec.extractLsb'_append_eq_of_le (by decide)).trans ?_
  refine (BitVec.extractLsb'_append_eq_of_le (by decide)).trans ?_
  exact BitVec.extractLsb'_append_eq_right
theorem encVP_c (op : BitVec 7) (p : BitVec 4) (c : BitVec 3) (a b : BitVec 7) (t : BitVec 4) : fld (encVP op p c a b t) 18 3 = c := by
  refine (BitVec.extractLsb'_append_eq_of_le (by decide)).trans ?_
  refine (BitVec.extractLsb'_append_eq_of_le (by decide)).trans ?_
  refine (BitVec.extractLsb'_append_eq_of_le (by decide)).trans ?_
  exact BitVec.extractLsb'_append_eq_right
theorem encVP_a (op : BitVec 7) (p : BitVec 4) (c : BitVec 3) (a b : BitVec 7) (t : BitVec 4) : fld (encVP op p c a b t) 11 7 = a := by
  refine (BitVec.extractLsb'_append_eq_of_le (by decide)).trans ?_
  refine (BitVec.extractLsb'_append_eq_of_le (by decide)).trans ?_
  exact BitVec.extractLsb'_append_eq_right
theorem encVP_b (op : BitVec 7) (p : BitVec 4) (c : BitVec 3) (a b : BitVec 7) (t : BitVec 4) : fld (encVP op p c a b t) 4 7 = b := by
  refine (BitVec.extractLsb'_append_eq_of_le (by decide)).trans ?_
  exact BitVec.extractLsb'_append_eq_right
theorem encVP_t (op : BitVec 7) (p : BitVec 4) (c : BitVec 3) (a b : BitVec 7) (t : BitVec 4) : fld (encVP op p c a b t) 0 4 = t := by
  exact BitVec.extractLsb'_append_eq_right

theorem encVMD_op (op d a b : BitVec 7) (n : BitVec 2) : fld (encVMD op d a b n) 25 7 = op := by
  refine (BitVec.extractLsb'_append_eq_of_le (by decide)).trans ?_
  refine (BitVec.extractLsb'_append_eq_of_le (by decide)).trans ?_
  refine (BitVec.extractLsb'_append_eq_of_le (by decide)).trans ?_
  refine (BitVec.extractLsb'_append_eq_of_le (by decide)).trans ?_
  refine (BitVec.extractLsb'_append_eq_of_le (by decide)).trans ?_
  exact BitVec.extractLsb'_eq_self
theorem encVMD_d (op d a b : BitVec 7) (n : BitVec 2) : fld (encVMD op d a b n) 18 7 = d := by
  refine (BitVec.extractLsb'_append_eq_of_le (by decide)).trans ?_
  refine (BitVec.extractLsb'_append_eq_of_le (by decide)).trans ?_
  refine (BitVec.extractLsb'_append_eq_of_le (by decide)).trans ?_
  refine (BitVec.extractLsb'_append_eq_of_le (by decide)).trans ?_
  exact BitVec.extractLsb'_append_eq_right
theorem encVMD_a (op d a b : BitVec 7) (n : BitVec 2) : fld (encVMD op d a b n) 11 7 = a := by
  refine (BitVec.extractLsb'_append_eq_of_le (by decide)).trans ?_
  refine (BitVec.extractLsb'_append_eq_of_le (by decide)).trans ?_
  refine (BitVec.extractLsb'_append_eq_of_le (by decide)).trans ?_
  exact BitVec.extractLsb'_append_eq_right
theorem encVMD_b (op d a b : BitVec 7) (n : BitVec 2) : fld (encVMD op d a b n) 4 7 = b := by
  refine (BitVec.extractLsb'_append_eq_of_le (by decide)).trans ?_
  refine (BitVec.extractLsb'_append_eq_of_le (by decide)).trans ?_
  exact BitVec.extractLsb'_append_eq_right
theorem encVMD_n (op d a b : BitVec 7) (n : BitVec 2) : fld (encVMD op d a b n) 2 2 = n := by
  refine (BitVec.extractLsb'_append_eq_of_le (by decide)).trans ?_
  exact BitVec.extractLsb'_append_eq_right

theorem encVB_op (op d b : BitVec 7) (n : BitVec 2) (c : BitVec 5) : fld (encVB op d b n c) 25 7 = op := by
  refine (BitVec.extractLsb'_append_eq_of_le (by decide)).trans ?_
  refine (BitVec.extractLsb'_append_eq_of_le (by decide)).trans ?_
  refine (BitVec.extractLsb'_append_eq_of_le (by decide)).trans ?_
  refine (BitVec.extractLsb'_append_eq_of_le (by decide)).trans ?_
  refine (BitVec.extractLsb'_append_eq_of_le (by decide)).trans ?_
  exact BitVec.extractLsb'_eq_self
theorem encVB_d (op d b : BitVec 7) (n : BitVec 2) (c : BitVec 5) : fld (encVB op d b n c) 18 7 = d := by
  refine (BitVec.extractLsb'_append_eq_of_le (by decide)).trans ?_
  refine (BitVec.extractLsb'_append_eq_of_le (by decide)).trans ?_
  refine (BitVec.extractLsb'_append_eq_of_le (by decide)).trans ?_
  refine (BitVec.extractLsb'_append_eq_of_le (by decide)).trans ?_
  exact BitVec.extractLsb'_append_eq_right
theorem encVB_b (op d b : BitVec 7) (n : BitVec 2) (c : BitVec 5) : fld (encVB op d b n c) 11 7 = b := by
  refine (BitVec.extractLsb'_append_eq_of_le (by decide)).trans ?_
  refine (BitVec.extractLsb'_append_eq_of_le (by decide)).trans ?_
  refine (BitVec.extractLsb'_append_eq_of_le (by decide)).trans ?_
  exact BitVec.extractLsb'_append_eq_right
theorem encVB_n (op d b : BitVec 7) (n : BitVec 2) (c : BitVec 5) : fld (encVB op d b n c) 9 2 = n := by
  refine (BitVec.extractLsb'_append_eq_of_le (by decide)).trans ?_
  refine (BitVec.extractLsb'_append_eq_of_le (by decide)).trans ?_
  exact BitVec.extractLsb'_append_eq_right
theorem encVB_c (op d b : BitVec 7) (n : BitVec 2) (c : BitVec 5) : fld (encVB op d b n c) 4 5 = c := by
  refine (BitVec.extractLsb'_append_eq_of_le (by decide)).trans ?_
  exact BitVec.extractLsb'_append_eq_right

theorem encVS_op (op v : BitVec 7) (a b : BitVec 6) (t : BitVec 4) : fld (encVS op v a b t) 25 7 = op := by
  refine (BitVec.extractLsb'_append_eq_of_le (by decide)).trans ?_
  refine (BitVec.extractLsb'_append_eq_of_le (by decide)).trans ?_
  refine (BitVec.extractLsb'_append_eq_of_le (by decide)).trans ?_
  refine (BitVec.extractLsb'_append_eq_of_le (by decide)).trans ?_
  refine (BitVec.extractLsb'_append_eq_of_le (by decide)).trans ?_
  exact BitVec.extractLsb'_eq_self
theorem encVS_v (op v : BitVec 7) (a b : BitVec 6) (t : BitVec 4) : fld (encVS op v a b t) 18 7 = v := by
  refine (BitVec.extractLsb'_append_eq_of_le (by decide)).trans ?_
  refine (BitVec.extractLsb'_append_eq_of_le (by decide)).trans ?_
  refine (BitVec.extractLsb'_append_eq_of_le (by decide)).trans ?_
  refine (BitVec.extractLsb'_append_eq_of_le (by decide)).trans ?_
  exact BitVec.extractLsb'_append_eq_right
theorem encVS_a (op v : BitVec 7) (a b : BitVec 6) (t : BitVec 4) : fld (encVS op v a b t) 12 6 = a := by
  refine (BitVec.extractLsb'_append_eq_of_le (by decide)).trans ?_
  refine (BitVec.extractLsb'_append_eq_of_le (by decide)).trans ?_
  refine (BitVec.extractLsb'_append_eq_of_le (by decide)).trans ?_
  exact BitVec.extractLsb'_append_eq_right
theorem encVS_b (op v : BitVec 7) (a b : BitVec 6) (t : BitVec 4) : fld (encVS op v a b t) 6 6 = b := by
  refine (BitVec.extractLsb'_append_eq_of_le (by decide)).trans ?_
  refine (BitVec.extractLsb'_append_eq_of_le (by decide)).trans ?_
  exact BitVec.extractLsb'_append_eq_right
theorem encVS_t (op v : BitVec 7) (a b : BitVec 6) (t : BitVec 4) : fld (encVS op v a b t) 0 4 = t := by
  exact BitVec.extractLsb'_append_eq_right

theorem encVT_op (op d a : BitVec 7) (b : BitVec 6) (n : BitVec 1) (t : BitVec 4) : fld (encVT op d a b n t) 25 7 = op := by
  refine (BitVec.extractLsb'_append_eq_of_le (by decide)).trans ?_
  refine (BitVec.extractLsb'_append_eq_of_le (by decide)).trans ?_
  refine (BitVec.extractLsb'_append_eq_of_le (by decide)).trans ?_
  refine (BitVec.extractLsb'_append_eq_of_le (by decide)).trans ?_
  refine (BitVec.extractLsb'_append_eq_of_le (by decide)).trans ?_
  exact BitVec.extractLsb'_eq_self
theorem encVT_d (op d a : BitVec 7) (b : BitVec 6) (n : BitVec 1) (t : BitVec 4) : fld (encVT op d a b n t) 18 7 = d := by
  refine (BitVec.extractLsb'_append_eq_of_le (by decide)).trans ?_
  refine (BitVec.extractLsb'_append_eq_of_le (by decide)).trans ?_
  refine (BitVec.extractLsb'_append_eq_of_le (by decide)).trans ?_
  refine (BitVec.extractLsb'_append_eq_of_le (by decide)).trans ?_
  exact BitVec.extractLsb'_append_eq_right
theorem encVT_a (op d a : BitVec 7) (b : BitVec 6) (n : BitVec 1) (t : BitVec 4) : fld (encVT op d a b n t) 11 7 = a := by
  refine (BitVec.extractLsb'_append_eq_of_le (by decide)).trans ?_
  refine (BitVec.extractLsb'_append_eq_of_le (by decide)).trans ?_
  refine (BitVec.extractLsb'_append_eq_of_le (by decide)).trans ?_
  exact BitVec.extractLsb'_append_eq_right
theorem encVT_b (op d a : BitVec 7) (b : BitVec 6) (n : BitVec 1) (t : BitVec 4) : fld (encVT op d a b n t) 5 6 = b := by
  refine (BitVec.extractLsb'_append_eq_of_le (by decide)).trans ?_
  refine (BitVec.extractLsb'_append_eq_of_le (by decide)).trans ?_
  exact BitVec.extractLsb'_append_eq_right
theorem encVT_n (op d a : BitVec 7) (b : BitVec 6) (n : BitVec 1) (t : BitVec 4) : fld (encVT op d a b n t) 4 1 = n := by
  refine (BitVec.extractLsb'_append_eq_of_le (by decide)).trans ?_
  exact BitVec.extractLsb'_append_eq_right
theorem encVT_t (op d a : BitVec 7) (b : BitVec 6) (n : BitVec 1) (t : BitVec 4) : fld (encVT op d a b n t) 0 4 = t := by
  exact BitVec.extractLsb'_append_eq_right

theorem encVM_op (op v : BitVec 7) (a : BitVec 6) (u : BitVec 1) (o : BitVec 11) : fld (encVM op v a u o) 25 7 = op := by
  refine (BitVec.extractLsb'_append_eq_of_le (by decide)).trans ?_
  refine (BitVec.extractLsb'_append_eq_of_le (by decide)).trans ?_
  refine (BitVec.extractLsb'_append_eq_of_le (by decide)).trans ?_
  refine (BitVec.extractLsb'_append_eq_of_le (by decide)).trans ?_
  exact BitVec.extractLsb'_eq_self
theorem encVM_v (op v : BitVec 7) (a : BitVec 6) (u : BitVec 1) (o : BitVec 11) : fld (encVM op v a u o) 18 7 = v := by
  refine (BitVec.extractLsb'_append_eq_of_le (by decide)).trans ?_
  refine (BitVec.extractLsb'_append_eq_of_le (by decide)).trans ?_
  refine (BitVec.extractLsb'_append_eq_of_le (by decide)).trans ?_
  exact BitVec.extractLsb'_append_eq_right
theorem encVM_a (op v : BitVec 7) (a : BitVec 6) (u : BitVec 1) (o : BitVec 11) : fld (encVM op v a u o) 12 6 = a := by
  refine (BitVec.extractLsb'_append_eq_of_le (by decide)).trans ?_
  refine (BitVec.extractLsb'_append_eq_of_le (by decide)).trans ?_
  exact BitVec.extractLsb'_append_eq_right
theorem encVM_u (op v : BitVec 7) (a : BitVec 6) (u : BitVec 1) (o : BitVec 11) : fld (encVM op v a u o) 11 1 = u := by
  refine (BitVec.extractLsb'_append_eq_of_le (by decide)).trans ?_
  exact BitVec.extractLsb'_append_eq_right
theorem encVM_o (op v : BitVec 7) (a : BitVec 6) (u : BitVec 1) (o : BitVec 11) : fld (encVM op v a u o) 0 11 = o := by
  exact BitVec.extractLsb'_append_eq_right

theorem encVXM_op (op v : BitVec 7) (a : BitVec 6) (u : BitVec 1) (i : BitVec 7) (t : BitVec 4) : fld (encVXM op v a u i t) 25 7 = op := by
  refine (BitVec.extractLsb'_append_eq_of_le (by decide)).trans ?_
  refine (BitVec.extractLsb'_append_eq_of_le (by decide)).trans ?_
  refine (BitVec.extractLsb'_append_eq_of_le (by decide)).trans ?_
  refine (BitVec.extractLsb'_append_eq_of_le (by decide)).trans ?_
  refine (BitVec.extractLsb'_append_eq_of_le (by decide)).trans ?_
  exact BitVec.extractLsb'_eq_self
theorem encVXM_v (op v : BitVec 7) (a : BitVec 6) (u : BitVec 1) (i : BitVec 7) (t : BitVec 4) : fld (encVXM op v a u i t) 18 7 = v := by
  refine (BitVec.extractLsb'_append_eq_of_le (by decide)).trans ?_
  refine (BitVec.extractLsb'_append_eq_of_le (by decide)).trans ?_
  refine (BitVec.extractLsb'_append_eq_of_le (by decide)).trans ?_
  refine (BitVec.extractLsb'_append_eq_of_le (by decide)).trans ?_
  exact BitVec.extractLsb'_append_eq_right
theorem encVXM_a (op v : BitVec 7) (a : BitVec 6) (u : BitVec 1) (i : BitVec 7) (t : BitVec 4) : fld (encVXM op v a u i t) 12 6 = a := by
  refine (BitVec.extractLsb'_append_eq_of_le (by decide)).trans ?_
  refine (BitVec.extractLsb'_append_eq_of_le (by decide)).trans ?_
  refine (BitVec.extractLsb'_append_eq_of_le (by decide)).trans ?_
  exact BitVec.extractLsb'_append_eq_right
theorem encVXM_u (op v : BitVec 7) (a : BitVec 6) (u : BitVec 1) (i : BitVec 7) (t : BitVec 4) : fld (encVXM op v a u i t) 11 1 = u := by
  refine (BitVec.extractLsb'_append_eq_of_le (by decide)).trans ?_
  refine (BitVec.extractLsb'_append_eq_of_le (by decide)).trans ?_
  exact BitVec.extractLsb'_append_eq_right
theorem encVXM_i (op v : BitVec 7) (a : BitVec 6) (u : BitVec 1) (i : BitVec 7) (t : BitVec 4) : fld (encVXM op v a u i t) 4 7 = i := by
  refine (BitVec.extractLsb'_append_eq_of_le (by decide)).trans ?_
  exact BitVec.extractLsb'_append_eq_right
theorem encVXM_t (op v : BitVec 7) (a : BitVec 6) (u : BitVec 1) (i : BitVec 7) (t : BitVec 4) : fld (encVXM op v a u i t) 0 4 = t := by
  exact BitVec.extractLsb'_append_eq_right

theorem encVRG_op (op v : BitVec 7) (h : BitVec 4) (u : BitVec 1) (o : BitVec 8) (n : BitVec 5) : fld (encVRG op v h u o n) 25 7 = op := by
  refine (BitVec.extractLsb'_append_eq_of_le (by decide)).trans ?_
  refine (BitVec.extractLsb'_append_eq_of_le (by decide)).trans ?_
  refine (BitVec.extractLsb'_append_eq_of_le (by decide)).trans ?_
  refine (BitVec.extractLsb'_append_eq_of_le (by decide)).trans ?_
  refine (BitVec.extractLsb'_append_eq_of_le (by decide)).trans ?_
  exact BitVec.extractLsb'_eq_self
theorem encVRG_v (op v : BitVec 7) (h : BitVec 4) (u : BitVec 1) (o : BitVec 8) (n : BitVec 5) : fld (encVRG op v h u o n) 18 7 = v := by
  refine (BitVec.extractLsb'_append_eq_of_le (by decide)).trans ?_
  refine (BitVec.extractLsb'_append_eq_of_le (by decide)).trans ?_
  refine (BitVec.extractLsb'_append_eq_of_le (by decide)).trans ?_
  refine (BitVec.extractLsb'_append_eq_of_le (by decide)).trans ?_
  exact BitVec.extractLsb'_append_eq_right
theorem encVRG_h (op v : BitVec 7) (h : BitVec 4) (u : BitVec 1) (o : BitVec 8) (n : BitVec 5) : fld (encVRG op v h u o n) 14 4 = h := by
  refine (BitVec.extractLsb'_append_eq_of_le (by decide)).trans ?_
  refine (BitVec.extractLsb'_append_eq_of_le (by decide)).trans ?_
  refine (BitVec.extractLsb'_append_eq_of_le (by decide)).trans ?_
  exact BitVec.extractLsb'_append_eq_right
theorem encVRG_u (op v : BitVec 7) (h : BitVec 4) (u : BitVec 1) (o : BitVec 8) (n : BitVec 5) : fld (encVRG op v h u o n) 13 1 = u := by
  refine (BitVec.extractLsb'_append_eq_of_le (by decide)).trans ?_
  refine (BitVec.extractLsb'_append_eq_of_le (by decide)).trans ?_
  exact BitVec.extractLsb'_append_eq_right
theorem encVRG_o (op v : BitVec 7) (h : BitVec 4) (u : BitVec 1) (o : BitVec 8) (n : BitVec 5) : fld (encVRG op v h u o n) 5 8 = o := by
  refine (BitVec.extractLsb'_append_eq_of_le (by decide)).trans ?_
  exact BitVec.extractLsb'_append_eq_right
theorem encVRG_n (op v : BitVec 7) (h : BitVec 4) (u : BitVec 1) (o : BitVec 8) (n : BitVec 5) : fld (encVRG op v h u o n) 0 5 = n := by
  exact BitVec.extractLsb'_append_eq_right

theorem encCA_op (op v : BitVec 7) (r : BitVec 9) (x : BitVec 4) (z : BitVec 1) : fld (encCA op v r x z) 25 7 = op := by
  refine (BitVec.extractLsb'_append_eq_of_le (by decide)).trans ?_
  refine (BitVec.extractLsb'_append_eq_of_le (by decide)).trans ?_
  refine (BitVec.extractLsb'_append_eq_of_le (by decide)).trans ?_
  refine (BitVec.extractLsb'_append_eq_of_le (by decide)).trans ?_
  refine (BitVec.extractLsb'_append_eq_of_le (by decide)).trans ?_
  exact BitVec.extractLsb'_eq_self
theorem encCA_v (op v : BitVec 7) (r : BitVec 9) (x : BitVec 4) (z : BitVec 1) : fld (encCA op v r x z) 18 7 = v := by
  refine (BitVec.extractLsb'_append_eq_of_le (by decide)).trans ?_
  refine (BitVec.extractLsb'_append_eq_of_le (by decide)).trans ?_
  refine (BitVec.extractLsb'_append_eq_of_le (by decide)).trans ?_
  refine (BitVec.extractLsb'_append_eq_of_le (by decide)).trans ?_
  exact BitVec.extractLsb'_append_eq_right
theorem encCA_r (op v : BitVec 7) (r : BitVec 9) (x : BitVec 4) (z : BitVec 1) : fld (encCA op v r x z) 9 9 = r := by
  refine (BitVec.extractLsb'_append_eq_of_le (by decide)).trans ?_
  refine (BitVec.extractLsb'_append_eq_of_le (by decide)).trans ?_
  refine (BitVec.extractLsb'_append_eq_of_le (by decide)).trans ?_
  exact BitVec.extractLsb'_append_eq_right
theorem encCA_x (op v : BitVec 7) (r : BitVec 9) (x : BitVec 4) (z : BitVec 1) : fld (encCA op v r x z) 5 4 = x := by
  refine (BitVec.extractLsb'_append_eq_of_le (by decide)).trans ?_
  refine (BitVec.extractLsb'_append_eq_of_le (by decide)).trans ?_
  exact BitVec.extractLsb'_append_eq_right
theorem encCA_z (op v : BitVec 7) (r : BitVec 9) (x : BitVec 4) (z : BitVec 1) : fld (encCA op v r x z) 4 1 = z := by
  refine (BitVec.extractLsb'_append_eq_of_le (by decide)).trans ?_
  exact BitVec.extractLsb'_append_eq_right

theorem encCB_op (op v n : BitVec 7) : fld (encCB op v n) 25 7 = op := by
  refine (BitVec.extractLsb'_append_eq_of_le (by decide)).trans ?_
  refine (BitVec.extractLsb'_append_eq_of_le (by decide)).trans ?_
  refine (BitVec.extractLsb'_append_eq_of_le (by decide)).trans ?_
  exact BitVec.extractLsb'_eq_self
theorem encCB_v (op v n : BitVec 7) : fld (encCB op v n) 18 7 = v := by
  refine (BitVec.extractLsb'_append_eq_of_le (by decide)).trans ?_
  refine (BitVec.extractLsb'_append_eq_of_le (by decide)).trans ?_
  exact BitVec.extractLsb'_append_eq_right
theorem encCB_n (op v n : BitVec 7) : fld (encCB op v n) 11 7 = n := by
  refine (BitVec.extractLsb'_append_eq_of_le (by decide)).trans ?_
  exact BitVec.extractLsb'_append_eq_right

theorem encCG_op (op v : BitVec 7) (a : BitVec 6) (u : BitVec 1) : fld (encCG op v a u) 25 7 = op := by
  refine (BitVec.extractLsb'_append_eq_of_le (by decide)).trans ?_
  refine (BitVec.extractLsb'_append_eq_of_le (by decide)).trans ?_
  refine (BitVec.extractLsb'_append_eq_of_le (by decide)).trans ?_
  refine (BitVec.extractLsb'_append_eq_of_le (by decide)).trans ?_
  exact BitVec.extractLsb'_eq_self
theorem encCG_v (op v : BitVec 7) (a : BitVec 6) (u : BitVec 1) : fld (encCG op v a u) 18 7 = v := by
  refine (BitVec.extractLsb'_append_eq_of_le (by decide)).trans ?_
  refine (BitVec.extractLsb'_append_eq_of_le (by decide)).trans ?_
  refine (BitVec.extractLsb'_append_eq_of_le (by decide)).trans ?_
  exact BitVec.extractLsb'_append_eq_right
theorem encCG_a (op v : BitVec 7) (a : BitVec 6) (u : BitVec 1) : fld (encCG op v a u) 12 6 = a := by
  refine (BitVec.extractLsb'_append_eq_of_le (by decide)).trans ?_
  refine (BitVec.extractLsb'_append_eq_of_le (by decide)).trans ?_
  exact BitVec.extractLsb'_append_eq_right
theorem encCG_u (op v : BitVec 7) (a : BitVec 6) (u : BitVec 1) : fld (encCG op v a u) 11 1 = u := by
  refine (BitVec.extractLsb'_append_eq_of_le (by decide)).trans ?_
  exact BitVec.extractLsb'_append_eq_right

theorem encCF_op (op a : BitVec 7) (b : BitVec 8) : fld (encCF op a b) 25 7 = op := by
  refine (BitVec.extractLsb'_append_eq_of_le (by decide)).trans ?_
  refine (BitVec.extractLsb'_append_eq_of_le (by decide)).trans ?_
  refine (BitVec.extractLsb'_append_eq_of_le (by decide)).trans ?_
  exact BitVec.extractLsb'_eq_self
theorem encCF_a (op a : BitVec 7) (b : BitVec 8) : fld (encCF op a b) 18 7 = a := by
  refine (BitVec.extractLsb'_append_eq_of_le (by decide)).trans ?_
  refine (BitVec.extractLsb'_append_eq_of_le (by decide)).trans ?_
  exact BitVec.extractLsb'_append_eq_right
theorem encCF_b (op a : BitVec 7) (b : BitVec 8) : fld (encCF op a b) 10 8 = b := by
  refine (BitVec.extractLsb'_append_eq_of_le (by decide)).trans ?_
  exact BitVec.extractLsb'_append_eq_right

theorem encDL_op (op v : BitVec 7) (a : BitVec 6) (n : BitVec 10) (g : BitVec 2) : fld (encDL op v a n g) 25 7 = op := by
  refine (BitVec.extractLsb'_append_eq_of_le (by decide)).trans ?_
  refine (BitVec.extractLsb'_append_eq_of_le (by decide)).trans ?_
  refine (BitVec.extractLsb'_append_eq_of_le (by decide)).trans ?_
  refine (BitVec.extractLsb'_append_eq_of_le (by decide)).trans ?_
  exact BitVec.extractLsb'_eq_self
theorem encDL_v (op v : BitVec 7) (a : BitVec 6) (n : BitVec 10) (g : BitVec 2) : fld (encDL op v a n g) 18 7 = v := by
  refine (BitVec.extractLsb'_append_eq_of_le (by decide)).trans ?_
  refine (BitVec.extractLsb'_append_eq_of_le (by decide)).trans ?_
  refine (BitVec.extractLsb'_append_eq_of_le (by decide)).trans ?_
  exact BitVec.extractLsb'_append_eq_right
theorem encDL_a (op v : BitVec 7) (a : BitVec 6) (n : BitVec 10) (g : BitVec 2) : fld (encDL op v a n g) 12 6 = a := by
  refine (BitVec.extractLsb'_append_eq_of_le (by decide)).trans ?_
  refine (BitVec.extractLsb'_append_eq_of_le (by decide)).trans ?_
  exact BitVec.extractLsb'_append_eq_right
theorem encDL_n (op v : BitVec 7) (a : BitVec 6) (n : BitVec 10) (g : BitVec 2) : fld (encDL op v a n g) 2 10 = n := by
  refine (BitVec.extractLsb'_append_eq_of_le (by decide)).trans ?_
  exact BitVec.extractLsb'_append_eq_right
theorem encDL_g (op v : BitVec 7) (a : BitVec 6) (n : BitVec 10) (g : BitVec 2) : fld (encDL op v a n g) 0 2 = g := by
  exact BitVec.extractLsb'_append_eq_right

theorem encDA_op (op : BitVec 7) (d a b : BitVec 6) (z : BitVec 2) (n : BitVec 5) : fld (encDA op d a b z n) 25 7 = op := by
  refine (BitVec.extractLsb'_append_eq_of_le (by decide)).trans ?_
  refine (BitVec.extractLsb'_append_eq_of_le (by decide)).trans ?_
  refine (BitVec.extractLsb'_append_eq_of_le (by decide)).trans ?_
  refine (BitVec.extractLsb'_append_eq_of_le (by decide)).trans ?_
  refine (BitVec.extractLsb'_append_eq_of_le (by decide)).trans ?_
  exact BitVec.extractLsb'_eq_self
theorem encDA_d (op : BitVec 7) (d a b : BitVec 6) (z : BitVec 2) (n : BitVec 5) : fld (encDA op d a b z n) 19 6 = d := by
  refine (BitVec.extractLsb'_append_eq_of_le (by decide)).trans ?_
  refine (BitVec.extractLsb'_append_eq_of_le (by decide)).trans ?_
  refine (BitVec.extractLsb'_append_eq_of_le (by decide)).trans ?_
  refine (BitVec.extractLsb'_append_eq_of_le (by decide)).trans ?_
  exact BitVec.extractLsb'_append_eq_right
theorem encDA_a (op : BitVec 7) (d a b : BitVec 6) (z : BitVec 2) (n : BitVec 5) : fld (encDA op d a b z n) 13 6 = a := by
  refine (BitVec.extractLsb'_append_eq_of_le (by decide)).trans ?_
  refine (BitVec.extractLsb'_append_eq_of_le (by decide)).trans ?_
  refine (BitVec.extractLsb'_append_eq_of_le (by decide)).trans ?_
  exact BitVec.extractLsb'_append_eq_right
theorem encDA_b (op : BitVec 7) (d a b : BitVec 6) (z : BitVec 2) (n : BitVec 5) : fld (encDA op d a b z n) 7 6 = b := by
  refine (BitVec.extractLsb'_append_eq_of_le (by decide)).trans ?_
  refine (BitVec.extractLsb'_append_eq_of_le (by decide)).trans ?_
  exact BitVec.extractLsb'_append_eq_right
theorem encDA_z (op : BitVec 7) (d a b : BitVec 6) (z : BitVec 2) (n : BitVec 5) : fld (encDA op d a b z n) 5 2 = z := by
  refine (BitVec.extractLsb'_append_eq_of_le (by decide)).trans ?_
  exact BitVec.extractLsb'_append_eq_right
theorem encDA_n (op : BitVec 7) (d a b : BitVec 6) (z : BitVec 2) (n : BitVec 5) : fld (encDA op d a b z n) 0 5 = n := by
  exact BitVec.extractLsb'_append_eq_right

theorem encDC_op (op : BitVec 7) (d a b : BitVec 6) (m : BitVec 7) : fld (encDC op d a b m) 25 7 = op := by
  refine (BitVec.extractLsb'_append_eq_of_le (by decide)).trans ?_
  refine (BitVec.extractLsb'_append_eq_of_le (by decide)).trans ?_
  refine (BitVec.extractLsb'_append_eq_of_le (by decide)).trans ?_
  refine (BitVec.extractLsb'_append_eq_of_le (by decide)).trans ?_
  exact BitVec.extractLsb'_eq_self
theorem encDC_d (op : BitVec 7) (d a b : BitVec 6) (m : BitVec 7) : fld (encDC op d a b m) 19 6 = d := by
  refine (BitVec.extractLsb'_append_eq_of_le (by decide)).trans ?_
  refine (BitVec.extractLsb'_append_eq_of_le (by decide)).trans ?_
  refine (BitVec.extractLsb'_append_eq_of_le (by decide)).trans ?_
  exact BitVec.extractLsb'_append_eq_right
theorem encDC_a (op : BitVec 7) (d a b : BitVec 6) (m : BitVec 7) : fld (encDC op d a b m) 13 6 = a := by
  refine (BitVec.extractLsb'_append_eq_of_le (by decide)).trans ?_
  refine (BitVec.extractLsb'_append_eq_of_le (by decide)).trans ?_
  exact BitVec.extractLsb'_append_eq_right
theorem encDC_b (op : BitVec 7) (d a b : BitVec 6) (m : BitVec 7) : fld (encDC op d a b m) 7 6 = b := by
  refine (BitVec.extractLsb'_append_eq_of_le (by decide)).trans ?_
  exact BitVec.extractLsb'_append_eq_right
theorem encDC_m (op : BitVec 7) (d a b : BitVec 6) (m : BitVec 7) : fld (encDC op d a b m) 0 7 = m := by
  exact BitVec.extractLsb'_append_eq_right

end Sys2Proof
end

