-- ==== Sys2Proof/Laws/PerInstr.lean ====
section
/-! SUPPORT. One lemma per constructor: an instruction that has a slot has one of the four, and its opcode is neither 0, the empty slot
(R61), nor 0x7F, the header (R63). -/

namespace Sys2Proof.Laws

/-- The slot and the opcode of an encoded instruction. -/
def Encoded.Statement (i : Sys2Proof.Instr) : Prop := ∀ k, i.slot = some k → k < 4 ∧ fld i.word 25 7 ≠ 0#7 ∧ fld i.word 25 7 ≠ 0x7F#7

theorem Encoded.of_op {i : Sys2Proof.Instr} {n : Nat} {op : BitVec 7} (hs : i.slot = some n) (hn : n < 4) (hw : fld i.word 25 7 = op)
    (h0 : op ≠ 0#7) (h1 : op ≠ 0x7F#7) : Encoded.Statement i := by
  intro k hk
  rw [hs] at hk
  cases hk
  exact ⟨hn, hw ▸ h0, hw ▸ h1⟩

theorem Encoded.of_none {i : Sys2Proof.Instr} (h : i.slot = none) : Encoded.Statement i := fun k hk => by rw [h] at hk; cases hk

theorem Encoded.add a0 a1 a2 : Statement (.add a0 a1 a2) := of_op (n := 0) rfl (by decide) (encAR_op ..) (by decide) (by decide)
theorem Encoded.sub a0 a1 a2 : Statement (.sub a0 a1 a2) := of_op (n := 0) rfl (by decide) (encAR_op ..) (by decide) (by decide)
theorem Encoded.mul a0 a1 a2 : Statement (.mul a0 a1 a2) := of_op (n := 0) rfl (by decide) (encAR_op ..) (by decide) (by decide)
theorem Encoded.mulhi a0 a1 a2 : Statement (.mulhi a0 a1 a2) := of_op (n := 0) rfl (by decide) (encAR_op ..) (by decide) (by decide)
theorem Encoded.mulhn a0 a1 a2 : Statement (.mulhn a0 a1 a2) := of_op (n := 0) rfl (by decide) (encAR_op ..) (by decide) (by decide)
theorem Encoded.div a0 a1 a2 : Statement (.div a0 a1 a2) := of_op (n := 0) rfl (by decide) (encAR_op ..) (by decide) (by decide)
theorem Encoded.divn a0 a1 a2 : Statement (.divn a0 a1 a2) := of_op (n := 0) rfl (by decide) (encAR_op ..) (by decide) (by decide)
theorem Encoded.rem a0 a1 a2 : Statement (.rem a0 a1 a2) := of_op (n := 0) rfl (by decide) (encAR_op ..) (by decide) (by decide)
theorem Encoded.remn a0 a1 a2 : Statement (.remn a0 a1 a2) := of_op (n := 0) rfl (by decide) (encAR_op ..) (by decide) (by decide)
theorem Encoded.and a0 a1 a2 : Statement (.and a0 a1 a2) := of_op (n := 0) rfl (by decide) (encAR_op ..) (by decide) (by decide)
theorem Encoded.or a0 a1 a2 : Statement (.or a0 a1 a2) := of_op (n := 0) rfl (by decide) (encAR_op ..) (by decide) (by decide)
theorem Encoded.xor a0 a1 a2 : Statement (.xor a0 a1 a2) := of_op (n := 0) rfl (by decide) (encAR_op ..) (by decide) (by decide)
theorem Encoded.andn a0 a1 a2 : Statement (.andn a0 a1 a2) := of_op (n := 0) rfl (by decide) (encAR_op ..) (by decide) (by decide)
theorem Encoded.shl a0 a1 a2 : Statement (.shl a0 a1 a2) := of_op (n := 0) rfl (by decide) (encAR_op ..) (by decide) (by decide)
theorem Encoded.shr a0 a1 a2 : Statement (.shr a0 a1 a2) := of_op (n := 0) rfl (by decide) (encAR_op ..) (by decide) (by decide)
theorem Encoded.sar a0 a1 a2 : Statement (.sar a0 a1 a2) := of_op (n := 0) rfl (by decide) (encAR_op ..) (by decide) (by decide)
theorem Encoded.rotl a0 a1 a2 : Statement (.rotl a0 a1 a2) := of_op (n := 0) rfl (by decide) (encAR_op ..) (by decide) (by decide)
theorem Encoded.min a0 a1 a2 : Statement (.min a0 a1 a2) := of_op (n := 0) rfl (by decide) (encAR_op ..) (by decide) (by decide)
theorem Encoded.minn a0 a1 a2 : Statement (.minn a0 a1 a2) := of_op (n := 0) rfl (by decide) (encAR_op ..) (by decide) (by decide)
theorem Encoded.max a0 a1 a2 : Statement (.max a0 a1 a2) := of_op (n := 0) rfl (by decide) (encAR_op ..) (by decide) (by decide)
theorem Encoded.maxn a0 a1 a2 : Statement (.maxn a0 a1 a2) := of_op (n := 0) rfl (by decide) (encAR_op ..) (by decide) (by decide)
theorem Encoded.clz a0 a1 : Statement (.clz a0 a1) := of_op (n := 0) rfl (by decide) (encAR_op ..) (by decide) (by decide)
theorem Encoded.ctz a0 a1 : Statement (.ctz a0 a1) := of_op (n := 0) rfl (by decide) (encAR_op ..) (by decide) (by decide)
theorem Encoded.popc a0 a1 : Statement (.popc a0 a1) := of_op (n := 0) rfl (by decide) (encAR_op ..) (by decide) (by decide)
theorem Encoded.sel a0 a1 a2 a3 : Statement (.sel a0 a1 a2 a3) := of_op (n := 0) rfl (by decide) (encAS_op ..) (by decide) (by decide)
theorem Encoded.cmp a0 a1 a2 a3 : Statement (.cmp a0 a1 a2 a3) := of_op (n := 0) rfl (by decide) (encAS_op ..) (by decide) (by decide)
theorem Encoded.addi a0 a1 a2 : Statement (.addi a0 a1 a2) := of_op (n := 0) rfl (by decide) (encAI_op ..) (by decide) (by decide)
theorem Encoded.andi a0 a1 a2 : Statement (.andi a0 a1 a2) := of_op (n := 0) rfl (by decide) (encAI_op ..) (by decide) (by decide)
theorem Encoded.ori a0 a1 a2 : Statement (.ori a0 a1 a2) := of_op (n := 0) rfl (by decide) (encAI_op ..) (by decide) (by decide)
theorem Encoded.xori a0 a1 a2 : Statement (.xori a0 a1 a2) := of_op (n := 0) rfl (by decide) (encAI_op ..) (by decide) (by decide)
theorem Encoded.shli a0 a1 a2 : Statement (.shli a0 a1 a2) := of_op (n := 0) rfl (by decide) (encAI_op ..) (by decide) (by decide)
theorem Encoded.shri a0 a1 a2 : Statement (.shri a0 a1 a2) := of_op (n := 0) rfl (by decide) (encAI_op ..) (by decide) (by decide)
theorem Encoded.sari a0 a1 a2 : Statement (.sari a0 a1 a2) := of_op (n := 0) rfl (by decide) (encAI_op ..) (by decide) (by decide)
theorem Encoded.sext a0 a1 a2 : Statement (.sext a0 a1 a2) := of_op (n := 0) rfl (by decide) (encAI_op ..) (by decide) (by decide)
theorem Encoded.zext a0 a1 a2 : Statement (.zext a0 a1 a2) := of_op (n := 0) rfl (by decide) (encAI_op ..) (by decide) (by decide)
theorem Encoded.movi a0 a1 : Statement (.movi a0 a1) := of_op (n := 0) rfl (by decide) (encAB_op ..) (by decide) (by decide)
theorem Encoded.movhi a0 a1 a2 : Statement (.movhi a0 a1 a2) := of_op (n := 0) rfl (by decide) (encAB_op ..) (by decide) (by decide)
theorem Encoded.lds a0 a1 a2 a3 : Statement (.lds a0 a1 a2 a3) := of_op (n := 0) rfl (by decide) (encAI_op ..) (by decide) (by decide)
theorem Encoded.sts a0 a1 a2 a3 : Statement (.sts a0 a1 a2 a3) := of_op (n := 0) rfl (by decide) (encAI_op ..) (by decide) (by decide)
theorem Encoded.pand a0 a1 a2 : Statement (.pand a0 a1 a2) := of_op (n := 0) rfl (by decide) (encAP_op ..) (by decide) (by decide)
theorem Encoded.por a0 a1 a2 : Statement (.por a0 a1 a2) := of_op (n := 0) rfl (by decide) (encAP_op ..) (by decide) (by decide)
theorem Encoded.pxor a0 a1 a2 : Statement (.pxor a0 a1 a2) := of_op (n := 0) rfl (by decide) (encAP_op ..) (by decide) (by decide)
theorem Encoded.pnot a0 a1 : Statement (.pnot a0 a1) := of_op (n := 0) rfl (by decide) (encAP_op ..) (by decide) (by decide)
theorem Encoded.pmov a0 a1 : Statement (.pmov a0 a1) := of_op (n := 0) rfl (by decide) (encAP_op ..) (by decide) (by decide)
theorem Encoded.br a0 : Statement (.br a0) := of_op (n := 0) rfl (by decide) (encAB_op ..) (by decide) (by decide)
theorem Encoded.brp a0 a1 a2 : Statement (.brp a0 a1 a2) := of_op (n := 0) rfl (by decide) (encAB_op ..) (by decide) (by decide)
theorem Encoded.call a0 a1 : Statement (.call a0 a1) := of_op (n := 0) rfl (by decide) (encAB_op ..) (by decide) (by decide)
theorem Encoded.ret a0 : Statement (.ret a0) := of_op (n := 0) rfl (by decide) (encAI_op ..) (by decide) (by decide)
theorem Encoded.jr a0 : Statement (.jr a0) := of_op (n := 0) rfl (by decide) (encAI_op ..) (by decide) (by decide)
theorem Encoded.loop a0 a1 a2 : Statement (.loop a0 a1 a2) := of_op (n := 0) rfl (by decide) (encAI_op ..) (by decide) (by decide)
theorem Encoded.loops a0 a1 a2 : Statement (.loops a0 a1 a2) := of_op (n := 0) rfl (by decide) (encAI_op ..) (by decide) (by decide)
theorem Encoded.lbrk a0 a1 : Statement (.lbrk a0 a1) := of_op (n := 0) rfl (by decide) (encAI_op ..) (by decide) (by decide)
theorem Encoded.region : Statement (.region) := of_op (n := 0) rfl (by decide) (encAI_op ..) (by decide) (by decide)
theorem Encoded.endreg : Statement (.endreg) := of_op (n := 0) rfl (by decide) (encAI_op ..) (by decide) (by decide)
theorem Encoded.setfmt a0 : Statement (.setfmt a0) := of_op (n := 0) rfl (by decide) (encAI_op ..) (by decide) (by decide)
theorem Encoded.getfmt a0 : Statement (.getfmt a0) := of_op (n := 0) rfl (by decide) (encAI_op ..) (by decide) (by decide)
theorem Encoded.rdcyc a0 : Statement (.rdcyc a0) := of_op (n := 0) rfl (by decide) (encAI_op ..) (by decide) (by decide)
theorem Encoded.waitc a0 : Statement (.waitc a0) := of_op (n := 0) rfl (by decide) (encAI_op ..) (by decide) (by decide)
theorem Encoded.rdwid a0 a1 : Statement (.rdwid a0 a1) := of_op (n := 0) rfl (by decide) (encAI_op ..) (by decide) (by decide)
theorem Encoded.rdsr a0 a1 : Statement (.rdsr a0 a1) := of_op (n := 0) rfl (by decide) (encAI_op ..) (by decide) (by decide)
theorem Encoded.wrsr a0 a1 : Statement (.wrsr a0 a1) := of_op (n := 0) rfl (by decide) (encAI_op ..) (by decide) (by decide)
theorem Encoded.trap a0 : Statement (.trap a0) := of_op (n := 0) rfl (by decide) (encAI_op ..) (by decide) (by decide)
theorem Encoded.eret : Statement (.eret) := of_op (n := 0) rfl (by decide) (encAI_op ..) (by decide) (by decide)
theorem Encoded.done : Statement (.done) := of_op (n := 0) rfl (by decide) (encAI_op ..) (by decide) (by decide)
theorem Encoded.yield : Statement (.yield) := of_op (n := 0) rfl (by decide) (encAI_op ..) (by decide) (by decide)
theorem Encoded.radvcImm a0 a1 : Statement (.radvcImm a0 a1) := of_op (n := 0) rfl (by decide) (encAI_op ..) (by decide) (by decide)
theorem Encoded.radvcReg a0 a1 : Statement (.radvcReg a0 a1) := of_op (n := 0) rfl (by decide) (encAI_op ..) (by decide) (by decide)
theorem Encoded.radvpImm a0 a1 : Statement (.radvpImm a0 a1) := of_op (n := 0) rfl (by decide) (encAI_op ..) (by decide) (by decide)
theorem Encoded.radvpReg a0 a1 : Statement (.radvpReg a0 a1) := of_op (n := 0) rfl (by decide) (encAI_op ..) (by decide) (by decide)
theorem Encoded.rstat a0 a1 : Statement (.rstat a0 a1) := of_op (n := 0) rfl (by decide) (encAI_op ..) (by decide) (by decide)
theorem Encoded.fladd a0 a1 : Statement (.fladd a0 a1) := of_op (n := 0) rfl (by decide) (encAI_op ..) (by decide) (by decide)
theorem Encoded.flrd a0 a1 : Statement (.flrd a0 a1) := of_op (n := 0) rfl (by decide) (encAI_op ..) (by decide) (by decide)
theorem Encoded.vadd a0 a1 a2 a3 a4 : Statement (.vadd a0 a1 a2 a3 a4) := of_op (n := 1) rfl (by decide) (encVR_op ..) (by decide) (by decide)
theorem Encoded.vsub a0 a1 a2 a3 a4 : Statement (.vsub a0 a1 a2 a3 a4) := of_op (n := 1) rfl (by decide) (encVR_op ..) (by decide) (by decide)
theorem Encoded.vmul a0 a1 a2 a3 a4 : Statement (.vmul a0 a1 a2 a3 a4) := of_op (n := 1) rfl (by decide) (encVR_op ..) (by decide) (by decide)
theorem Encoded.vfma a0 a1 a2 a3 a4 : Statement (.vfma a0 a1 a2 a3 a4) := of_op (n := 1) rfl (by decide) (encVR_op ..) (by decide) (by decide)
theorem Encoded.vfms a0 a1 a2 a3 a4 : Statement (.vfms a0 a1 a2 a3 a4) := of_op (n := 1) rfl (by decide) (encVR_op ..) (by decide) (by decide)
theorem Encoded.vfnma a0 a1 a2 a3 a4 : Statement (.vfnma a0 a1 a2 a3 a4) := of_op (n := 1) rfl (by decide) (encVR_op ..) (by decide) (by decide)
theorem Encoded.vmin a0 a1 a2 a3 a4 : Statement (.vmin a0 a1 a2 a3 a4) := of_op (n := 1) rfl (by decide) (encVR_op ..) (by decide) (by decide)
theorem Encoded.vmax a0 a1 a2 a3 a4 : Statement (.vmax a0 a1 a2 a3 a4) := of_op (n := 1) rfl (by decide) (encVR_op ..) (by decide) (by decide)
theorem Encoded.vcps a0 a1 a2 a3 a4 : Statement (.vcps a0 a1 a2 a3 a4) := of_op (n := 1) rfl (by decide) (encVR_op ..) (by decide) (by decide)
theorem Encoded.vdiv a0 a1 a2 a3 a4 : Statement (.vdiv a0 a1 a2 a3 a4) := of_op (n := 1) rfl (by decide) (encVR_op ..) (by decide) (by decide)
theorem Encoded.viadd a0 a1 a2 a3 a4 : Statement (.viadd a0 a1 a2 a3 a4) := of_op (n := 1) rfl (by decide) (encVR_op ..) (by decide) (by decide)
theorem Encoded.visub a0 a1 a2 a3 a4 : Statement (.visub a0 a1 a2 a3 a4) := of_op (n := 1) rfl (by decide) (encVR_op ..) (by decide) (by decide)
theorem Encoded.vimul a0 a1 a2 a3 a4 : Statement (.vimul a0 a1 a2 a3 a4) := of_op (n := 1) rfl (by decide) (encVR_op ..) (by decide) (by decide)
theorem Encoded.vimulh a0 a1 a2 a3 a4 : Statement (.vimulh a0 a1 a2 a3 a4) := of_op (n := 1) rfl (by decide) (encVR_op ..) (by decide) (by decide)
theorem Encoded.vimad a0 a1 a2 a3 a4 : Statement (.vimad a0 a1 a2 a3 a4) := of_op (n := 1) rfl (by decide) (encVR_op ..) (by decide) (by decide)
theorem Encoded.vimin a0 a1 a2 a3 a4 : Statement (.vimin a0 a1 a2 a3 a4) := of_op (n := 1) rfl (by decide) (encVR_op ..) (by decide) (by decide)
theorem Encoded.vimax a0 a1 a2 a3 a4 : Statement (.vimax a0 a1 a2 a3 a4) := of_op (n := 1) rfl (by decide) (encVR_op ..) (by decide) (by decide)
theorem Encoded.vand a0 a1 a2 a3 a4 : Statement (.vand a0 a1 a2 a3 a4) := of_op (n := 1) rfl (by decide) (encVR_op ..) (by decide) (by decide)
theorem Encoded.vor a0 a1 a2 a3 a4 : Statement (.vor a0 a1 a2 a3 a4) := of_op (n := 1) rfl (by decide) (encVR_op ..) (by decide) (by decide)
theorem Encoded.vxor a0 a1 a2 a3 a4 : Statement (.vxor a0 a1 a2 a3 a4) := of_op (n := 1) rfl (by decide) (encVR_op ..) (by decide) (by decide)
theorem Encoded.vshl a0 a1 a2 a3 a4 : Statement (.vshl a0 a1 a2 a3 a4) := of_op (n := 1) rfl (by decide) (encVR_op ..) (by decide) (by decide)
theorem Encoded.vshr a0 a1 a2 a3 a4 : Statement (.vshr a0 a1 a2 a3 a4) := of_op (n := 1) rfl (by decide) (encVR_op ..) (by decide) (by decide)
theorem Encoded.vsar a0 a1 a2 a3 a4 : Statement (.vsar a0 a1 a2 a3 a4) := of_op (n := 1) rfl (by decide) (encVR_op ..) (by decide) (by decide)
theorem Encoded.vmulw a0 a1 a2 a3 a4 : Statement (.vmulw a0 a1 a2 a3 a4) := of_op (n := 1) rfl (by decide) (encVR_op ..) (by decide) (by decide)
theorem Encoded.vpack a0 a1 a2 a3 a4 : Statement (.vpack a0 a1 a2 a3 a4) := of_op (n := 1) rfl (by decide) (encVR_op ..) (by decide) (by decide)
theorem Encoded.vscana a0 a1 a2 a3 a4 : Statement (.vscana a0 a1 a2 a3 a4) := of_op (n := 1) rfl (by decide) (encVR_op ..) (by decide) (by decide)
theorem Encoded.vshfl a0 a1 a2 a3 a4 : Statement (.vshfl a0 a1 a2 a3 a4) := of_op (n := 1) rfl (by decide) (encVR_op ..) (by decide) (by decide)
theorem Encoded.vzip a0 a1 a2 a3 a4 : Statement (.vzip a0 a1 a2 a3 a4) := of_op (n := 1) rfl (by decide) (encVR_op ..) (by decide) (by decide)
theorem Encoded.vunzip a0 a1 a2 a3 a4 : Statement (.vunzip a0 a1 a2 a3 a4) := of_op (n := 1) rfl (by decide) (encVR_op ..) (by decide) (by decide)
theorem Encoded.vabs a0 a1 a2 a3 : Statement (.vabs a0 a1 a2 a3) := of_op (n := 1) rfl (by decide) (encVU_op ..) (by decide) (by decide)
theorem Encoded.vneg a0 a1 a2 a3 : Statement (.vneg a0 a1 a2 a3) := of_op (n := 1) rfl (by decide) (encVU_op ..) (by decide) (by decide)
theorem Encoded.vclass a0 a1 a2 a3 : Statement (.vclass a0 a1 a2 a3) := of_op (n := 1) rfl (by decide) (encVU_op ..) (by decide) (by decide)
theorem Encoded.vrcp a0 a1 a2 a3 : Statement (.vrcp a0 a1 a2 a3) := of_op (n := 1) rfl (by decide) (encVU_op ..) (by decide) (by decide)
theorem Encoded.vrsq a0 a1 a2 a3 : Statement (.vrsq a0 a1 a2 a3) := of_op (n := 1) rfl (by decide) (encVU_op ..) (by decide) (by decide)
theorem Encoded.vexp2 a0 a1 a2 a3 : Statement (.vexp2 a0 a1 a2 a3) := of_op (n := 1) rfl (by decide) (encVU_op ..) (by decide) (by decide)
theorem Encoded.vlog2 a0 a1 a2 a3 : Statement (.vlog2 a0 a1 a2 a3) := of_op (n := 1) rfl (by decide) (encVU_op ..) (by decide) (by decide)
theorem Encoded.vsin a0 a1 a2 a3 : Statement (.vsin a0 a1 a2 a3) := of_op (n := 1) rfl (by decide) (encVU_op ..) (by decide) (by decide)
theorem Encoded.vcos a0 a1 a2 a3 : Statement (.vcos a0 a1 a2 a3) := of_op (n := 1) rfl (by decide) (encVU_op ..) (by decide) (by decide)
theorem Encoded.vtanh a0 a1 a2 a3 : Statement (.vtanh a0 a1 a2 a3) := of_op (n := 1) rfl (by decide) (encVU_op ..) (by decide) (by decide)
theorem Encoded.vsigm a0 a1 a2 a3 : Statement (.vsigm a0 a1 a2 a3) := of_op (n := 1) rfl (by decide) (encVU_op ..) (by decide) (by decide)
theorem Encoded.vnot a0 a1 a2 a3 : Statement (.vnot a0 a1 a2 a3) := of_op (n := 1) rfl (by decide) (encVU_op ..) (by decide) (by decide)
theorem Encoded.vpopc a0 a1 a2 a3 : Statement (.vpopc a0 a1 a2 a3) := of_op (n := 1) rfl (by decide) (encVU_op ..) (by decide) (by decide)
theorem Encoded.vclz a0 a1 a2 a3 : Statement (.vclz a0 a1 a2 a3) := of_op (n := 1) rfl (by decide) (encVU_op ..) (by decide) (by decide)
theorem Encoded.vunpk a0 a1 a2 a3 : Statement (.vunpk a0 a1 a2 a3) := of_op (n := 1) rfl (by decide) (encVU_op ..) (by decide) (by decide)
theorem Encoded.vradd a0 a1 a2 a3 : Statement (.vradd a0 a1 a2 a3) := of_op (n := 1) rfl (by decide) (encVU_op ..) (by decide) (by decide)
theorem Encoded.vrmax a0 a1 a2 a3 : Statement (.vrmax a0 a1 a2 a3) := of_op (n := 1) rfl (by decide) (encVU_op ..) (by decide) (by decide)
theorem Encoded.vrmin a0 a1 a2 a3 : Statement (.vrmin a0 a1 a2 a3) := of_op (n := 1) rfl (by decide) (encVU_op ..) (by decide) (by decide)
theorem Encoded.vscan a0 a1 a2 a3 : Statement (.vscan a0 a1 a2 a3) := of_op (n := 1) rfl (by decide) (encVU_op ..) (by decide) (by decide)
theorem Encoded.vmov a0 a1 a2 a3 : Statement (.vmov a0 a1 a2 a3) := of_op (n := 1) rfl (by decide) (encVU_op ..) (by decide) (by decide)
theorem Encoded.vrnd a0 a1 a2 a3 a4 : Statement (.vrnd a0 a1 a2 a3 a4) := of_op (n := 1) rfl (by decide) (encVU_op ..) (by decide) (by decide)
theorem Encoded.vsqrt a0 a1 a2 a3 a4 : Statement (.vsqrt a0 a1 a2 a3 a4) := of_op (n := 1) rfl (by decide) (encVU_op ..) (by decide) (by decide)
theorem Encoded.vcvt a0 a1 a2 a3 a4 a5 : Statement (.vcvt a0 a1 a2 a3 a4 a5) := of_op (n := 1) rfl (by decide) (encVU_op ..) (by decide) (by decide)
theorem Encoded.vqnt a0 a1 a2 a3 a4 : Statement (.vqnt a0 a1 a2 a3 a4) := of_op (n := 1) rfl (by decide) (encVU_op ..) (by decide) (by decide)
theorem Encoded.vdqnt a0 a1 a2 a3 a4 : Statement (.vdqnt a0 a1 a2 a3 a4) := of_op (n := 1) rfl (by decide) (encVU_op ..) (by decide) (by decide)
theorem Encoded.vadc a0 a1 a2 a3 a4 : Statement (.vadc a0 a1 a2 a3 a4) := of_op (n := 1) rfl (by decide) (encVR_op ..) (by decide) (by decide)
theorem Encoded.vsbc a0 a1 a2 a3 a4 : Statement (.vsbc a0 a1 a2 a3 a4) := of_op (n := 1) rfl (by decide) (encVR_op ..) (by decide) (by decide)
theorem Encoded.vmadc a0 a1 a2 a3 a4 : Statement (.vmadc a0 a1 a2 a3 a4) := of_op (n := 1) rfl (by decide) (encVR_op ..) (by decide) (by decide)
theorem Encoded.vselp a0 a1 a2 a3 a4 : Statement (.vselp a0 a1 a2 a3 a4) := of_op (n := 1) rfl (by decide) (encVR_op ..) (by decide) (by decide)
theorem Encoded.vcmp a0 a1 a2 a3 a4 a5 : Statement (.vcmp a0 a1 a2 a3 a4 a5) := of_op (n := 1) rfl (by decide) (encVP_op ..) (by decide) (by decide)
theorem Encoded.vmodadd a0 a1 a2 a3 a4 : Statement (.vmodadd a0 a1 a2 a3 a4) := of_op (n := 1) rfl (by decide) (encVMD_op ..) (by decide) (by decide)
theorem Encoded.vmodsub a0 a1 a2 a3 a4 : Statement (.vmodsub a0 a1 a2 a3 a4) := of_op (n := 1) rfl (by decide) (encVMD_op ..) (by decide) (by decide)
theorem Encoded.vmodmul a0 a1 a2 a3 a4 : Statement (.vmodmul a0 a1 a2 a3 a4) := of_op (n := 1) rfl (by decide) (encVMD_op ..) (by decide) (by decide)
theorem Encoded.vmodmac a0 a1 a2 a3 a4 : Statement (.vmodmac a0 a1 a2 a3 a4) := of_op (n := 1) rfl (by decide) (encVMD_op ..) (by decide) (by decide)
theorem Encoded.vmodred a0 a1 a2 a3 : Statement (.vmodred a0 a1 a2 a3) := of_op (n := 1) rfl (by decide) (encVMD_op ..) (by decide) (by decide)
theorem Encoded.vmodneg a0 a1 a2 a3 : Statement (.vmodneg a0 a1 a2 a3) := of_op (n := 1) rfl (by decide) (encVMD_op ..) (by decide) (by decide)
theorem Encoded.vmsetm a0 a1 a2 : Statement (.vmsetm a0 a1 a2) := of_op (n := 1) rfl (by decide) (encVMD_op ..) (by decide) (by decide)
theorem Encoded.vmsetk a0 a1 a2 : Statement (.vmsetk a0 a1 a2) := of_op (n := 1) rfl (by decide) (encVMD_op ..) (by decide) (by decide)
theorem Encoded.vbfly a0 a1 a2 a3 a4 : Statement (.vbfly a0 a1 a2 a3 a4) := of_op (n := 1) rfl (by decide) (encVB_op ..) (by decide) (by decide)
theorem Encoded.vbflyi a0 a1 a2 a3 a4 : Statement (.vbflyi a0 a1 a2 a3 a4) := of_op (n := 1) rfl (by decide) (encVB_op ..) (by decide) (by decide)
theorem Encoded.vpermb a0 a1 a2 a3 : Statement (.vpermb a0 a1 a2 a3) := of_op (n := 1) rfl (by decide) (encVB_op ..) (by decide) (by decide)
theorem Encoded.vbcst a0 a1 a2 a3 : Statement (.vbcst a0 a1 a2 a3) := of_op (n := 1) rfl (by decide) (encVS_op ..) (by decide) (by decide)
theorem Encoded.vext a0 a1 a2 a3 a4 : Statement (.vext a0 a1 a2 a3 a4) := of_op (n := 1) rfl (by decide) (encVS_op ..) (by decide) (by decide)
theorem Encoded.vins a0 a1 a2 a3 a4 : Statement (.vins a0 a1 a2 a3 a4) := of_op (n := 1) rfl (by decide) (encVS_op ..) (by decide) (by decide)
theorem Encoded.vslide a0 a1 a2 a3 a4 a5 : Statement (.vslide a0 a1 a2 a3 a4 a5) := of_op (n := 1) rfl (by decide) (encVT_op ..) (by decide) (by decide)
theorem Encoded.vld a0 a1 a2 a3 a4 : Statement (.vld a0 a1 a2 a3 a4) := of_op (n := 1) rfl (by decide) (encVM_op ..) (by decide) (by decide)
theorem Encoded.vst a0 a1 a2 a3 a4 : Statement (.vst a0 a1 a2 a3 a4) := of_op (n := 1) rfl (by decide) (encVM_op ..) (by decide) (by decide)
theorem Encoded.vldx a0 a1 a2 a3 a4 a5 : Statement (.vldx a0 a1 a2 a3 a4 a5) := of_op (n := 1) rfl (by decide) (encVXM_op ..) (by decide) (by decide)
theorem Encoded.vstx a0 a1 a2 a3 a4 a5 : Statement (.vstx a0 a1 a2 a3 a4 a5) := of_op (n := 1) rfl (by decide) (encVXM_op ..) (by decide) (by decide)
theorem Encoded.vldr a0 a1 a2 a3 a4 a5 : Statement (.vldr a0 a1 a2 a3 a4 a5) := of_op (n := 1) rfl (by decide) (encVRG_op ..) (by decide) (by decide)
theorem Encoded.vstr a0 a1 a2 a3 a4 a5 : Statement (.vstr a0 a1 a2 a3 a4 a5) := of_op (n := 1) rfl (by decide) (encVRG_op ..) (by decide) (by decide)
theorem Encoded.mcfg a0 a1 a2 : Statement (.mcfg a0 a1 a2) := of_op (n := 2) rfl (by decide) (encCF_op ..) (by decide) (by decide)
theorem Encoded.mshift a0 a1 a2 : Statement (.mshift a0 a1 a2) := of_op (n := 2) rfl (by decide) (encCB_op ..) (by decide) (by decide)
theorem Encoded.mpush a0 a1 a2 a3 a4 : Statement (.mpush a0 a1 a2 a3 a4) := of_op (n := 2) rfl (by decide) (encCA_op ..) (by decide) (by decide)
theorem Encoded.macc a0 a1 a2 : Statement (.macc a0 a1 a2) := of_op (n := 2) rfl (by decide) (encCA_op ..) (by decide) (by decide)
theorem Encoded.mdrain a0 a1 a2 a3 a4 : Statement (.mdrain a0 a1 a2 a3 a4) := of_op (n := 2) rfl (by decide) (encCA_op ..) (by decide) (by decide)
theorem Encoded.mdrainq a0 a1 a2 a3 a4 : Statement (.mdrainq a0 a1 a2 a3 a4) := of_op (n := 2) rfl (by decide) (encCA_op ..) (by decide) (by decide)
theorem Encoded.mzero a0 a1 : Statement (.mzero a0 a1) := of_op (n := 2) rfl (by decide) (encCA_op ..) (by decide) (by decide)
theorem Encoded.mswap a0 : Statement (.mswap a0) := of_op (n := 2) rfl (by decide) (encCB_op ..) (by decide) (by decide)
theorem Encoded.mgath a0 a1 a2 a3 : Statement (.mgath a0 a1 a2 a3) := of_op (n := 2) rfl (by decide) (encCG_op ..) (by decide) (by decide)
theorem Encoded.mldacc a0 a1 a2 : Statement (.mldacc a0 a1 a2) := of_op (n := 2) rfl (by decide) (encCA_op ..) (by decide) (by decide)
theorem Encoded.mstg a0 a1 : Statement (.mstg a0 a1) := of_op (n := 2) rfl (by decide) (encCB_op ..) (by decide) (by decide)
theorem Encoded.mrot a0 a1 : Statement (.mrot a0 a1) := of_op (n := 2) rfl (by decide) (encCB_op ..) (by decide) (by decide)
theorem Encoded.tld a0 a1 a2 a3 a4 : Statement (.tld a0 a1 a2 a3 a4) := of_op (n := 3) rfl (by decide) (encDL_op ..) (by decide) (by decide)
theorem Encoded.tlds a0 a1 a2 a3 a4 : Statement (.tlds a0 a1 a2 a3 a4) := of_op (n := 3) rfl (by decide) (encDL_op ..) (by decide) (by decide)
theorem Encoded.tldm a0 a1 a2 a3 a4 : Statement (.tldm a0 a1 a2 a3 a4) := of_op (n := 3) rfl (by decide) (encDL_op ..) (by decide) (by decide)
theorem Encoded.rld a0 a1 a2 a3 a4 : Statement (.rld a0 a1 a2 a3 a4) := of_op (n := 3) rfl (by decide) (encDL_op ..) (by decide) (by decide)
theorem Encoded.tst a0 a1 a2 a3 : Statement (.tst a0 a1 a2 a3) := of_op (n := 3) rfl (by decide) (encDL_op ..) (by decide) (by decide)
theorem Encoded.tsts a0 a1 a2 a3 : Statement (.tsts a0 a1 a2 a3) := of_op (n := 3) rfl (by decide) (encDL_op ..) (by decide) (by decide)
theorem Encoded.rst a0 a1 a2 a3 : Statement (.rst a0 a1 a2 a3) := of_op (n := 3) rfl (by decide) (encDL_op ..) (by decide) (by decide)
theorem Encoded.sldg a0 a1 a2 a3 a4 : Statement (.sldg a0 a1 a2 a3 a4) := of_op (n := 3) rfl (by decide) (encDL_op ..) (by decide) (by decide)
theorem Encoded.sstg a0 a1 a2 a3 : Statement (.sstg a0 a1 a2 a3) := of_op (n := 3) rfl (by decide) (encDL_op ..) (by decide) (by decide)
theorem Encoded.pref a0 a1 : Statement (.pref a0 a1) := of_op (n := 3) rfl (by decide) (encDC_op ..) (by decide) (by decide)
theorem Encoded.atadd a0 a1 a2 a3 a4 a5 : Statement (.atadd a0 a1 a2 a3 a4 a5) := of_op (n := 3) rfl (by decide) (encDA_op ..) (by decide) (by decide)
theorem Encoded.atfadd a0 a1 a2 a3 a4 a5 : Statement (.atfadd a0 a1 a2 a3 a4 a5) := of_op (n := 3) rfl (by decide) (encDA_op ..) (by decide) (by decide)
theorem Encoded.atmin a0 a1 a2 a3 a4 a5 : Statement (.atmin a0 a1 a2 a3 a4 a5) := of_op (n := 3) rfl (by decide) (encDA_op ..) (by decide) (by decide)
theorem Encoded.atmax a0 a1 a2 a3 a4 a5 : Statement (.atmax a0 a1 a2 a3 a4 a5) := of_op (n := 3) rfl (by decide) (encDA_op ..) (by decide) (by decide)
theorem Encoded.atand a0 a1 a2 a3 a4 a5 : Statement (.atand a0 a1 a2 a3 a4 a5) := of_op (n := 3) rfl (by decide) (encDA_op ..) (by decide) (by decide)
theorem Encoded.ator a0 a1 a2 a3 a4 a5 : Statement (.ator a0 a1 a2 a3 a4 a5) := of_op (n := 3) rfl (by decide) (encDA_op ..) (by decide) (by decide)
theorem Encoded.atxor a0 a1 a2 a3 a4 a5 : Statement (.atxor a0 a1 a2 a3 a4 a5) := of_op (n := 3) rfl (by decide) (encDA_op ..) (by decide) (by decide)
theorem Encoded.atswp a0 a1 a2 a3 a4 a5 : Statement (.atswp a0 a1 a2 a3 a4 a5) := of_op (n := 3) rfl (by decide) (encDA_op ..) (by decide) (by decide)
theorem Encoded.atcas a0 a1 a2 a3 a4 a5 : Statement (.atcas a0 a1 a2 a3 a4 a5) := of_op (n := 3) rfl (by decide) (encDA_op ..) (by decide) (by decide)
theorem Encoded.red a0 a1 a2 a3 a4 : Statement (.red a0 a1 a2 a3 a4) := of_op (n := 3) rfl (by decide) (encDA_op ..) (by decide) (by decide)
theorem Encoded.fence a0 a1 a2 : Statement (.fence a0 a1 a2) := of_op (n := 3) rfl (by decide) (encDC_op ..) (by decide) (by decide)
theorem Encoded.vjoin a0 : Statement (.vjoin a0) := of_op (n := 3) rfl (by decide) (encDC_op ..) (by decide) (by decide)
theorem Encoded.strm a0 a1 a2 a3 a4 a5 : Statement (.strm a0 a1 a2 a3 a4 a5) := of_op (n := 3) rfl (by decide) (encDC_op ..) (by decide) (by decide)
theorem Encoded.strmx a0 a1 a2 : Statement (.strmx a0 a1 a2) := of_op (n := 3) rfl (by decide) (encDC_op ..) (by decide) (by decide)
theorem Encoded.cpy a0 a1 a2 a3 : Statement (.cpy a0 a1 a2 a3) := of_op (n := 3) rfl (by decide) (encDC_op ..) (by decide) (by decide)
theorem Encoded.lease a0 a1 a2 a3 : Statement (.lease a0 a1 a2 a3) := of_op (n := 3) rfl (by decide) (encDC_op ..) (by decide) (by decide)
theorem Encoded.lrecl a0 a1 a2 a3 : Statement (.lrecl a0 a1 a2 a3) := of_op (n := 3) rfl (by decide) (encDC_op ..) (by decide) (by decide)
theorem Encoded.krot a0 a1 a2 a3 : Statement (.krot a0 a1 a2 a3) := of_op (n := 3) rfl (by decide) (encDC_op ..) (by decide) (by decide)
theorem Encoded.seal a0 a1 a2 a3 : Statement (.seal a0 a1 a2 a3) := of_op (n := 3) rfl (by decide) (encDC_op ..) (by decide) (by decide)
theorem Encoded.unseal a0 a1 a2 a3 : Statement (.unseal a0 a1 a2 a3) := of_op (n := 3) rfl (by decide) (encDC_op ..) (by decide) (by decide)
theorem Encoded.ratm a0 a1 a2 a3 a4 a5 : Statement (.ratm a0 a1 a2 a3 a4 a5) := of_op (n := 3) rfl (by decide) (encDC_op ..) (by decide) (by decide)
theorem Encoded.xred a0 a1 a2 a3 a4 : Statement (.xred a0 a1 a2 a3 a4) := of_op (n := 3) rfl (by decide) (encDC_op ..) (by decide) (by decide)
theorem Encoded.mapr a0 a1 a2 : Statement (.mapr a0 a1 a2) := of_op (n := 3) rfl (by decide) (encDC_op ..) (by decide) (by decide)
theorem Encoded.wbr a0 a1 a2 : Statement (.wbr a0 a1 a2) := of_op (n := 3) rfl (by decide) (encDC_op ..) (by decide) (by decide)
theorem Encoded.scrub a0 a1 a2 : Statement (.scrub a0 a1 a2) := of_op (n := 3) rfl (by decide) (encDC_op ..) (by decide) (by decide)
theorem Encoded.meas a0 a1 a2 : Statement (.meas a0 a1 a2) := of_op (n := 3) rfl (by decide) (encDC_op ..) (by decide) (by decide)
theorem Encoded.invr a0 a1 : Statement (.invr a0 a1) := of_op (n := 3) rfl (by decide) (encDC_op ..) (by decide) (by decide)
theorem Encoded.kqry a0 a1 a2 a3 : Statement (.kqry a0 a1 a2 a3) := of_op (n := 3) rfl (by decide) (encDC_op ..) (by decide) (by decide)
theorem Encoded.syncWait a0 a1 : Statement (.syncWait a0 a1) := of_none rfl
theorem Encoded.syncPost a0 a1 : Statement (.syncPost a0 a1) := of_none rfl
theorem Encoded.drainPoint : Statement (.drainPoint) := of_none rfl
theorem Encoded.mergeYield : Statement (.mergeYield) := of_none rfl
theorem Encoded.waitcTargetReached a0 : Statement (.waitcTargetReached a0) := of_none rfl
theorem Encoded.gatherComplete a0 : Statement (.gatherComplete a0) := of_none rfl
theorem Encoded.dividerBusyExpiry a0 : Statement (.dividerBusyExpiry a0) := of_none rfl
theorem Encoded.loadDataArrival a0 : Statement (.loadDataArrival a0) := of_none rfl
theorem Encoded.flagPostArrival a0 : Statement (.flagPostArrival a0) := of_none rfl
theorem Encoded.memoryQueueDepart a0 : Statement (.memoryQueueDepart a0) := of_none rfl
theorem Encoded.gatewayRequest a0 : Statement (.gatewayRequest a0) := of_none rfl
theorem Encoded.pageRequestEnqueue a0 : Statement (.pageRequestEnqueue a0) := of_none rfl
theorem Encoded.pageRequestRecordWrite a0 : Statement (.pageRequestRecordWrite a0) := of_none rfl
theorem Encoded.prespWrite a0 a1 : Statement (.prespWrite a0 a1) := of_none rfl
theorem Encoded.lanternStage2Answer a0 : Statement (.lanternStage2Answer a0) := of_none rfl
theorem Encoded.sideLogReplay a0 : Statement (.sideLogReplay a0) := of_none rfl
theorem Encoded.homeSliceRequest a0 a1 a2 : Statement (.homeSliceRequest a0 a1 a2) := of_none rfl
theorem Encoded.pageReencryption a0 : Statement (.pageReencryption a0) := of_none rfl
theorem Encoded.engineCommandAccept a0 : Statement (.engineCommandAccept a0) := of_none rfl
theorem Encoded.engineCommandComplete a0 : Statement (.engineCommandComplete a0) := of_none rfl
theorem Encoded.promiseExpiry a0 : Statement (.promiseExpiry a0) := of_none rfl
theorem Encoded.streamSlotStart a0 a1 : Statement (.streamSlotStart a0 a1) := of_none rfl
theorem Encoded.streamSlotComplete a0 a1 : Statement (.streamSlotComplete a0 a1) := of_none rfl
theorem Encoded.maprFillComplete a0 a1 : Statement (.maprFillComplete a0 a1) := of_none rfl
theorem Encoded.chunkFillComplete a0 a1 a2 a3 : Statement (.chunkFillComplete a0 a1 a2 a3) := of_none rfl
theorem Encoded.trapEntry a0 : Statement (.trapEntry a0) := of_none rfl
theorem Encoded.pendingTrapTake a0 : Statement (.pendingTrapTake a0) := of_none rfl
theorem Encoded.ctxcmdResume a0 a1 : Statement (.ctxcmdResume a0 a1) := of_none rfl
theorem Encoded.ctxcmdAbort a0 a1 : Statement (.ctxcmdAbort a0 a1) := of_none rfl
theorem Encoded.preemptRequest a0 : Statement (.preemptRequest a0) := of_none rfl
theorem Encoded.strandSave a0 : Statement (.strandSave a0) := of_none rfl
theorem Encoded.drainBoundExpiry a0 : Statement (.drainBoundExpiry a0) := of_none rfl
theorem Encoded.strandRestore a0 a1 : Statement (.strandRestore a0 a1) := of_none rfl
theorem Encoded.strandRelease a0 : Statement (.strandRelease a0) := of_none rfl
theorem Encoded.launchComplete a0 a1 a2 : Statement (.launchComplete a0 a1 a2) := of_none rfl
theorem Encoded.lqcfgWrite a0 a1 a2 : Statement (.lqcfgWrite a0 a1 a2) := of_none rfl
theorem Encoded.lqnotifyWrite a0 a1 a2 : Statement (.lqnotifyWrite a0 a1 a2) := of_none rfl
theorem Encoded.launchRecordRead a0 a1 : Statement (.launchRecordRead a0 a1) := of_none rfl
theorem Encoded.launchWaitPoll a0 a1 a2 : Statement (.launchWaitPoll a0 a1 a2) := of_none rfl
theorem Encoded.groupDispatch a0 a1 a2 : Statement (.groupDispatch a0 a1 a2) := of_none rfl
theorem Encoded.launchStarvationTimeout a0 a1 a2 : Statement (.launchStarvationTimeout a0 a1 a2) := of_none rfl
theorem Encoded.lcancelWrite a0 a1 : Statement (.lcancelWrite a0 a1) := of_none rfl
theorem Encoded.clusterLend a0 a1 : Statement (.clusterLend a0 a1) := of_none rfl
theorem Encoded.borrowIdleTimeout a0 : Statement (.borrowIdleTimeout a0) := of_none rfl
theorem Encoded.clusterReclaim a0 : Statement (.clusterReclaim a0) := of_none rfl
theorem Encoded.reclaimPhase1Timeout a0 : Statement (.reclaimPhase1Timeout a0) := of_none rfl
theorem Encoded.contractAdmit a0 a1 : Statement (.contractAdmit a0 a1) := of_none rfl
theorem Encoded.contractRemove a0 a1 : Statement (.contractRemove a0 a1) := of_none rfl
theorem Encoded.jobRelease a0 a1 : Statement (.jobRelease a0 a1) := of_none rfl
theorem Encoded.contractOverrun a0 a1 : Statement (.contractOverrun a0 a1) := of_none rfl
theorem Encoded.deadlineMiss a0 a1 : Statement (.deadlineMiss a0 a1) := of_none rfl
theorem Encoded.gangReady a0 : Statement (.gangReady a0) := of_none rfl
theorem Encoded.gready a0 a1 : Statement (.gready a0 a1) := of_none rfl
theorem Encoded.gabort a0 a1 : Statement (.gabort a0 a1) := of_none rfl
theorem Encoded.gangTimeout a0 : Statement (.gangTimeout a0) := of_none rfl
theorem Encoded.eventRingOverflow a0 : Statement (.eventRingOverflow a0) := of_none rfl
theorem Encoded.prqconsWrite a0 a1 : Statement (.prqconsWrite a0 a1) := of_none rfl
theorem Encoded.evconsWrite a0 a1 : Statement (.evconsWrite a0 a1) := of_none rfl
theorem Encoded.fevconsWrite a0 : Statement (.fevconsWrite a0) := of_none rfl
theorem Encoded.s1rootWrite a0 a1 : Statement (.s1rootWrite a0 a1) := of_none rfl
theorem Encoded.s1invAll a0 : Statement (.s1invAll a0) := of_none rfl
theorem Encoded.s1invPage a0 a1 : Statement (.s1invPage a0 a1) := of_none rfl
theorem Encoded.s1InvalidationComplete a0 : Statement (.s1InvalidationComplete a0) := of_none rfl
theorem Encoded.contextReset a0 a1 : Statement (.contextReset a0 a1) := of_none rfl
theorem Encoded.queueReset a0 a1 : Statement (.queueReset a0 a1) := of_none rfl
theorem Encoded.engineReset a0 : Statement (.engineReset a0) := of_none rfl
theorem Encoded.partitionReset a0 : Statement (.partitionReset a0) := of_none rfl
theorem Encoded.deviceReset : Statement (.deviceReset) := of_none rfl
theorem Encoded.resetRungTimeout a0 a1 : Statement (.resetRungTimeout a0 a1) := of_none rfl
theorem Encoded.vfFunctionLevelReset a0 : Statement (.vfFunctionLevelReset a0) := of_none rfl
theorem Encoded.pf0FunctionLevelReset : Statement (.pf0FunctionLevelReset) := of_none rfl
theorem Encoded.memclsWrite a0 a1 : Statement (.memclsWrite a0 a1) := of_none rfl
theorem Encoded.misscntRead a0 a1 a2 : Statement (.misscntRead a0 a1 a2) := of_none rfl
theorem Encoded.dielinkTagFail a0 : Statement (.dielinkTagFail a0) := of_none rfl
theorem Encoded.dielinkRetrain a0 : Statement (.dielinkRetrain a0) := of_none rfl
theorem Encoded.dieIsolationTimeout a0 : Statement (.dieIsolationTimeout a0) := of_none rfl
theorem Encoded.matchingBoundary a0 : Statement (.matchingBoundary a0) := of_none rfl
theorem Encoded.beacon a0 a1 : Statement (.beacon a0 a1) := of_none rfl
theorem Encoded.beaconLossTimeout a0 : Statement (.beaconLossTimeout a0) := of_none rfl
theorem Encoded.messageRoute a0 : Statement (.messageRoute a0) := of_none rfl
theorem Encoded.dataFlit a0 a1 : Statement (.dataFlit a0 a1) := of_none rfl
theorem Encoded.relayDataFlit a0 a1 a2 : Statement (.relayDataFlit a0 a1 a2) := of_none rfl
theorem Encoded.nack a0 a1 a2 : Statement (.nack a0 a1 a2) := of_none rfl
theorem Encoded.restripe a0 a1 a2 : Statement (.restripe a0 a1 a2) := of_none rfl
theorem Encoded.laserModuleFail a0 a1 : Statement (.laserModuleFail a0 a1) := of_none rfl
theorem Encoded.lossOfLightDeclare a0 a1 : Statement (.lossOfLightDeclare a0 a1) := of_none rfl
theorem Encoded.fabricRequestReceive a0 : Statement (.fabricRequestReceive a0) := of_none rfl
theorem Encoded.fabricCompletion a0 : Statement (.fabricCompletion a0) := of_none rfl
theorem Encoded.fwinWrite a0 a1 a2 : Statement (.fwinWrite a0 a1 a2) := of_none rfl
theorem Encoded.portRetrain a0 : Statement (.portRetrain a0) := of_none rfl
theorem Encoded.retrainAttempt a0 a1 a2 a3 a4 : Statement (.retrainAttempt a0 a1 a2 a3 a4) := of_none rfl
theorem Encoded.tdxInitiate a0 a1 : Statement (.tdxInitiate a0 a1) := of_none rfl
theorem Encoded.tdxAcceptArm a0 a1 : Statement (.tdxAcceptArm a0 a1) := of_none rfl
theorem Encoded.tdxAcceptExpiry a0 : Statement (.tdxAcceptExpiry a0) := of_none rfl
theorem Encoded.tdxAgreementTimeout a0 : Statement (.tdxAgreementTimeout a0) := of_none rfl
theorem Encoded.keyAgreementStep1 a0 a1 : Statement (.keyAgreementStep1 a0 a1) := of_none rfl
theorem Encoded.keyAgreementStep2 a0 a1 : Statement (.keyAgreementStep2 a0 a1) := of_none rfl
theorem Encoded.keyAgreementStep3 a0 a1 : Statement (.keyAgreementStep3 a0 a1) := of_none rfl
theorem Encoded.keyAgreementStep4 a0 a1 : Statement (.keyAgreementStep4 a0 a1) := of_none rfl
theorem Encoded.leaseRequest a0 a1 a2 : Statement (.leaseRequest a0 a1 a2) := of_none rfl
theorem Encoded.leaseAnswer a0 a1 a2 a3 : Statement (.leaseAnswer a0 a1 a2 a3) := of_none rfl
theorem Encoded.leaseAnswerTimeout a0 : Statement (.leaseAnswerTimeout a0) := of_none rfl
theorem Encoded.levict a0 a1 : Statement (.levict a0 a1) := of_none rfl
theorem Encoded.lack a0 : Statement (.lack a0) := of_none rfl
theorem Encoded.lackTimeout a0 : Statement (.lackTimeout a0) := of_none rfl
theorem Encoded.hostApertureAccess a0 a1 : Statement (.hostApertureAccess a0 a1) := of_none rfl
theorem Encoded.getTdispVersion a0 : Statement (.getTdispVersion a0) := of_none rfl
theorem Encoded.getTdispCapabilities a0 : Statement (.getTdispCapabilities a0) := of_none rfl
theorem Encoded.lockInterfaceRequest a0 : Statement (.lockInterfaceRequest a0) := of_none rfl
theorem Encoded.getDeviceInterfaceReport a0 : Statement (.getDeviceInterfaceReport a0) := of_none rfl
theorem Encoded.getDeviceInterfaceState a0 : Statement (.getDeviceInterfaceState a0) := of_none rfl
theorem Encoded.startInterfaceRequest a0 : Statement (.startInterfaceRequest a0) := of_none rfl
theorem Encoded.stopInterfaceRequest a0 : Statement (.stopInterfaceRequest a0) := of_none rfl
theorem Encoded.stage2ChangeRequest a0 a1 : Statement (.stage2ChangeRequest a0 a1) := of_none rfl
theorem Encoded.getVersion a0 : Statement (.getVersion a0) := of_none rfl
theorem Encoded.getCapabilities a0 : Statement (.getCapabilities a0) := of_none rfl
theorem Encoded.negotiateAlgorithms a0 a1 : Statement (.negotiateAlgorithms a0 a1) := of_none rfl
theorem Encoded.getDigests a0 : Statement (.getDigests a0) := of_none rfl
theorem Encoded.getCertificate a0 a1 : Statement (.getCertificate a0 a1) := of_none rfl
theorem Encoded.challenge a0 a1 : Statement (.challenge a0 a1) := of_none rfl
theorem Encoded.getMeasurements a0 a1 : Statement (.getMeasurements a0 a1) := of_none rfl
theorem Encoded.keyExchange a0 a1 : Statement (.keyExchange a0 a1) := of_none rfl
theorem Encoded.finish a0 a1 a2 : Statement (.finish a0 a1 a2) := of_none rfl
theorem Encoded.keyUpdate a0 a1 : Statement (.keyUpdate a0 a1) := of_none rfl
theorem Encoded.heartbeat a0 a1 : Statement (.heartbeat a0 a1) := of_none rfl
theorem Encoded.endSession a0 a1 : Statement (.endSession a0 a1) := of_none rfl
theorem Encoded.ideKm a0 a1 a2 a3 : Statement (.ideKm a0 a1 a2 a3) := of_none rfl
theorem Encoded.powerUp : Statement (.powerUp) := of_none rfl
theorem Encoded.recovctlGo a0 : Statement (.recovctlGo a0) := of_none rfl
theorem Encoded.featctlGo : Statement (.featctlGo) := of_none rfl
theorem Encoded.partitionCreate a0 : Statement (.partitionCreate a0) := of_none rfl
theorem Encoded.partitionDestroy a0 : Statement (.partitionDestroy a0) := of_none rfl
theorem Encoded.rbreqGo a0 : Statement (.rbreqGo a0) := of_none rfl
theorem Encoded.readbackComplete : Statement (.readbackComplete) := of_none rfl
theorem Encoded.powerClamp a0 : Statement (.powerClamp a0) := of_none rfl
theorem Encoded.thermalShutdown : Statement (.thermalShutdown) := of_none rfl
theorem Encoded.registerWrite a0 a1 a2 : Statement (.registerWrite a0 a1 a2) := of_none rfl
theorem Encoded.nop : Statement (.nop) := of_none rfl
theorem Encoded.powerRemoval : Statement (.powerRemoval) := of_none rfl
theorem Encoded.dieLinkDown a0 : Statement (.dieLinkDown a0) := of_none rfl
theorem Encoded.tenantRootKeyProvision a0 a1 a2 : Statement (.tenantRootKeyProvision a0 a1 a2) := of_none rfl

end Sys2Proof.Laws
end

