-- ==== Sys2Proof/Laws/Tables.lean ====
section
/-! SUPPORT. The laws of tables and of byte stores: reading after writing, and the canonical form that every operation keeps. -/

namespace Sys2Proof.Machine

/-! ## Tables -/

theorem rising_iff (l : List Nat) : rising l = true ↔ l.Pairwise (· < ·) := by
  induction l with
  | nil => simp [rising]
  | cons a r ih =>
    cases r with
    | nil => simp [rising]
    | cons b t =>
      simp only [rising, Bool.and_eq_true, decide_eq_true_eq, ih, List.pairwise_cons, List.mem_cons, forall_eq_or_imp]
      constructor
      · rintro ⟨h, hb, ht⟩
        exact ⟨⟨h, fun x hx => Nat.lt_trans h (hb x hx)⟩, hb, ht⟩
      · rintro ⟨⟨h, _⟩, hb, ht⟩
        exact ⟨h, hb, ht⟩

/-- The numbers of a table rise strictly. -/
def Tbl.Rising {α : Type} (t : Tbl α) : Prop := (t.map Prod.fst).Pairwise (· < ·)

theorem Tbl.find_none {α : Type} (t : Tbl α) (k : Nat) (h : ∀ e ∈ t, e.1 ≠ k) : Tbl.find t k = none := by
  induction t with
  | nil => rfl
  | cons e r ih =>
    obtain ⟨j, x⟩ := e
    simp only [Tbl.find, h (j, x) (List.mem_cons_self ..), if_false]
    exact ih fun e he => h e (List.mem_cons_of_mem _ he)

theorem Tbl.find_insert_self {α : Type} (t : Tbl α) (k : Nat) (v : α) : Tbl.find (Tbl.insert t k v) k = some v := by
  induction t with
  | nil => simp [Tbl.insert, Tbl.find]
  | cons e r ih =>
    obtain ⟨j, x⟩ := e
    simp only [Tbl.insert]
    split
    · simp [Tbl.find]
    · split
      · simp [Tbl.find]
      · rename_i h; simp [Tbl.find, Ne.symm h, ih]

theorem Tbl.find_insert_ne {α : Type} (t : Tbl α) (k j : Nat) (v : α) (h : j ≠ k) :
    Tbl.find (Tbl.insert t k v) j = Tbl.find t j := by
  induction t with
  | nil => simp [Tbl.insert, Tbl.find, Ne.symm h]
  | cons e r ih =>
    obtain ⟨i, x⟩ := e
    simp only [Tbl.insert]
    split
    · simp [Tbl.find, Ne.symm h]
    · split
      · rename_i hk; subst hk; simp [Tbl.find, Ne.symm h]
      · simp only [Tbl.find, ih]

/-- Of two replacements of one entry the later stands. -/
theorem Tbl.insert_insert {α : Type} (t : Tbl α) (k : Nat) (v w : α) : Tbl.insert (Tbl.insert t k v) k w = Tbl.insert t k w := by
  induction t with
  | nil => simp [Tbl.insert]
  | cons e r ih =>
    obtain ⟨j, x⟩ := e
    simp only [Tbl.insert]
    split
    · simp [Tbl.insert]
    · split
      · simp [Tbl.insert]
      · rename_i h1 h2
        simp only [Tbl.insert, if_neg h1, if_neg h2, ih]

theorem Tbl.find_erase_self {α : Type} (t : Tbl α) (k : Nat) : Tbl.find (Tbl.erase t k) k = none :=
  Tbl.find_none _ _ fun e he => by simpa [Tbl.erase] using (List.mem_filter.mp he).2

theorem Tbl.find_erase_ne {α : Type} (t : Tbl α) (k j : Nat) (h : j ≠ k) : Tbl.find (Tbl.erase t k) j = Tbl.find t j := by
  induction t with
  | nil => rfl
  | cons e r ih =>
    obtain ⟨i, x⟩ := e
    simp only [Tbl.erase] at ih ⊢
    by_cases hi : i = k
    · subst hi; simpa [Tbl.find, Ne.symm h] using ih
    · simp [hi, Tbl.find, ih]

theorem Tbl.getD_put_self {α : Type} [DecidableEq α] (d : α) (t : Tbl α) (k : Nat) (v : α) :
    Tbl.getD (Tbl.put d t k v) k d = v := by
  unfold Tbl.put Tbl.getD
  split
  · rename_i h; simp [Tbl.find_erase_self, h]
  · simp [Tbl.find_insert_self]

theorem Tbl.getD_put_ne {α : Type} [DecidableEq α] (d : α) (t : Tbl α) (k j : Nat) (v : α) (h : j ≠ k) :
    Tbl.getD (Tbl.put d t k v) j d = Tbl.getD t j d := by
  unfold Tbl.put Tbl.getD
  split
  · rw [Tbl.find_erase_ne _ _ _ h]
  · rw [Tbl.find_insert_ne _ _ _ _ h]

theorem Tbl.mem_insert {α : Type} (t : Tbl α) (k : Nat) (v : α) (e : Nat × α) (h : e ∈ Tbl.insert t k v) :
    e = (k, v) ∨ e ∈ t := by
  induction t with
  | nil => simpa [Tbl.insert] using h
  | cons x r ih =>
    obtain ⟨j, y⟩ := x
    simp only [Tbl.insert] at h
    split at h
    · simpa using h
    · split at h
      · rcases List.mem_cons.mp h with h | h
        · exact .inl h
        · exact .inr (List.mem_cons_of_mem _ h)
      · rcases List.mem_cons.mp h with h | h
        · exact .inr (h ▸ List.mem_cons_self ..)
        · exact (ih h).imp id (List.mem_cons_of_mem _)

theorem Tbl.rising_insert {α : Type} (t : Tbl α) (k : Nat) (v : α) (h : t.Rising) : (Tbl.insert t k v).Rising := by
  induction t with
  | nil => simp [Tbl.insert, Tbl.Rising]
  | cons x r ih =>
    obtain ⟨j, y⟩ := x
    simp only [Tbl.Rising, List.map_cons, List.pairwise_cons, List.mem_map, forall_exists_index, and_imp,
      forall_apply_eq_imp_iff₂] at h
    simp only [Tbl.insert]
    split
    · rename_i hk
      simp only [Tbl.Rising, List.map_cons, List.pairwise_cons, List.mem_cons, List.mem_map, forall_eq_or_imp]
      refine ⟨⟨hk, ?_⟩, ?_, h.2⟩
      · rintro a ⟨e, he, rfl⟩; exact Nat.lt_trans hk (h.1 e he)
      · rintro a ⟨e, he, rfl⟩; exact h.1 e he
    · split
      · rename_i _ hk; subst hk
        simp only [Tbl.Rising, List.map_cons, List.pairwise_cons, List.mem_map]
        exact ⟨by rintro a ⟨e, he, rfl⟩; exact h.1 e he, h.2⟩
      · simp only [Tbl.Rising, List.map_cons, List.pairwise_cons, List.mem_map]
        refine ⟨?_, ih h.2⟩
        rintro a ⟨e, he, rfl⟩
        rcases Tbl.mem_insert _ _ _ _ he with rfl | he
        · simp only; omega
        · exact h.1 e he

theorem Tbl.rising_filter {α : Type} (t : Tbl α) (p : Nat × α → Bool) (h : t.Rising) : Tbl.Rising (t.filter p) :=
  h.sublist (List.filter_sublist.map _)

/-! ## Byte stores -/

theorem Mem.wf_iff (m : Mem) : m.wf = true ↔ Tbl.Rising m ∧ ∀ c ∈ m, c.2 ≠ 0 := by
  simp [Mem.wf, rising_iff, Tbl.Rising]

/-- A read after a write of the same byte. -/
@[simp] theorem Mem.read_write_self (m : Mem) (a : Nat) (b : Byte) : Mem.read (Mem.write m a b) a = b :=
  Tbl.getD_put_self 0 m a b

/-- A write leaves every other byte. -/
theorem Mem.read_write_ne (m : Mem) (a j : Nat) (b : Byte) (h : j ≠ a) : Mem.read (Mem.write m a b) j = Mem.read m j :=
  Tbl.getD_put_ne 0 m a j b h

theorem Mem.wf_filter (m : Mem) (p : Host.Cell → Bool) (h : m.wf = true) : Mem.wf (m.filter p) = true := by
  rw [Mem.wf_iff] at h ⊢
  exact ⟨Tbl.rising_filter _ _ h.1, fun c hc => h.2 c ((List.mem_filter.mp hc).1)⟩

/-- Writing a byte keeps the canonical form. -/
theorem Mem.wf_write (m : Mem) (a : Nat) (b : Byte) (h : m.wf = true) : (Mem.write m a b).wf = true := by
  unfold Mem.write Tbl.put
  split
  · exact Mem.wf_filter m _ h
  · rename_i hb
    rw [Mem.wf_iff] at h ⊢
    refine ⟨Tbl.rising_insert _ _ _ h.1, fun c hc => ?_⟩
    rcases Tbl.mem_insert _ _ _ _ hc with rfl | hc
    · exact hb
    · exact h.2 c hc

/-- Writing bytes keeps the canonical form. -/
theorem Mem.wf_writeN (l : List Byte) : ∀ (m : Mem) (a : Nat), m.wf = true → (Mem.writeN m a l).wf = true := by
  induction l with
  | nil => intro m a h; exact h
  | cons b r ih => intro m a h; exact ih _ _ (Mem.wf_write m a b h)

/-- Writing some bytes keeps the canonical form. -/
theorem Mem.wf_writeMasked (l : List (Option Byte)) : ∀ (m : Mem) (a : Nat), m.wf = true → (Mem.writeMasked m a l).wf = true := by
  induction l with
  | nil => intro m a h; exact h
  | cons b r ih =>
    intro m a h
    cases b with
    | none => exact ih _ _ h
    | some b => exact ih _ _ (Mem.wf_write m a b h)

/-- Zeroing a range keeps the canonical form. -/
theorem Mem.wf_zero (m : Mem) (a n : Nat) (h : m.wf = true) : (Mem.zero m a n).wf = true := Mem.wf_filter m _ h

/-- A fold of operations that keep the canonical form keeps it. -/
theorem Mem.wf_foldl {β : Type} (f : Mem → β → Mem) (hf : ∀ m x, m.wf = true → (f m x).wf = true) (l : List β) :
    ∀ m : Mem, m.wf = true → (l.foldl f m).wf = true := by
  induction l with
  | nil => intro m h; exact h
  | cons x r ih => intro m h; exact ih _ (hf m x h)

/-- Bytes outside the range written read as before. -/
theorem Mem.read_writeN_outside (l : List Byte) :
    ∀ (m : Mem) (a j : Nat), (j < a ∨ a + l.length ≤ j) → Mem.read (Mem.writeN m a l) j = Mem.read m j := by
  induction l with
  | nil => intro m a j _; rfl
  | cons b r ih =>
    intro m a j h
    have h' : j < a ∨ a + (r.length + 1) ≤ j := by simpa using h
    rw [Mem.writeN, ih _ _ _ (by omega), Mem.read_write_ne _ _ _ _ (by omega)]

/-- Byte `i` of the bytes written reads back. -/
theorem Mem.read_writeN_inside (l : List Byte) :
    ∀ (m : Mem) (a i : Nat) (h : i < l.length), Mem.read (Mem.writeN m a l) (a + i) = l[i] := by
  induction l with
  | nil => intro m a i h; simp at h
  | cons b r ih =>
    intro m a i h
    cases i with
    | zero => rw [Mem.writeN, Mem.read_writeN_outside _ _ _ _ (by omega)]; simp
    | succ i =>
      have := ih (Mem.write m a b) (a + 1) i (by simpa using h)
      simpa [Mem.writeN, Nat.add_assoc, Nat.add_comm 1] using this

/-! ## Runs of bytes -/

/-- A pair of lists of addresses: rising, and the first below the second. -/
theorem Tbl.rising_append {α : Type} (t u : Tbl α) (a : Nat) (ht : t.Rising) (hu : u.Rising) (hl : ∀ e ∈ t, e.1 < a) (hr : ∀ e ∈ u, a ≤ e.1) :
    Tbl.Rising (t ++ u) := by
  simp only [Tbl.Rising, List.map_append, List.pairwise_append]
  refine ⟨ht, hu, ?_⟩
  simp only [List.mem_map, forall_exists_index, and_imp]
  rintro x e he rfl y f hf rfl
  exact Nat.lt_of_lt_of_le (hl e he) (hr f hf)

theorem rising_zipIdx (b : List Byte) : ∀ a : Nat, Tbl.Rising ((b.zipIdx a).map fun e => (e.2, e.1)) := by
  induction b with
  | nil => intro a; simp [Tbl.Rising]
  | cons x r ih =>
    intro a
    have := ih (a + 1)
    simp only [List.zipIdx_cons, Tbl.Rising, List.map_cons, List.pairwise_cons] at this ⊢
    refine ⟨?_, this⟩
    simp only [List.mem_map, forall_exists_index, and_imp]
    rintro y e f hf rfl rfl
    have := (List.mem_zipIdx hf).1
    simp only; omega

theorem mem_zipIdx_range {b : List Byte} {a : Nat} {c : Host.Cell} (h : c ∈ (b.zipIdx a).map fun e => ((e.2, e.1) : Host.Cell)) :
    a ≤ c.1 ∧ c.1 < a + b.length := by
  obtain ⟨e, he, rfl⟩ := List.mem_map.mp h
  have := List.mem_zipIdx he
  simp only; omega

/-- A run of bytes written over a store keeps the canonical form. -/
theorem Mem.wf_splice (m : Mem) (a : Nat) (b : List Byte) (h : m.wf = true) : (Mem.splice m a b).wf = true := by
  rw [Mem.wf_iff] at h ⊢
  have mid : Tbl.Rising (((b.zipIdx a).map fun e => ((e.2, e.1) : Host.Cell)).filter fun c => c.2 != 0) := Tbl.rising_filter _ _ (rising_zipIdx b a)
  refine ⟨?_, ?_⟩
  · refine Tbl.rising_append _ _ (a + b.length) (Tbl.rising_append _ _ a (Tbl.rising_filter _ _ h.1) mid ?_ ?_) (Tbl.rising_filter _ _ h.1) ?_ ?_
    · intro e he; simpa using (List.mem_filter.mp he).2
    · intro e he; exact (mem_zipIdx_range (List.mem_filter.mp he).1).1
    · intro e he
      rcases List.mem_append.mp he with he | he
      · have : e.1 < a := by simpa using (List.mem_filter.mp he).2
        omega
      · exact (mem_zipIdx_range (List.mem_filter.mp he).1).2
    · intro e he; simpa using (List.mem_filter.mp he).2
  · intro c hc
    simp only [Mem.splice, List.mem_append, List.mem_filter] at hc
    rcases hc with (hc | hc) | hc
    · exact h.2 c hc.1
    · simpa using hc.2
    · exact h.2 c hc.1

theorem Mem.read_cons_lt (j : Nat) (b : Byte) (r : Mem) (k : Nat) (h : k < j) (hr : Tbl.Rising ((j, b) :: r)) : Mem.read ((j, b) :: r) k = 0 := by
  unfold Mem.read Tbl.getD
  rw [Tbl.find_none]
  · rfl
  · intro e he
    rcases List.mem_cons.mp he with rfl | he
    · simp only; omega
    · simp only [Tbl.Rising, List.map_cons, List.pairwise_cons, List.mem_map, forall_exists_index, and_imp, forall_apply_eq_imp_iff₂] at hr
      have := hr.1 e he
      omega

theorem Mem.runFrom_eq (m : Mem) (n : Nat) : ∀ a, Tbl.Rising m → (∀ c ∈ m, a ≤ c.1) → Mem.runFrom m a n = Mem.readN m a n := by
  induction n generalizing m with
  | zero => intro a _ _; cases m <;> rfl
  | succ n ih =>
    intro a hm ha
    rw [Mem.readN, List.range_succ_eq_map, List.map_cons, List.map_map]
    have tail : ∀ k : Mem, ((fun k' => Mem.read k (a + k')) ∘ Nat.succ) = fun k' => Mem.read k (a + 1 + k') := by
      intro k; funext x; simp only [Function.comp, Nat.succ_eq_add_one]; congr 1; omega
    rw [tail]
    cases m with
    | nil =>
      rw [Mem.runFrom, ih _ _ hm (by simp)]; rfl
    | cons e r =>
      obtain ⟨j, b⟩ := e
      have hr : Tbl.Rising r := by simp only [Tbl.Rising, List.map_cons, List.pairwise_cons] at hm; exact hm.2
      have hj : ∀ c ∈ r, j < c.1 := by
        simp only [Tbl.Rising, List.map_cons, List.pairwise_cons, List.mem_map, forall_exists_index, and_imp, forall_apply_eq_imp_iff₂] at hm
        exact hm.1
      have h0 : a ≤ j := ha _ (List.mem_cons_self ..)
      rw [Mem.runFrom]
      split
      · rename_i hja
        subst hja
        rw [ih r _ hr fun c hc => hj c hc]
        congr 1
        · simp [Mem.read, Tbl.getD, Tbl.find]
        · refine List.map_congr_left fun k _ => ?_
          simp only [Mem.read, Tbl.getD, Tbl.find]
          rw [if_neg (by omega)]
      · rw [ih ((j, b) :: r) _ hm fun c hc => ?_]
        · congr 1
          exact (Mem.read_cons_lt j b r _ (by omega) hm).symm
        · rcases List.mem_cons.mp hc with rfl | hc
          · simp only; omega
          · have := hj c hc; omega

theorem Tbl.find_filter {α : Type} (t : Tbl α) (p : Nat × α → Bool) (k : Nat) (h : ∀ v, p (k, v) = true) : Tbl.find (t.filter p) k = Tbl.find t k := by
  induction t with
  | nil => rfl
  | cons e r ih =>
    obtain ⟨j, x⟩ := e
    by_cases hj : j = k
    · subst hj; simp [h, Tbl.find]
    · by_cases hp : p (j, x) = true
      · simp [hp, Tbl.find, hj, ih]
      · simp [hp, Tbl.find, hj, ih]

/-- In the canonical form, a run of bytes is what is read byte by byte. -/
theorem Mem.run_eq (m : Mem) (a n : Nat) (h : m.wf = true) : Mem.run m a n = Mem.readN m a n := by
  rw [Mem.run, Mem.runFrom_eq]
  · refine List.map_congr_left fun k _ => ?_
    unfold Mem.read Tbl.getD
    rw [Tbl.find_filter]
    intro v; simp
  · exact Tbl.rising_filter _ _ ((Mem.wf_iff m).mp h).1
  · intro c hc; simpa using (List.mem_filter.mp hc).2

/-- Memory at reset is canonical. -/
theorem reset_mem_wf : State.reset.mem.wf = true ∧ State.reset.hostMem.wf = true := by decide

end Sys2Proof.Machine
end

