-- ==== Sys2Proof/Laws/State.lean ====
section
/-! SUPPORT. One lemma per field and update: what an update of the state or of a strand leaves as it was, so that no proof unfolds a
record update. -/

namespace Sys2Proof.Machine

/-! ## setStrand -/

@[simp] theorem State.setStrand_power (s : State) (k : Nat) (x : Strand) : (s.setStrand k x).power = s.power := rfl
@[simp] theorem State.setStrand_agenda (s : State) (k : Nat) (x : Strand) : (s.setStrand k x).agenda = s.agenda := rfl
@[simp] theorem State.setStrand_turn (s : State) (k : Nat) (x : Strand) : (s.setStrand k x).turn = s.turn := rfl
@[simp] theorem State.setStrand_cur (s : State) (k : Nat) (x : Strand) : (s.setStrand k x).cur = s.cur := rfl
@[simp] theorem State.setStrand_free (s : State) (k : Nat) (x : Strand) : (s.setStrand k x).free = s.free := rfl
@[simp] theorem State.setStrand_nextId (s : State) (k : Nat) (x : Strand) : (s.setStrand k x).nextId = s.nextId := rfl
@[simp] theorem State.setStrand_clk (s : State) (k : Nat) (x : Strand) : (s.setStrand k x).clk = s.clk := rfl
@[simp] theorem State.setStrand_lskew (s : State) (k : Nat) (x : Strand) : (s.setStrand k x).lskew = s.lskew := rfl
@[simp] theorem State.setStrand_cores (s : State) (k : Nat) (x : Strand) : (s.setStrand k x).cores = s.cores := rfl
@[simp] theorem State.setStrand_clusters (s : State) (k : Nat) (x : Strand) : (s.setStrand k x).clusters = s.clusters := rfl
@[simp] theorem State.setStrand_groups (s : State) (k : Nat) (x : Strand) : (s.setStrand k x).groups = s.groups := rfl
@[simp] theorem State.setStrand_nextTag (s : State) (k : Nat) (x : Strand) : (s.setStrand k x).nextTag = s.nextTag := rfl
@[simp] theorem State.setStrand_saves (s : State) (k : Nat) (x : Strand) : (s.setStrand k x).saves = s.saves := rfl
@[simp] theorem State.setStrand_areas (s : State) (k : Nat) (x : Strand) : (s.setStrand k x).areas = s.areas := rfl
@[simp] theorem State.setStrand_launches (s : State) (k : Nat) (x : Strand) : (s.setStrand k x).launches = s.launches := rfl
@[simp] theorem State.setStrand_lastLq (s : State) (k : Nat) (x : Strand) : (s.setStrand k x).lastLq = s.lastLq := rfl
@[simp] theorem State.setStrand_lastDisp (s : State) (k : Nat) (x : Strand) : (s.setStrand k x).lastDisp = s.lastDisp := rfl
@[simp] theorem State.setStrand_parts (s : State) (k : Nat) (x : Strand) : (s.setStrand k x).parts = s.parts := rfl
@[simp] theorem State.setStrand_gangs (s : State) (k : Nat) (x : Strand) : (s.setStrand k x).gangs = s.gangs := rfl
@[simp] theorem State.setStrand_reqs (s : State) (k : Nat) (x : Strand) : (s.setStrand k x).reqs = s.reqs := rfl
@[simp] theorem State.setStrand_cmds (s : State) (k : Nat) (x : Strand) : (s.setStrand k x).cmds = s.cmds := rfl
@[simp] theorem State.setStrand_posts (s : State) (k : Nat) (x : Strand) : (s.setStrand k x).posts = s.posts := rfl
@[simp] theorem State.setStrand_faults (s : State) (k : Nat) (x : Strand) : (s.setStrand k x).faults = s.faults := rfl
@[simp] theorem State.setStrand_preqs (s : State) (k : Nat) (x : Strand) : (s.setStrand k x).preqs = s.preqs := rfl
@[simp] theorem State.setStrand_mem (s : State) (k : Nat) (x : Strand) : (s.setStrand k x).mem = s.mem := rfl
@[simp] theorem State.setStrand_hostMem (s : State) (k : Nat) (x : Strand) : (s.setStrand k x).hostMem = s.hostMem := rfl
@[simp] theorem State.setStrand_majors (s : State) (k : Nat) (x : Strand) : (s.setStrand k x).majors = s.majors := rfl
@[simp] theorem State.setStrand_pages (s : State) (k : Nat) (x : Strand) : (s.setStrand k x).pages = s.pages := rfl
@[simp] theorem State.setStrand_keys (s : State) (k : Nat) (x : Strand) : (s.setStrand k x).keys = s.keys := rfl
@[simp] theorem State.setStrand_poison (s : State) (k : Nat) (x : Strand) : (s.setStrand k x).poison = s.poison := rfl
@[simp] theorem State.setStrand_rewrites (s : State) (k : Nat) (x : Strand) : (s.setStrand k x).rewrites = s.rewrites := rfl
@[simp] theorem State.setStrand_owed (s : State) (k : Nat) (x : Strand) : (s.setStrand k x).owed = s.owed := rfl
@[simp] theorem State.setStrand_misscnt (s : State) (k : Nat) (x : Strand) : (s.setStrand k x).misscnt = s.misscnt := rfl
@[simp] theorem State.setStrand_rungs (s : State) (k : Nat) (x : Strand) : (s.setStrand k x).rungs = s.rungs := rfl
@[simp] theorem State.setStrand_sealCnt (s : State) (k : Nat) (x : Strand) : (s.setStrand k x).sealCnt = s.sealCnt := rfl
@[simp] theorem State.setStrand_ports (s : State) (k : Nat) (x : Strand) : (s.setStrand k x).ports = s.ports := rfl
@[simp] theorem State.setStrand_peerSched (s : State) (k : Nat) (x : Strand) : (s.setStrand k x).peerSched = s.peerSched := rfl
@[simp] theorem State.setStrand_msgs (s : State) (k : Nat) (x : Strand) : (s.setStrand k x).msgs = s.msgs := rfl
@[simp] theorem State.setStrand_relayBuf (s : State) (k : Nat) (x : Strand) : (s.setStrand k x).relayBuf = s.relayBuf := rfl
@[simp] theorem State.setStrand_links (s : State) (k : Nat) (x : Strand) : (s.setStrand k x).links = s.links := rfl
@[simp] theorem State.setStrand_dieRoutes (s : State) (k : Nat) (x : Strand) : (s.setStrand k x).dieRoutes = s.dieRoutes := rfl
@[simp] theorem State.setStrand_fwin (s : State) (k : Nat) (x : Strand) : (s.setStrand k x).fwin = s.fwin := rfl
@[simp] theorem State.setStrand_accepts (s : State) (k : Nat) (x : Strand) : (s.setStrand k x).accepts = s.accepts := rfl
@[simp] theorem State.setStrand_far (s : State) (k : Nat) (x : Strand) : (s.setStrand k x).far = s.far := rfl
@[simp] theorem State.setStrand_linkKeys (s : State) (k : Nat) (x : Strand) : (s.setStrand k x).linkKeys = s.linkKeys := rfl
@[simp] theorem State.setStrand_linkRuns (s : State) (k : Nat) (x : Strand) : (s.setStrand k x).linkRuns = s.linkRuns := rfl
@[simp] theorem State.setStrand_leases (s : State) (k : Nat) (x : Strand) : (s.setStrand k x).leases = s.leases := rfl
@[simp] theorem State.setStrand_xmss (s : State) (k : Nat) (x : Strand) : (s.setStrand k x).xmss = s.xmss := rfl
@[simp] theorem State.setStrand_spdm (s : State) (k : Nat) (x : Strand) : (s.setStrand k x).spdm = s.spdm := rfl
@[simp] theorem State.setStrand_ide (s : State) (k : Nat) (x : Strand) : (s.setStrand k x).ide = s.ide := rfl
@[simp] theorem State.setStrand_mgmt (s : State) (k : Nat) (x : Strand) : (s.setStrand k x).mgmt = s.mgmt := rfl
@[simp] theorem State.setStrand_lantern (s : State) (k : Nat) (x : Strand) : (s.setStrand k x).lantern = s.lantern := rfl
@[simp] theorem State.setStrand_answer (s : State) (k : Nat) (x : Strand) : (s.setStrand k x).answer = s.answer := rfl

/-! ## setMe -/

@[simp] theorem State.setMe_power (s : State) (x : Strand) : (s.setMe x).power = s.power := rfl
@[simp] theorem State.setMe_agenda (s : State) (x : Strand) : (s.setMe x).agenda = s.agenda := rfl
@[simp] theorem State.setMe_turn (s : State) (x : Strand) : (s.setMe x).turn = s.turn := rfl
@[simp] theorem State.setMe_cur (s : State) (x : Strand) : (s.setMe x).cur = s.cur := rfl
@[simp] theorem State.setMe_free (s : State) (x : Strand) : (s.setMe x).free = s.free := rfl
@[simp] theorem State.setMe_nextId (s : State) (x : Strand) : (s.setMe x).nextId = s.nextId := rfl
@[simp] theorem State.setMe_clk (s : State) (x : Strand) : (s.setMe x).clk = s.clk := rfl
@[simp] theorem State.setMe_lskew (s : State) (x : Strand) : (s.setMe x).lskew = s.lskew := rfl
@[simp] theorem State.setMe_cores (s : State) (x : Strand) : (s.setMe x).cores = s.cores := rfl
@[simp] theorem State.setMe_clusters (s : State) (x : Strand) : (s.setMe x).clusters = s.clusters := rfl
@[simp] theorem State.setMe_groups (s : State) (x : Strand) : (s.setMe x).groups = s.groups := rfl
@[simp] theorem State.setMe_nextTag (s : State) (x : Strand) : (s.setMe x).nextTag = s.nextTag := rfl
@[simp] theorem State.setMe_saves (s : State) (x : Strand) : (s.setMe x).saves = s.saves := rfl
@[simp] theorem State.setMe_areas (s : State) (x : Strand) : (s.setMe x).areas = s.areas := rfl
@[simp] theorem State.setMe_launches (s : State) (x : Strand) : (s.setMe x).launches = s.launches := rfl
@[simp] theorem State.setMe_lastLq (s : State) (x : Strand) : (s.setMe x).lastLq = s.lastLq := rfl
@[simp] theorem State.setMe_lastDisp (s : State) (x : Strand) : (s.setMe x).lastDisp = s.lastDisp := rfl
@[simp] theorem State.setMe_parts (s : State) (x : Strand) : (s.setMe x).parts = s.parts := rfl
@[simp] theorem State.setMe_gangs (s : State) (x : Strand) : (s.setMe x).gangs = s.gangs := rfl
@[simp] theorem State.setMe_reqs (s : State) (x : Strand) : (s.setMe x).reqs = s.reqs := rfl
@[simp] theorem State.setMe_cmds (s : State) (x : Strand) : (s.setMe x).cmds = s.cmds := rfl
@[simp] theorem State.setMe_posts (s : State) (x : Strand) : (s.setMe x).posts = s.posts := rfl
@[simp] theorem State.setMe_faults (s : State) (x : Strand) : (s.setMe x).faults = s.faults := rfl
@[simp] theorem State.setMe_preqs (s : State) (x : Strand) : (s.setMe x).preqs = s.preqs := rfl
@[simp] theorem State.setMe_mem (s : State) (x : Strand) : (s.setMe x).mem = s.mem := rfl
@[simp] theorem State.setMe_hostMem (s : State) (x : Strand) : (s.setMe x).hostMem = s.hostMem := rfl
@[simp] theorem State.setMe_majors (s : State) (x : Strand) : (s.setMe x).majors = s.majors := rfl
@[simp] theorem State.setMe_pages (s : State) (x : Strand) : (s.setMe x).pages = s.pages := rfl
@[simp] theorem State.setMe_keys (s : State) (x : Strand) : (s.setMe x).keys = s.keys := rfl
@[simp] theorem State.setMe_poison (s : State) (x : Strand) : (s.setMe x).poison = s.poison := rfl
@[simp] theorem State.setMe_rewrites (s : State) (x : Strand) : (s.setMe x).rewrites = s.rewrites := rfl
@[simp] theorem State.setMe_owed (s : State) (x : Strand) : (s.setMe x).owed = s.owed := rfl
@[simp] theorem State.setMe_misscnt (s : State) (x : Strand) : (s.setMe x).misscnt = s.misscnt := rfl
@[simp] theorem State.setMe_rungs (s : State) (x : Strand) : (s.setMe x).rungs = s.rungs := rfl
@[simp] theorem State.setMe_sealCnt (s : State) (x : Strand) : (s.setMe x).sealCnt = s.sealCnt := rfl
@[simp] theorem State.setMe_ports (s : State) (x : Strand) : (s.setMe x).ports = s.ports := rfl
@[simp] theorem State.setMe_peerSched (s : State) (x : Strand) : (s.setMe x).peerSched = s.peerSched := rfl
@[simp] theorem State.setMe_msgs (s : State) (x : Strand) : (s.setMe x).msgs = s.msgs := rfl
@[simp] theorem State.setMe_relayBuf (s : State) (x : Strand) : (s.setMe x).relayBuf = s.relayBuf := rfl
@[simp] theorem State.setMe_links (s : State) (x : Strand) : (s.setMe x).links = s.links := rfl
@[simp] theorem State.setMe_dieRoutes (s : State) (x : Strand) : (s.setMe x).dieRoutes = s.dieRoutes := rfl
@[simp] theorem State.setMe_fwin (s : State) (x : Strand) : (s.setMe x).fwin = s.fwin := rfl
@[simp] theorem State.setMe_accepts (s : State) (x : Strand) : (s.setMe x).accepts = s.accepts := rfl
@[simp] theorem State.setMe_far (s : State) (x : Strand) : (s.setMe x).far = s.far := rfl
@[simp] theorem State.setMe_linkKeys (s : State) (x : Strand) : (s.setMe x).linkKeys = s.linkKeys := rfl
@[simp] theorem State.setMe_linkRuns (s : State) (x : Strand) : (s.setMe x).linkRuns = s.linkRuns := rfl
@[simp] theorem State.setMe_leases (s : State) (x : Strand) : (s.setMe x).leases = s.leases := rfl
@[simp] theorem State.setMe_xmss (s : State) (x : Strand) : (s.setMe x).xmss = s.xmss := rfl
@[simp] theorem State.setMe_spdm (s : State) (x : Strand) : (s.setMe x).spdm = s.spdm := rfl
@[simp] theorem State.setMe_ide (s : State) (x : Strand) : (s.setMe x).ide = s.ide := rfl
@[simp] theorem State.setMe_mgmt (s : State) (x : Strand) : (s.setMe x).mgmt = s.mgmt := rfl
@[simp] theorem State.setMe_lantern (s : State) (x : Strand) : (s.setMe x).lantern = s.lantern := rfl
@[simp] theorem State.setMe_answer (s : State) (x : Strand) : (s.setMe x).answer = s.answer := rfl

/-! ## onMe -/

@[simp] theorem State.onMe_power (s : State) (f : Strand → Strand) : (s.onMe f).power = s.power := rfl
@[simp] theorem State.onMe_agenda (s : State) (f : Strand → Strand) : (s.onMe f).agenda = s.agenda := rfl
@[simp] theorem State.onMe_turn (s : State) (f : Strand → Strand) : (s.onMe f).turn = s.turn := rfl
@[simp] theorem State.onMe_cur (s : State) (f : Strand → Strand) : (s.onMe f).cur = s.cur := rfl
@[simp] theorem State.onMe_free (s : State) (f : Strand → Strand) : (s.onMe f).free = s.free := rfl
@[simp] theorem State.onMe_nextId (s : State) (f : Strand → Strand) : (s.onMe f).nextId = s.nextId := rfl
@[simp] theorem State.onMe_clk (s : State) (f : Strand → Strand) : (s.onMe f).clk = s.clk := rfl
@[simp] theorem State.onMe_lskew (s : State) (f : Strand → Strand) : (s.onMe f).lskew = s.lskew := rfl
@[simp] theorem State.onMe_cores (s : State) (f : Strand → Strand) : (s.onMe f).cores = s.cores := rfl
@[simp] theorem State.onMe_clusters (s : State) (f : Strand → Strand) : (s.onMe f).clusters = s.clusters := rfl
@[simp] theorem State.onMe_groups (s : State) (f : Strand → Strand) : (s.onMe f).groups = s.groups := rfl
@[simp] theorem State.onMe_nextTag (s : State) (f : Strand → Strand) : (s.onMe f).nextTag = s.nextTag := rfl
@[simp] theorem State.onMe_saves (s : State) (f : Strand → Strand) : (s.onMe f).saves = s.saves := rfl
@[simp] theorem State.onMe_areas (s : State) (f : Strand → Strand) : (s.onMe f).areas = s.areas := rfl
@[simp] theorem State.onMe_launches (s : State) (f : Strand → Strand) : (s.onMe f).launches = s.launches := rfl
@[simp] theorem State.onMe_lastLq (s : State) (f : Strand → Strand) : (s.onMe f).lastLq = s.lastLq := rfl
@[simp] theorem State.onMe_lastDisp (s : State) (f : Strand → Strand) : (s.onMe f).lastDisp = s.lastDisp := rfl
@[simp] theorem State.onMe_parts (s : State) (f : Strand → Strand) : (s.onMe f).parts = s.parts := rfl
@[simp] theorem State.onMe_gangs (s : State) (f : Strand → Strand) : (s.onMe f).gangs = s.gangs := rfl
@[simp] theorem State.onMe_reqs (s : State) (f : Strand → Strand) : (s.onMe f).reqs = s.reqs := rfl
@[simp] theorem State.onMe_cmds (s : State) (f : Strand → Strand) : (s.onMe f).cmds = s.cmds := rfl
@[simp] theorem State.onMe_posts (s : State) (f : Strand → Strand) : (s.onMe f).posts = s.posts := rfl
@[simp] theorem State.onMe_faults (s : State) (f : Strand → Strand) : (s.onMe f).faults = s.faults := rfl
@[simp] theorem State.onMe_preqs (s : State) (f : Strand → Strand) : (s.onMe f).preqs = s.preqs := rfl
@[simp] theorem State.onMe_mem (s : State) (f : Strand → Strand) : (s.onMe f).mem = s.mem := rfl
@[simp] theorem State.onMe_hostMem (s : State) (f : Strand → Strand) : (s.onMe f).hostMem = s.hostMem := rfl
@[simp] theorem State.onMe_majors (s : State) (f : Strand → Strand) : (s.onMe f).majors = s.majors := rfl
@[simp] theorem State.onMe_pages (s : State) (f : Strand → Strand) : (s.onMe f).pages = s.pages := rfl
@[simp] theorem State.onMe_keys (s : State) (f : Strand → Strand) : (s.onMe f).keys = s.keys := rfl
@[simp] theorem State.onMe_poison (s : State) (f : Strand → Strand) : (s.onMe f).poison = s.poison := rfl
@[simp] theorem State.onMe_rewrites (s : State) (f : Strand → Strand) : (s.onMe f).rewrites = s.rewrites := rfl
@[simp] theorem State.onMe_owed (s : State) (f : Strand → Strand) : (s.onMe f).owed = s.owed := rfl
@[simp] theorem State.onMe_misscnt (s : State) (f : Strand → Strand) : (s.onMe f).misscnt = s.misscnt := rfl
@[simp] theorem State.onMe_rungs (s : State) (f : Strand → Strand) : (s.onMe f).rungs = s.rungs := rfl
@[simp] theorem State.onMe_sealCnt (s : State) (f : Strand → Strand) : (s.onMe f).sealCnt = s.sealCnt := rfl
@[simp] theorem State.onMe_ports (s : State) (f : Strand → Strand) : (s.onMe f).ports = s.ports := rfl
@[simp] theorem State.onMe_peerSched (s : State) (f : Strand → Strand) : (s.onMe f).peerSched = s.peerSched := rfl
@[simp] theorem State.onMe_msgs (s : State) (f : Strand → Strand) : (s.onMe f).msgs = s.msgs := rfl
@[simp] theorem State.onMe_relayBuf (s : State) (f : Strand → Strand) : (s.onMe f).relayBuf = s.relayBuf := rfl
@[simp] theorem State.onMe_links (s : State) (f : Strand → Strand) : (s.onMe f).links = s.links := rfl
@[simp] theorem State.onMe_dieRoutes (s : State) (f : Strand → Strand) : (s.onMe f).dieRoutes = s.dieRoutes := rfl
@[simp] theorem State.onMe_fwin (s : State) (f : Strand → Strand) : (s.onMe f).fwin = s.fwin := rfl
@[simp] theorem State.onMe_accepts (s : State) (f : Strand → Strand) : (s.onMe f).accepts = s.accepts := rfl
@[simp] theorem State.onMe_far (s : State) (f : Strand → Strand) : (s.onMe f).far = s.far := rfl
@[simp] theorem State.onMe_linkKeys (s : State) (f : Strand → Strand) : (s.onMe f).linkKeys = s.linkKeys := rfl
@[simp] theorem State.onMe_linkRuns (s : State) (f : Strand → Strand) : (s.onMe f).linkRuns = s.linkRuns := rfl
@[simp] theorem State.onMe_leases (s : State) (f : Strand → Strand) : (s.onMe f).leases = s.leases := rfl
@[simp] theorem State.onMe_xmss (s : State) (f : Strand → Strand) : (s.onMe f).xmss = s.xmss := rfl
@[simp] theorem State.onMe_spdm (s : State) (f : Strand → Strand) : (s.onMe f).spdm = s.spdm := rfl
@[simp] theorem State.onMe_ide (s : State) (f : Strand → Strand) : (s.onMe f).ide = s.ide := rfl
@[simp] theorem State.onMe_mgmt (s : State) (f : Strand → Strand) : (s.onMe f).mgmt = s.mgmt := rfl
@[simp] theorem State.onMe_lantern (s : State) (f : Strand → Strand) : (s.onMe f).lantern = s.lantern := rfl
@[simp] theorem State.onMe_answer (s : State) (f : Strand → Strand) : (s.onMe f).answer = s.answer := rfl

/-! ## setCore -/

@[simp] theorem State.setCore_power (s : State) (c : Nat) (x : Core) : (s.setCore c x).power = s.power := rfl
@[simp] theorem State.setCore_agenda (s : State) (c : Nat) (x : Core) : (s.setCore c x).agenda = s.agenda := rfl
@[simp] theorem State.setCore_turn (s : State) (c : Nat) (x : Core) : (s.setCore c x).turn = s.turn := rfl
@[simp] theorem State.setCore_cur (s : State) (c : Nat) (x : Core) : (s.setCore c x).cur = s.cur := rfl
@[simp] theorem State.setCore_free (s : State) (c : Nat) (x : Core) : (s.setCore c x).free = s.free := rfl
@[simp] theorem State.setCore_nextId (s : State) (c : Nat) (x : Core) : (s.setCore c x).nextId = s.nextId := rfl
@[simp] theorem State.setCore_clk (s : State) (c : Nat) (x : Core) : (s.setCore c x).clk = s.clk := rfl
@[simp] theorem State.setCore_lskew (s : State) (c : Nat) (x : Core) : (s.setCore c x).lskew = s.lskew := rfl
@[simp] theorem State.setCore_clusters (s : State) (c : Nat) (x : Core) : (s.setCore c x).clusters = s.clusters := rfl
@[simp] theorem State.setCore_strands (s : State) (c : Nat) (x : Core) : (s.setCore c x).strands = s.strands := rfl
@[simp] theorem State.setCore_groups (s : State) (c : Nat) (x : Core) : (s.setCore c x).groups = s.groups := rfl
@[simp] theorem State.setCore_nextTag (s : State) (c : Nat) (x : Core) : (s.setCore c x).nextTag = s.nextTag := rfl
@[simp] theorem State.setCore_saves (s : State) (c : Nat) (x : Core) : (s.setCore c x).saves = s.saves := rfl
@[simp] theorem State.setCore_areas (s : State) (c : Nat) (x : Core) : (s.setCore c x).areas = s.areas := rfl
@[simp] theorem State.setCore_launches (s : State) (c : Nat) (x : Core) : (s.setCore c x).launches = s.launches := rfl
@[simp] theorem State.setCore_lastLq (s : State) (c : Nat) (x : Core) : (s.setCore c x).lastLq = s.lastLq := rfl
@[simp] theorem State.setCore_lastDisp (s : State) (c : Nat) (x : Core) : (s.setCore c x).lastDisp = s.lastDisp := rfl
@[simp] theorem State.setCore_parts (s : State) (c : Nat) (x : Core) : (s.setCore c x).parts = s.parts := rfl
@[simp] theorem State.setCore_gangs (s : State) (c : Nat) (x : Core) : (s.setCore c x).gangs = s.gangs := rfl
@[simp] theorem State.setCore_reqs (s : State) (c : Nat) (x : Core) : (s.setCore c x).reqs = s.reqs := rfl
@[simp] theorem State.setCore_cmds (s : State) (c : Nat) (x : Core) : (s.setCore c x).cmds = s.cmds := rfl
@[simp] theorem State.setCore_posts (s : State) (c : Nat) (x : Core) : (s.setCore c x).posts = s.posts := rfl
@[simp] theorem State.setCore_faults (s : State) (c : Nat) (x : Core) : (s.setCore c x).faults = s.faults := rfl
@[simp] theorem State.setCore_preqs (s : State) (c : Nat) (x : Core) : (s.setCore c x).preqs = s.preqs := rfl
@[simp] theorem State.setCore_mem (s : State) (c : Nat) (x : Core) : (s.setCore c x).mem = s.mem := rfl
@[simp] theorem State.setCore_hostMem (s : State) (c : Nat) (x : Core) : (s.setCore c x).hostMem = s.hostMem := rfl
@[simp] theorem State.setCore_majors (s : State) (c : Nat) (x : Core) : (s.setCore c x).majors = s.majors := rfl
@[simp] theorem State.setCore_pages (s : State) (c : Nat) (x : Core) : (s.setCore c x).pages = s.pages := rfl
@[simp] theorem State.setCore_keys (s : State) (c : Nat) (x : Core) : (s.setCore c x).keys = s.keys := rfl
@[simp] theorem State.setCore_poison (s : State) (c : Nat) (x : Core) : (s.setCore c x).poison = s.poison := rfl
@[simp] theorem State.setCore_rewrites (s : State) (c : Nat) (x : Core) : (s.setCore c x).rewrites = s.rewrites := rfl
@[simp] theorem State.setCore_owed (s : State) (c : Nat) (x : Core) : (s.setCore c x).owed = s.owed := rfl
@[simp] theorem State.setCore_misscnt (s : State) (c : Nat) (x : Core) : (s.setCore c x).misscnt = s.misscnt := rfl
@[simp] theorem State.setCore_rungs (s : State) (c : Nat) (x : Core) : (s.setCore c x).rungs = s.rungs := rfl
@[simp] theorem State.setCore_sealCnt (s : State) (c : Nat) (x : Core) : (s.setCore c x).sealCnt = s.sealCnt := rfl
@[simp] theorem State.setCore_ports (s : State) (c : Nat) (x : Core) : (s.setCore c x).ports = s.ports := rfl
@[simp] theorem State.setCore_peerSched (s : State) (c : Nat) (x : Core) : (s.setCore c x).peerSched = s.peerSched := rfl
@[simp] theorem State.setCore_msgs (s : State) (c : Nat) (x : Core) : (s.setCore c x).msgs = s.msgs := rfl
@[simp] theorem State.setCore_relayBuf (s : State) (c : Nat) (x : Core) : (s.setCore c x).relayBuf = s.relayBuf := rfl
@[simp] theorem State.setCore_links (s : State) (c : Nat) (x : Core) : (s.setCore c x).links = s.links := rfl
@[simp] theorem State.setCore_dieRoutes (s : State) (c : Nat) (x : Core) : (s.setCore c x).dieRoutes = s.dieRoutes := rfl
@[simp] theorem State.setCore_fwin (s : State) (c : Nat) (x : Core) : (s.setCore c x).fwin = s.fwin := rfl
@[simp] theorem State.setCore_accepts (s : State) (c : Nat) (x : Core) : (s.setCore c x).accepts = s.accepts := rfl
@[simp] theorem State.setCore_far (s : State) (c : Nat) (x : Core) : (s.setCore c x).far = s.far := rfl
@[simp] theorem State.setCore_linkKeys (s : State) (c : Nat) (x : Core) : (s.setCore c x).linkKeys = s.linkKeys := rfl
@[simp] theorem State.setCore_linkRuns (s : State) (c : Nat) (x : Core) : (s.setCore c x).linkRuns = s.linkRuns := rfl
@[simp] theorem State.setCore_leases (s : State) (c : Nat) (x : Core) : (s.setCore c x).leases = s.leases := rfl
@[simp] theorem State.setCore_xmss (s : State) (c : Nat) (x : Core) : (s.setCore c x).xmss = s.xmss := rfl
@[simp] theorem State.setCore_spdm (s : State) (c : Nat) (x : Core) : (s.setCore c x).spdm = s.spdm := rfl
@[simp] theorem State.setCore_ide (s : State) (c : Nat) (x : Core) : (s.setCore c x).ide = s.ide := rfl
@[simp] theorem State.setCore_mgmt (s : State) (c : Nat) (x : Core) : (s.setCore c x).mgmt = s.mgmt := rfl
@[simp] theorem State.setCore_lantern (s : State) (c : Nat) (x : Core) : (s.setCore c x).lantern = s.lantern := rfl
@[simp] theorem State.setCore_answer (s : State) (c : Nat) (x : Core) : (s.setCore c x).answer = s.answer := rfl

/-! ## setCluster -/

@[simp] theorem State.setCluster_power (s : State) (c : Nat) (x : Cluster) : (s.setCluster c x).power = s.power := rfl
@[simp] theorem State.setCluster_agenda (s : State) (c : Nat) (x : Cluster) : (s.setCluster c x).agenda = s.agenda := rfl
@[simp] theorem State.setCluster_turn (s : State) (c : Nat) (x : Cluster) : (s.setCluster c x).turn = s.turn := rfl
@[simp] theorem State.setCluster_cur (s : State) (c : Nat) (x : Cluster) : (s.setCluster c x).cur = s.cur := rfl
@[simp] theorem State.setCluster_free (s : State) (c : Nat) (x : Cluster) : (s.setCluster c x).free = s.free := rfl
@[simp] theorem State.setCluster_nextId (s : State) (c : Nat) (x : Cluster) : (s.setCluster c x).nextId = s.nextId := rfl
@[simp] theorem State.setCluster_clk (s : State) (c : Nat) (x : Cluster) : (s.setCluster c x).clk = s.clk := rfl
@[simp] theorem State.setCluster_lskew (s : State) (c : Nat) (x : Cluster) : (s.setCluster c x).lskew = s.lskew := rfl
@[simp] theorem State.setCluster_cores (s : State) (c : Nat) (x : Cluster) : (s.setCluster c x).cores = s.cores := rfl
@[simp] theorem State.setCluster_strands (s : State) (c : Nat) (x : Cluster) : (s.setCluster c x).strands = s.strands := rfl
@[simp] theorem State.setCluster_groups (s : State) (c : Nat) (x : Cluster) : (s.setCluster c x).groups = s.groups := rfl
@[simp] theorem State.setCluster_nextTag (s : State) (c : Nat) (x : Cluster) : (s.setCluster c x).nextTag = s.nextTag := rfl
@[simp] theorem State.setCluster_saves (s : State) (c : Nat) (x : Cluster) : (s.setCluster c x).saves = s.saves := rfl
@[simp] theorem State.setCluster_areas (s : State) (c : Nat) (x : Cluster) : (s.setCluster c x).areas = s.areas := rfl
@[simp] theorem State.setCluster_launches (s : State) (c : Nat) (x : Cluster) : (s.setCluster c x).launches = s.launches := rfl
@[simp] theorem State.setCluster_lastLq (s : State) (c : Nat) (x : Cluster) : (s.setCluster c x).lastLq = s.lastLq := rfl
@[simp] theorem State.setCluster_lastDisp (s : State) (c : Nat) (x : Cluster) : (s.setCluster c x).lastDisp = s.lastDisp := rfl
@[simp] theorem State.setCluster_parts (s : State) (c : Nat) (x : Cluster) : (s.setCluster c x).parts = s.parts := rfl
@[simp] theorem State.setCluster_gangs (s : State) (c : Nat) (x : Cluster) : (s.setCluster c x).gangs = s.gangs := rfl
@[simp] theorem State.setCluster_reqs (s : State) (c : Nat) (x : Cluster) : (s.setCluster c x).reqs = s.reqs := rfl
@[simp] theorem State.setCluster_cmds (s : State) (c : Nat) (x : Cluster) : (s.setCluster c x).cmds = s.cmds := rfl
@[simp] theorem State.setCluster_posts (s : State) (c : Nat) (x : Cluster) : (s.setCluster c x).posts = s.posts := rfl
@[simp] theorem State.setCluster_faults (s : State) (c : Nat) (x : Cluster) : (s.setCluster c x).faults = s.faults := rfl
@[simp] theorem State.setCluster_preqs (s : State) (c : Nat) (x : Cluster) : (s.setCluster c x).preqs = s.preqs := rfl
@[simp] theorem State.setCluster_mem (s : State) (c : Nat) (x : Cluster) : (s.setCluster c x).mem = s.mem := rfl
@[simp] theorem State.setCluster_hostMem (s : State) (c : Nat) (x : Cluster) : (s.setCluster c x).hostMem = s.hostMem := rfl
@[simp] theorem State.setCluster_majors (s : State) (c : Nat) (x : Cluster) : (s.setCluster c x).majors = s.majors := rfl
@[simp] theorem State.setCluster_pages (s : State) (c : Nat) (x : Cluster) : (s.setCluster c x).pages = s.pages := rfl
@[simp] theorem State.setCluster_keys (s : State) (c : Nat) (x : Cluster) : (s.setCluster c x).keys = s.keys := rfl
@[simp] theorem State.setCluster_poison (s : State) (c : Nat) (x : Cluster) : (s.setCluster c x).poison = s.poison := rfl
@[simp] theorem State.setCluster_rewrites (s : State) (c : Nat) (x : Cluster) : (s.setCluster c x).rewrites = s.rewrites := rfl
@[simp] theorem State.setCluster_owed (s : State) (c : Nat) (x : Cluster) : (s.setCluster c x).owed = s.owed := rfl
@[simp] theorem State.setCluster_misscnt (s : State) (c : Nat) (x : Cluster) : (s.setCluster c x).misscnt = s.misscnt := rfl
@[simp] theorem State.setCluster_rungs (s : State) (c : Nat) (x : Cluster) : (s.setCluster c x).rungs = s.rungs := rfl
@[simp] theorem State.setCluster_sealCnt (s : State) (c : Nat) (x : Cluster) : (s.setCluster c x).sealCnt = s.sealCnt := rfl
@[simp] theorem State.setCluster_ports (s : State) (c : Nat) (x : Cluster) : (s.setCluster c x).ports = s.ports := rfl
@[simp] theorem State.setCluster_peerSched (s : State) (c : Nat) (x : Cluster) : (s.setCluster c x).peerSched = s.peerSched := rfl
@[simp] theorem State.setCluster_msgs (s : State) (c : Nat) (x : Cluster) : (s.setCluster c x).msgs = s.msgs := rfl
@[simp] theorem State.setCluster_relayBuf (s : State) (c : Nat) (x : Cluster) : (s.setCluster c x).relayBuf = s.relayBuf := rfl
@[simp] theorem State.setCluster_links (s : State) (c : Nat) (x : Cluster) : (s.setCluster c x).links = s.links := rfl
@[simp] theorem State.setCluster_dieRoutes (s : State) (c : Nat) (x : Cluster) : (s.setCluster c x).dieRoutes = s.dieRoutes := rfl
@[simp] theorem State.setCluster_fwin (s : State) (c : Nat) (x : Cluster) : (s.setCluster c x).fwin = s.fwin := rfl
@[simp] theorem State.setCluster_accepts (s : State) (c : Nat) (x : Cluster) : (s.setCluster c x).accepts = s.accepts := rfl
@[simp] theorem State.setCluster_far (s : State) (c : Nat) (x : Cluster) : (s.setCluster c x).far = s.far := rfl
@[simp] theorem State.setCluster_linkKeys (s : State) (c : Nat) (x : Cluster) : (s.setCluster c x).linkKeys = s.linkKeys := rfl
@[simp] theorem State.setCluster_linkRuns (s : State) (c : Nat) (x : Cluster) : (s.setCluster c x).linkRuns = s.linkRuns := rfl
@[simp] theorem State.setCluster_leases (s : State) (c : Nat) (x : Cluster) : (s.setCluster c x).leases = s.leases := rfl
@[simp] theorem State.setCluster_xmss (s : State) (c : Nat) (x : Cluster) : (s.setCluster c x).xmss = s.xmss := rfl
@[simp] theorem State.setCluster_spdm (s : State) (c : Nat) (x : Cluster) : (s.setCluster c x).spdm = s.spdm := rfl
@[simp] theorem State.setCluster_ide (s : State) (c : Nat) (x : Cluster) : (s.setCluster c x).ide = s.ide := rfl
@[simp] theorem State.setCluster_mgmt (s : State) (c : Nat) (x : Cluster) : (s.setCluster c x).mgmt = s.mgmt := rfl
@[simp] theorem State.setCluster_lantern (s : State) (c : Nat) (x : Cluster) : (s.setCluster c x).lantern = s.lantern := rfl
@[simp] theorem State.setCluster_answer (s : State) (c : Nat) (x : Cluster) : (s.setCluster c x).answer = s.answer := rfl

/-! ## setGrp -/

@[simp] theorem State.setGrp_power (s : State) (g : Nat) (x : Group) : (s.setGrp g x).power = s.power := rfl
@[simp] theorem State.setGrp_agenda (s : State) (g : Nat) (x : Group) : (s.setGrp g x).agenda = s.agenda := rfl
@[simp] theorem State.setGrp_turn (s : State) (g : Nat) (x : Group) : (s.setGrp g x).turn = s.turn := rfl
@[simp] theorem State.setGrp_cur (s : State) (g : Nat) (x : Group) : (s.setGrp g x).cur = s.cur := rfl
@[simp] theorem State.setGrp_free (s : State) (g : Nat) (x : Group) : (s.setGrp g x).free = s.free := rfl
@[simp] theorem State.setGrp_nextId (s : State) (g : Nat) (x : Group) : (s.setGrp g x).nextId = s.nextId := rfl
@[simp] theorem State.setGrp_clk (s : State) (g : Nat) (x : Group) : (s.setGrp g x).clk = s.clk := rfl
@[simp] theorem State.setGrp_lskew (s : State) (g : Nat) (x : Group) : (s.setGrp g x).lskew = s.lskew := rfl
@[simp] theorem State.setGrp_cores (s : State) (g : Nat) (x : Group) : (s.setGrp g x).cores = s.cores := rfl
@[simp] theorem State.setGrp_clusters (s : State) (g : Nat) (x : Group) : (s.setGrp g x).clusters = s.clusters := rfl
@[simp] theorem State.setGrp_strands (s : State) (g : Nat) (x : Group) : (s.setGrp g x).strands = s.strands := rfl
@[simp] theorem State.setGrp_nextTag (s : State) (g : Nat) (x : Group) : (s.setGrp g x).nextTag = s.nextTag := rfl
@[simp] theorem State.setGrp_saves (s : State) (g : Nat) (x : Group) : (s.setGrp g x).saves = s.saves := rfl
@[simp] theorem State.setGrp_areas (s : State) (g : Nat) (x : Group) : (s.setGrp g x).areas = s.areas := rfl
@[simp] theorem State.setGrp_launches (s : State) (g : Nat) (x : Group) : (s.setGrp g x).launches = s.launches := rfl
@[simp] theorem State.setGrp_lastLq (s : State) (g : Nat) (x : Group) : (s.setGrp g x).lastLq = s.lastLq := rfl
@[simp] theorem State.setGrp_lastDisp (s : State) (g : Nat) (x : Group) : (s.setGrp g x).lastDisp = s.lastDisp := rfl
@[simp] theorem State.setGrp_parts (s : State) (g : Nat) (x : Group) : (s.setGrp g x).parts = s.parts := rfl
@[simp] theorem State.setGrp_gangs (s : State) (g : Nat) (x : Group) : (s.setGrp g x).gangs = s.gangs := rfl
@[simp] theorem State.setGrp_reqs (s : State) (g : Nat) (x : Group) : (s.setGrp g x).reqs = s.reqs := rfl
@[simp] theorem State.setGrp_cmds (s : State) (g : Nat) (x : Group) : (s.setGrp g x).cmds = s.cmds := rfl
@[simp] theorem State.setGrp_posts (s : State) (g : Nat) (x : Group) : (s.setGrp g x).posts = s.posts := rfl
@[simp] theorem State.setGrp_faults (s : State) (g : Nat) (x : Group) : (s.setGrp g x).faults = s.faults := rfl
@[simp] theorem State.setGrp_preqs (s : State) (g : Nat) (x : Group) : (s.setGrp g x).preqs = s.preqs := rfl
@[simp] theorem State.setGrp_mem (s : State) (g : Nat) (x : Group) : (s.setGrp g x).mem = s.mem := rfl
@[simp] theorem State.setGrp_hostMem (s : State) (g : Nat) (x : Group) : (s.setGrp g x).hostMem = s.hostMem := rfl
@[simp] theorem State.setGrp_majors (s : State) (g : Nat) (x : Group) : (s.setGrp g x).majors = s.majors := rfl
@[simp] theorem State.setGrp_pages (s : State) (g : Nat) (x : Group) : (s.setGrp g x).pages = s.pages := rfl
@[simp] theorem State.setGrp_keys (s : State) (g : Nat) (x : Group) : (s.setGrp g x).keys = s.keys := rfl
@[simp] theorem State.setGrp_poison (s : State) (g : Nat) (x : Group) : (s.setGrp g x).poison = s.poison := rfl
@[simp] theorem State.setGrp_rewrites (s : State) (g : Nat) (x : Group) : (s.setGrp g x).rewrites = s.rewrites := rfl
@[simp] theorem State.setGrp_owed (s : State) (g : Nat) (x : Group) : (s.setGrp g x).owed = s.owed := rfl
@[simp] theorem State.setGrp_misscnt (s : State) (g : Nat) (x : Group) : (s.setGrp g x).misscnt = s.misscnt := rfl
@[simp] theorem State.setGrp_rungs (s : State) (g : Nat) (x : Group) : (s.setGrp g x).rungs = s.rungs := rfl
@[simp] theorem State.setGrp_sealCnt (s : State) (g : Nat) (x : Group) : (s.setGrp g x).sealCnt = s.sealCnt := rfl
@[simp] theorem State.setGrp_ports (s : State) (g : Nat) (x : Group) : (s.setGrp g x).ports = s.ports := rfl
@[simp] theorem State.setGrp_peerSched (s : State) (g : Nat) (x : Group) : (s.setGrp g x).peerSched = s.peerSched := rfl
@[simp] theorem State.setGrp_msgs (s : State) (g : Nat) (x : Group) : (s.setGrp g x).msgs = s.msgs := rfl
@[simp] theorem State.setGrp_relayBuf (s : State) (g : Nat) (x : Group) : (s.setGrp g x).relayBuf = s.relayBuf := rfl
@[simp] theorem State.setGrp_links (s : State) (g : Nat) (x : Group) : (s.setGrp g x).links = s.links := rfl
@[simp] theorem State.setGrp_dieRoutes (s : State) (g : Nat) (x : Group) : (s.setGrp g x).dieRoutes = s.dieRoutes := rfl
@[simp] theorem State.setGrp_fwin (s : State) (g : Nat) (x : Group) : (s.setGrp g x).fwin = s.fwin := rfl
@[simp] theorem State.setGrp_accepts (s : State) (g : Nat) (x : Group) : (s.setGrp g x).accepts = s.accepts := rfl
@[simp] theorem State.setGrp_far (s : State) (g : Nat) (x : Group) : (s.setGrp g x).far = s.far := rfl
@[simp] theorem State.setGrp_linkKeys (s : State) (g : Nat) (x : Group) : (s.setGrp g x).linkKeys = s.linkKeys := rfl
@[simp] theorem State.setGrp_linkRuns (s : State) (g : Nat) (x : Group) : (s.setGrp g x).linkRuns = s.linkRuns := rfl
@[simp] theorem State.setGrp_leases (s : State) (g : Nat) (x : Group) : (s.setGrp g x).leases = s.leases := rfl
@[simp] theorem State.setGrp_xmss (s : State) (g : Nat) (x : Group) : (s.setGrp g x).xmss = s.xmss := rfl
@[simp] theorem State.setGrp_spdm (s : State) (g : Nat) (x : Group) : (s.setGrp g x).spdm = s.spdm := rfl
@[simp] theorem State.setGrp_ide (s : State) (g : Nat) (x : Group) : (s.setGrp g x).ide = s.ide := rfl
@[simp] theorem State.setGrp_mgmt (s : State) (g : Nat) (x : Group) : (s.setGrp g x).mgmt = s.mgmt := rfl
@[simp] theorem State.setGrp_lantern (s : State) (g : Nat) (x : Group) : (s.setGrp g x).lantern = s.lantern := rfl
@[simp] theorem State.setGrp_answer (s : State) (g : Nat) (x : Group) : (s.setGrp g x).answer = s.answer := rfl

/-! ## onPart -/

@[simp] theorem State.onPart_power (s : State) (p : Nat) (f : Partition → Partition) : (s.onPart p f).power = s.power := rfl
@[simp] theorem State.onPart_agenda (s : State) (p : Nat) (f : Partition → Partition) : (s.onPart p f).agenda = s.agenda := rfl
@[simp] theorem State.onPart_turn (s : State) (p : Nat) (f : Partition → Partition) : (s.onPart p f).turn = s.turn := rfl
@[simp] theorem State.onPart_cur (s : State) (p : Nat) (f : Partition → Partition) : (s.onPart p f).cur = s.cur := rfl
@[simp] theorem State.onPart_free (s : State) (p : Nat) (f : Partition → Partition) : (s.onPart p f).free = s.free := rfl
@[simp] theorem State.onPart_nextId (s : State) (p : Nat) (f : Partition → Partition) : (s.onPart p f).nextId = s.nextId := rfl
@[simp] theorem State.onPart_clk (s : State) (p : Nat) (f : Partition → Partition) : (s.onPart p f).clk = s.clk := rfl
@[simp] theorem State.onPart_lskew (s : State) (p : Nat) (f : Partition → Partition) : (s.onPart p f).lskew = s.lskew := rfl
@[simp] theorem State.onPart_cores (s : State) (p : Nat) (f : Partition → Partition) : (s.onPart p f).cores = s.cores := rfl
@[simp] theorem State.onPart_clusters (s : State) (p : Nat) (f : Partition → Partition) : (s.onPart p f).clusters = s.clusters := rfl
@[simp] theorem State.onPart_strands (s : State) (p : Nat) (f : Partition → Partition) : (s.onPart p f).strands = s.strands := rfl
@[simp] theorem State.onPart_groups (s : State) (p : Nat) (f : Partition → Partition) : (s.onPart p f).groups = s.groups := rfl
@[simp] theorem State.onPart_nextTag (s : State) (p : Nat) (f : Partition → Partition) : (s.onPart p f).nextTag = s.nextTag := rfl
@[simp] theorem State.onPart_saves (s : State) (p : Nat) (f : Partition → Partition) : (s.onPart p f).saves = s.saves := rfl
@[simp] theorem State.onPart_areas (s : State) (p : Nat) (f : Partition → Partition) : (s.onPart p f).areas = s.areas := rfl
@[simp] theorem State.onPart_launches (s : State) (p : Nat) (f : Partition → Partition) : (s.onPart p f).launches = s.launches := rfl
@[simp] theorem State.onPart_lastLq (s : State) (p : Nat) (f : Partition → Partition) : (s.onPart p f).lastLq = s.lastLq := rfl
@[simp] theorem State.onPart_lastDisp (s : State) (p : Nat) (f : Partition → Partition) : (s.onPart p f).lastDisp = s.lastDisp := rfl
@[simp] theorem State.onPart_gangs (s : State) (p : Nat) (f : Partition → Partition) : (s.onPart p f).gangs = s.gangs := rfl
@[simp] theorem State.onPart_reqs (s : State) (p : Nat) (f : Partition → Partition) : (s.onPart p f).reqs = s.reqs := rfl
@[simp] theorem State.onPart_cmds (s : State) (p : Nat) (f : Partition → Partition) : (s.onPart p f).cmds = s.cmds := rfl
@[simp] theorem State.onPart_posts (s : State) (p : Nat) (f : Partition → Partition) : (s.onPart p f).posts = s.posts := rfl
@[simp] theorem State.onPart_faults (s : State) (p : Nat) (f : Partition → Partition) : (s.onPart p f).faults = s.faults := rfl
@[simp] theorem State.onPart_preqs (s : State) (p : Nat) (f : Partition → Partition) : (s.onPart p f).preqs = s.preqs := rfl
@[simp] theorem State.onPart_mem (s : State) (p : Nat) (f : Partition → Partition) : (s.onPart p f).mem = s.mem := rfl
@[simp] theorem State.onPart_hostMem (s : State) (p : Nat) (f : Partition → Partition) : (s.onPart p f).hostMem = s.hostMem := rfl
@[simp] theorem State.onPart_majors (s : State) (p : Nat) (f : Partition → Partition) : (s.onPart p f).majors = s.majors := rfl
@[simp] theorem State.onPart_pages (s : State) (p : Nat) (f : Partition → Partition) : (s.onPart p f).pages = s.pages := rfl
@[simp] theorem State.onPart_keys (s : State) (p : Nat) (f : Partition → Partition) : (s.onPart p f).keys = s.keys := rfl
@[simp] theorem State.onPart_poison (s : State) (p : Nat) (f : Partition → Partition) : (s.onPart p f).poison = s.poison := rfl
@[simp] theorem State.onPart_rewrites (s : State) (p : Nat) (f : Partition → Partition) : (s.onPart p f).rewrites = s.rewrites := rfl
@[simp] theorem State.onPart_owed (s : State) (p : Nat) (f : Partition → Partition) : (s.onPart p f).owed = s.owed := rfl
@[simp] theorem State.onPart_misscnt (s : State) (p : Nat) (f : Partition → Partition) : (s.onPart p f).misscnt = s.misscnt := rfl
@[simp] theorem State.onPart_rungs (s : State) (p : Nat) (f : Partition → Partition) : (s.onPart p f).rungs = s.rungs := rfl
@[simp] theorem State.onPart_sealCnt (s : State) (p : Nat) (f : Partition → Partition) : (s.onPart p f).sealCnt = s.sealCnt := rfl
@[simp] theorem State.onPart_ports (s : State) (p : Nat) (f : Partition → Partition) : (s.onPart p f).ports = s.ports := rfl
@[simp] theorem State.onPart_peerSched (s : State) (p : Nat) (f : Partition → Partition) : (s.onPart p f).peerSched = s.peerSched := rfl
@[simp] theorem State.onPart_msgs (s : State) (p : Nat) (f : Partition → Partition) : (s.onPart p f).msgs = s.msgs := rfl
@[simp] theorem State.onPart_relayBuf (s : State) (p : Nat) (f : Partition → Partition) : (s.onPart p f).relayBuf = s.relayBuf := rfl
@[simp] theorem State.onPart_links (s : State) (p : Nat) (f : Partition → Partition) : (s.onPart p f).links = s.links := rfl
@[simp] theorem State.onPart_dieRoutes (s : State) (p : Nat) (f : Partition → Partition) : (s.onPart p f).dieRoutes = s.dieRoutes := rfl
@[simp] theorem State.onPart_fwin (s : State) (p : Nat) (f : Partition → Partition) : (s.onPart p f).fwin = s.fwin := rfl
@[simp] theorem State.onPart_accepts (s : State) (p : Nat) (f : Partition → Partition) : (s.onPart p f).accepts = s.accepts := rfl
@[simp] theorem State.onPart_far (s : State) (p : Nat) (f : Partition → Partition) : (s.onPart p f).far = s.far := rfl
@[simp] theorem State.onPart_linkKeys (s : State) (p : Nat) (f : Partition → Partition) : (s.onPart p f).linkKeys = s.linkKeys := rfl
@[simp] theorem State.onPart_linkRuns (s : State) (p : Nat) (f : Partition → Partition) : (s.onPart p f).linkRuns = s.linkRuns := rfl
@[simp] theorem State.onPart_leases (s : State) (p : Nat) (f : Partition → Partition) : (s.onPart p f).leases = s.leases := rfl
@[simp] theorem State.onPart_xmss (s : State) (p : Nat) (f : Partition → Partition) : (s.onPart p f).xmss = s.xmss := rfl
@[simp] theorem State.onPart_spdm (s : State) (p : Nat) (f : Partition → Partition) : (s.onPart p f).spdm = s.spdm := rfl
@[simp] theorem State.onPart_ide (s : State) (p : Nat) (f : Partition → Partition) : (s.onPart p f).ide = s.ide := rfl
@[simp] theorem State.onPart_mgmt (s : State) (p : Nat) (f : Partition → Partition) : (s.onPart p f).mgmt = s.mgmt := rfl
@[simp] theorem State.onPart_lantern (s : State) (p : Nat) (f : Partition → Partition) : (s.onPart p f).lantern = s.lantern := rfl
@[simp] theorem State.onPart_answer (s : State) (p : Nat) (f : Partition → Partition) : (s.onPart p f).answer = s.answer := rfl

/-! ## Strand.performed -/

@[simp] theorem Strand.performed_life (x : Strand) (k : Nat) : (x.performed k).life = x.life := rfl
@[simp] theorem Strand.performed_handler (x : Strand) (k : Nat) : (x.performed k).handler = x.handler := rfl
@[simp] theorem Strand.performed_contract (x : Strand) (k : Nat) : (x.performed k).contract = x.contract := rfl
@[simp] theorem Strand.performed_fov (x : Strand) (k : Nat) : (x.performed k).fov = x.fov := rfl
@[simp] theorem Strand.performed_matrixOwn (x : Strand) (k : Nat) : (x.performed k).matrixOwn = x.matrixOwn := rfl
@[simp] theorem Strand.performed_nvreg (x : Strand) (k : Nat) : (x.performed k).nvreg = x.nvreg := rfl
@[simp] theorem Strand.performed_accRows (x : Strand) (k : Nat) : (x.performed k).accRows = x.accRows := rfl
@[simp] theorem Strand.performed_spadSize (x : Strand) (k : Nat) : (x.performed k).spadSize = x.spadSize := rfl
@[simp] theorem Strand.performed_sdmSize (x : Strand) (k : Nat) : (x.performed k).sdmSize = x.sdmSize := rfl
@[simp] theorem Strand.performed_gtag (x : Strand) (k : Nat) : (x.performed k).gtag = x.gtag := rfl
@[simp] theorem Strand.performed_sidx (x : Strand) (k : Nat) : (x.performed k).sidx = x.sidx := rfl
@[simp] theorem Strand.performed_gszm (x : Strand) (k : Nat) : (x.performed k).gszm = x.gszm := rfl
@[simp] theorem Strand.performed_part (x : Strand) (k : Nat) : (x.performed k).part = x.part := rfl
@[simp] theorem Strand.performed_wid (x : Strand) (k : Nat) : (x.performed k).wid = x.wid := rfl
@[simp] theorem Strand.performed_widths (x : Strand) (k : Nat) : (x.performed k).widths = x.widths := rfl
@[simp] theorem Strand.performed_image (x : Strand) (k : Nat) : (x.performed k).image = x.image := rfl
@[simp] theorem Strand.performed_pc (x : Strand) (k : Nat) : (x.performed k).pc = x.pc := rfl
@[simp] theorem Strand.performed_sbn (x : Strand) (k : Nat) : (x.performed k).sbn = x.sbn := rfl
@[simp] theorem Strand.performed_hcnt (x : Strand) (k : Nat) : (x.performed k).hcnt = x.hcnt := rfl
@[simp] theorem Strand.performed_ord (x : Strand) (k : Nat) : (x.performed k).ord = x.ord := rfl
@[simp] theorem Strand.performed_sreg (x : Strand) (k : Nat) : (x.performed k).sreg = x.sreg := rfl
@[simp] theorem Strand.performed_vreg (x : Strand) (k : Nat) : (x.performed k).vreg = x.vreg := rfl
@[simp] theorem Strand.performed_preg (x : Strand) (k : Nat) : (x.performed k).preg = x.preg := rfl
@[simp] theorem Strand.performed_q (x : Strand) (k : Nat) : (x.performed k).q = x.q := rfl
@[simp] theorem Strand.performed_mreg (x : Strand) (k : Nat) : (x.performed k).mreg = x.mreg := rfl
@[simp] theorem Strand.performed_kreg (x : Strand) (k : Nat) : (x.performed k).kreg = x.kreg := rfl
@[simp] theorem Strand.performed_rings (x : Strand) (k : Nat) : (x.performed k).rings = x.rings := rfl
@[simp] theorem Strand.performed_loops (x : Strand) (k : Nat) : (x.performed k).loops = x.loops := rfl
@[simp] theorem Strand.performed_fmt (x : Strand) (k : Nat) : (x.performed k).fmt = x.fmt := rfl
@[simp] theorem Strand.performed_epc (x : Strand) (k : Nat) : (x.performed k).epc = x.epc := rfl
@[simp] theorem Strand.performed_tcause (x : Strand) (k : Nat) : (x.performed k).tcause = x.tcause := rfl
@[simp] theorem Strand.performed_tval (x : Strand) (k : Nat) : (x.performed k).tval = x.tval := rfl
@[simp] theorem Strand.performed_regOpen (x : Strand) (k : Nat) : (x.performed k).regOpen = x.regOpen := rfl
@[simp] theorem Strand.performed_regStart (x : Strand) (k : Nat) : (x.performed k).regStart = x.regStart := rfl
@[simp] theorem Strand.performed_held (x : Strand) (k : Nat) : (x.performed k).held = x.held := rfl
@[simp] theorem Strand.performed_snap (x : Strand) (k : Nat) : (x.performed k).snap = x.snap := rfl
@[simp] theorem Strand.performed_pend (x : Strand) (k : Nat) : (x.performed k).pend = x.pend := rfl
@[simp] theorem Strand.performed_pendH (x : Strand) (k : Nat) : (x.performed k).pendH = x.pendH := rfl
@[simp] theorem Strand.performed_accBase (x : Strand) (k : Nat) : (x.performed k).accBase = x.accBase := rfl
@[simp] theorem Strand.performed_accOps (x : Strand) (k : Nat) : (x.performed k).accOps = x.accOps := rfl
@[simp] theorem Strand.performed_spad (x : Strand) (k : Nat) : (x.performed k).spad = x.spad := rfl
@[simp] theorem Strand.performed_sdm (x : Strand) (k : Nat) : (x.performed k).sdm = x.sdm := rfl
@[simp] theorem Strand.performed_spadLog (x : Strand) (k : Nat) : (x.performed k).spadLog = x.spadLog := rfl
@[simp] theorem Strand.performed_latK (x : Strand) (k : Nat) : (x.performed k).latK = x.latK := rfl
@[simp] theorem Strand.performed_latH (x : Strand) (k : Nat) : (x.performed k).latH = x.latH := rfl
@[simp] theorem Strand.performed_mat (x : Strand) (k : Nat) : (x.performed k).mat = x.mat := rfl
@[simp] theorem Strand.performed_streams (x : Strand) (k : Nat) : (x.performed k).streams = x.streams := rfl
@[simp] theorem Strand.performed_maps (x : Strand) (k : Nat) : (x.performed k).maps = x.maps := rfl
@[simp] theorem Strand.performed_chunks (x : Strand) (k : Nat) : (x.performed k).chunks = x.chunks := rfl
@[simp] theorem Strand.performed_replay (x : Strand) (k : Nat) : (x.performed k).replay = x.replay := rfl
@[simp] theorem Strand.performed_hreplay (x : Strand) (k : Nat) : (x.performed k).hreplay = x.hreplay := rfl
@[simp] theorem Strand.performed_traps (x : Strand) (k : Nat) : (x.performed k).traps = x.traps := rfl
@[simp] theorem Strand.performed_drainAt (x : Strand) (k : Nat) : (x.performed k).drainAt = x.drainAt := rfl
@[simp] theorem Strand.performed_asked (x : Strand) (k : Nat) : (x.performed k).asked = x.asked := rfl
@[simp] theorem Strand.performed_struck (x : Strand) (k : Nat) : (x.performed k).struck = x.struck := rfl
@[simp] theorem Strand.performed_adv (x : Strand) (k : Nat) : (x.performed k).adv = x.adv := rfl
@[simp] theorem Strand.performed_dpHit (x : Strand) (k : Nat) : (x.performed k).dpHit = x.dpHit := rfl
@[simp] theorem Strand.performed_halted (x : Strand) (k : Nat) : (x.performed k).halted = x.halted := rfl
@[simp] theorem Strand.performed_yielded (x : Strand) (k : Nat) : (x.performed k).yielded = x.yielded := rfl
@[simp] theorem Strand.performed_holdFor (x : Strand) (k : Nat) : (x.performed k).holdFor = x.holdFor := rfl
@[simp] theorem Strand.performed_served (x : Strand) (k : Nat) : (x.performed k).served = x.served := rfl
@[simp] theorem Strand.performed_vxHold (x : Strand) (k : Nat) : (x.performed k).vxHold = x.vxHold := rfl
@[simp] theorem Strand.performed_released (x : Strand) (k : Nat) : (x.performed k).released = x.released := rfl
@[simp] theorem Strand.performed_saveNo (x : Strand) (k : Nat) : (x.performed k).saveNo = x.saveNo := rfl

/-! ## Strand.setRing -/

@[simp] theorem Strand.setRing_life (x : Strand) (h : Nat) (r : Ring) : (x.setRing h r).life = x.life := rfl
@[simp] theorem Strand.setRing_handler (x : Strand) (h : Nat) (r : Ring) : (x.setRing h r).handler = x.handler := rfl
@[simp] theorem Strand.setRing_contract (x : Strand) (h : Nat) (r : Ring) : (x.setRing h r).contract = x.contract := rfl
@[simp] theorem Strand.setRing_fov (x : Strand) (h : Nat) (r : Ring) : (x.setRing h r).fov = x.fov := rfl
@[simp] theorem Strand.setRing_matrixOwn (x : Strand) (h : Nat) (r : Ring) : (x.setRing h r).matrixOwn = x.matrixOwn := rfl
@[simp] theorem Strand.setRing_nvreg (x : Strand) (h : Nat) (r : Ring) : (x.setRing h r).nvreg = x.nvreg := rfl
@[simp] theorem Strand.setRing_accRows (x : Strand) (h : Nat) (r : Ring) : (x.setRing h r).accRows = x.accRows := rfl
@[simp] theorem Strand.setRing_spadSize (x : Strand) (h : Nat) (r : Ring) : (x.setRing h r).spadSize = x.spadSize := rfl
@[simp] theorem Strand.setRing_sdmSize (x : Strand) (h : Nat) (r : Ring) : (x.setRing h r).sdmSize = x.sdmSize := rfl
@[simp] theorem Strand.setRing_gtag (x : Strand) (h : Nat) (r : Ring) : (x.setRing h r).gtag = x.gtag := rfl
@[simp] theorem Strand.setRing_sidx (x : Strand) (h : Nat) (r : Ring) : (x.setRing h r).sidx = x.sidx := rfl
@[simp] theorem Strand.setRing_gszm (x : Strand) (h : Nat) (r : Ring) : (x.setRing h r).gszm = x.gszm := rfl
@[simp] theorem Strand.setRing_part (x : Strand) (h : Nat) (r : Ring) : (x.setRing h r).part = x.part := rfl
@[simp] theorem Strand.setRing_wid (x : Strand) (h : Nat) (r : Ring) : (x.setRing h r).wid = x.wid := rfl
@[simp] theorem Strand.setRing_widths (x : Strand) (h : Nat) (r : Ring) : (x.setRing h r).widths = x.widths := rfl
@[simp] theorem Strand.setRing_image (x : Strand) (h : Nat) (r : Ring) : (x.setRing h r).image = x.image := rfl
@[simp] theorem Strand.setRing_pc (x : Strand) (h : Nat) (r : Ring) : (x.setRing h r).pc = x.pc := rfl
@[simp] theorem Strand.setRing_sbn (x : Strand) (h : Nat) (r : Ring) : (x.setRing h r).sbn = x.sbn := rfl
@[simp] theorem Strand.setRing_hcnt (x : Strand) (h : Nat) (r : Ring) : (x.setRing h r).hcnt = x.hcnt := rfl
@[simp] theorem Strand.setRing_ord (x : Strand) (h : Nat) (r : Ring) : (x.setRing h r).ord = x.ord := rfl
@[simp] theorem Strand.setRing_sreg (x : Strand) (h : Nat) (r : Ring) : (x.setRing h r).sreg = x.sreg := rfl
@[simp] theorem Strand.setRing_vreg (x : Strand) (h : Nat) (r : Ring) : (x.setRing h r).vreg = x.vreg := rfl
@[simp] theorem Strand.setRing_preg (x : Strand) (h : Nat) (r : Ring) : (x.setRing h r).preg = x.preg := rfl
@[simp] theorem Strand.setRing_q (x : Strand) (h : Nat) (r : Ring) : (x.setRing h r).q = x.q := rfl
@[simp] theorem Strand.setRing_mreg (x : Strand) (h : Nat) (r : Ring) : (x.setRing h r).mreg = x.mreg := rfl
@[simp] theorem Strand.setRing_kreg (x : Strand) (h : Nat) (r : Ring) : (x.setRing h r).kreg = x.kreg := rfl
@[simp] theorem Strand.setRing_loops (x : Strand) (h : Nat) (r : Ring) : (x.setRing h r).loops = x.loops := rfl
@[simp] theorem Strand.setRing_fmt (x : Strand) (h : Nat) (r : Ring) : (x.setRing h r).fmt = x.fmt := rfl
@[simp] theorem Strand.setRing_epc (x : Strand) (h : Nat) (r : Ring) : (x.setRing h r).epc = x.epc := rfl
@[simp] theorem Strand.setRing_tcause (x : Strand) (h : Nat) (r : Ring) : (x.setRing h r).tcause = x.tcause := rfl
@[simp] theorem Strand.setRing_tval (x : Strand) (h : Nat) (r : Ring) : (x.setRing h r).tval = x.tval := rfl
@[simp] theorem Strand.setRing_regOpen (x : Strand) (h : Nat) (r : Ring) : (x.setRing h r).regOpen = x.regOpen := rfl
@[simp] theorem Strand.setRing_regStart (x : Strand) (h : Nat) (r : Ring) : (x.setRing h r).regStart = x.regStart := rfl
@[simp] theorem Strand.setRing_held (x : Strand) (h : Nat) (r : Ring) : (x.setRing h r).held = x.held := rfl
@[simp] theorem Strand.setRing_snap (x : Strand) (h : Nat) (r : Ring) : (x.setRing h r).snap = x.snap := rfl
@[simp] theorem Strand.setRing_pend (x : Strand) (h : Nat) (r : Ring) : (x.setRing h r).pend = x.pend := rfl
@[simp] theorem Strand.setRing_pendH (x : Strand) (h : Nat) (r : Ring) : (x.setRing h r).pendH = x.pendH := rfl
@[simp] theorem Strand.setRing_accBase (x : Strand) (h : Nat) (r : Ring) : (x.setRing h r).accBase = x.accBase := rfl
@[simp] theorem Strand.setRing_accOps (x : Strand) (h : Nat) (r : Ring) : (x.setRing h r).accOps = x.accOps := rfl
@[simp] theorem Strand.setRing_spad (x : Strand) (h : Nat) (r : Ring) : (x.setRing h r).spad = x.spad := rfl
@[simp] theorem Strand.setRing_sdm (x : Strand) (h : Nat) (r : Ring) : (x.setRing h r).sdm = x.sdm := rfl
@[simp] theorem Strand.setRing_spadLog (x : Strand) (h : Nat) (r : Ring) : (x.setRing h r).spadLog = x.spadLog := rfl
@[simp] theorem Strand.setRing_latK (x : Strand) (h : Nat) (r : Ring) : (x.setRing h r).latK = x.latK := rfl
@[simp] theorem Strand.setRing_latH (x : Strand) (h : Nat) (r : Ring) : (x.setRing h r).latH = x.latH := rfl
@[simp] theorem Strand.setRing_mat (x : Strand) (h : Nat) (r : Ring) : (x.setRing h r).mat = x.mat := rfl
@[simp] theorem Strand.setRing_streams (x : Strand) (h : Nat) (r : Ring) : (x.setRing h r).streams = x.streams := rfl
@[simp] theorem Strand.setRing_maps (x : Strand) (h : Nat) (r : Ring) : (x.setRing h r).maps = x.maps := rfl
@[simp] theorem Strand.setRing_chunks (x : Strand) (h : Nat) (r : Ring) : (x.setRing h r).chunks = x.chunks := rfl
@[simp] theorem Strand.setRing_replay (x : Strand) (h : Nat) (r : Ring) : (x.setRing h r).replay = x.replay := rfl
@[simp] theorem Strand.setRing_hreplay (x : Strand) (h : Nat) (r : Ring) : (x.setRing h r).hreplay = x.hreplay := rfl
@[simp] theorem Strand.setRing_traps (x : Strand) (h : Nat) (r : Ring) : (x.setRing h r).traps = x.traps := rfl
@[simp] theorem Strand.setRing_drainAt (x : Strand) (h : Nat) (r : Ring) : (x.setRing h r).drainAt = x.drainAt := rfl
@[simp] theorem Strand.setRing_asked (x : Strand) (h : Nat) (r : Ring) : (x.setRing h r).asked = x.asked := rfl
@[simp] theorem Strand.setRing_struck (x : Strand) (h : Nat) (r : Ring) : (x.setRing h r).struck = x.struck := rfl
@[simp] theorem Strand.setRing_adv (x : Strand) (h : Nat) (r : Ring) : (x.setRing h r).adv = x.adv := rfl
@[simp] theorem Strand.setRing_dpHit (x : Strand) (h : Nat) (r : Ring) : (x.setRing h r).dpHit = x.dpHit := rfl
@[simp] theorem Strand.setRing_halted (x : Strand) (h : Nat) (r : Ring) : (x.setRing h r).halted = x.halted := rfl
@[simp] theorem Strand.setRing_yielded (x : Strand) (h : Nat) (r : Ring) : (x.setRing h r).yielded = x.yielded := rfl
@[simp] theorem Strand.setRing_holdFor (x : Strand) (h : Nat) (r : Ring) : (x.setRing h r).holdFor = x.holdFor := rfl
@[simp] theorem Strand.setRing_served (x : Strand) (h : Nat) (r : Ring) : (x.setRing h r).served = x.served := rfl
@[simp] theorem Strand.setRing_vxHold (x : Strand) (h : Nat) (r : Ring) : (x.setRing h r).vxHold = x.vxHold := rfl
@[simp] theorem Strand.setRing_released (x : Strand) (h : Nat) (r : Ring) : (x.setRing h r).released = x.released := rfl
@[simp] theorem Strand.setRing_saveNo (x : Strand) (h : Nat) (r : Ring) : (x.setRing h r).saveNo = x.saveNo := rfl
@[simp] theorem Strand.setRing_iss (x : Strand) (h : Nat) (r : Ring) : (x.setRing h r).iss = x.iss := rfl

/-! ## Writes in flight and latches: what changes, in one record -/

/-- A write joins the writes in flight of its mode; nothing else changes. -/
theorem Strand.addWrite_eq (x : Strand) (w : Write) :
    x.addWrite w = { x with pend := if x.iss.handler then x.pend else x.pend ++ [w]
                            pendH := if x.iss.handler then x.pendH ++ [w] else x.pendH } := by
  unfold Strand.addWrite; split <;> rfl

/-- The latches of the mode change; nothing else does. -/
theorem Strand.setLatch_eq (x : Strand) (l : Latches) :
    x.setLatch l = { x with latK := if x.iss.handler then x.latK else l, latH := if x.iss.handler then l else x.latH } := by
  unfold Strand.setLatch; split <;> rfl

/-- A scalar result is one write in flight, or nothing for s0. -/
theorem Strand.pushS_eq (x : Strand) (lat : Nat) (r : BitVec 6) (v : W64) :
    x.pushS lat r v = if r = 0 then x else x.addWrite ⟨x.iss.n + lat, none, false, true, false, .s r.toNat v⟩ := rfl

/-- A predicate result is one write in flight, or nothing for p0. -/
theorem Strand.pushP_eq (x : Strand) (lat : Nat) (r : BitVec 4) (mask data : PReg) :
    x.pushP lat r mask data = if r = 0 then x else x.addWrite ⟨x.iss.n + lat, none, false, true, false, .p r.toNat mask data⟩ := rfl

/-! ## The strand in issue -/

@[simp] theorem State.strand_setStrand_self (s : State) (k : Nat) (x : Strand) : (s.setStrand k x).strand k = x := by
  simp [State.strand, State.setStrand, Tbl.getD, Tbl.find_insert_self]

theorem State.strand_setStrand_ne (s : State) (k j : Nat) (x : Strand) (h : j ≠ k) : (s.setStrand k x).strand j = s.strand j := by
  simp [State.strand, State.setStrand, Tbl.getD, Tbl.find_insert_ne _ _ _ _ h]

@[simp] theorem State.me_setMe (s : State) (x : Strand) : (s.setMe x).me = x := State.strand_setStrand_self s s.cur x

@[simp] theorem State.me_onMe (s : State) (f : Strand → Strand) : (s.onMe f).me = f s.me := State.strand_setStrand_self s s.cur _

end Sys2Proof.Machine
end

