-- ==== Sys2Proof/Laws/Slots.lean ====
section
/-! SUPPORT. What the shared operations of the slots can do, said once each: performing, trapping, jumping, looping, moving a ring, the
governed forms of slot C, the guarded forms of slot D, taking a trap, the closing of gathers, and global stores. -/

namespace Sys2Proof.Machine

theorem next_inj {a b : State} (h : (Host.Outcome.next a : Out) = .next b) : a = b := by injection h

/-- Of two replacements of the strand in issue the later stands. -/
theorem State.setMe_setMe (s : State) (x y : Strand) : (s.setMe x).setMe y = s.setMe y := by
  show { s with strands := Tbl.insert (Tbl.insert s.strands s.cur x) s.cur y } = _
  rw [Tbl.insert_insert]; rfl

theorem State.slot_cases {s t : State} {k : Nat} {f : Strand → Strand} (h : s.slot k f = .next t) :
    t = s.setMe ((f s.me).performed k) := (next_inj h).symm

theorem State.trapSlot_cases {s t : State} {k : Nat} {c : Cause} {v : W64} (h : s.trapSlot k c v = .next t) :
    t = s.setMe (s.me.slotTrap k c v) := (next_inj h).symm

/-- A jump either traps BOUNDS with every slot unperformed or selects its target. -/
theorem State.jump_cases {s t : State} {a : BitVec 6} (h : s.jump a = .next t) :
    (s.me.image.nbun ≤ (s.me.s a).toNat ∧ t = s.setMe (s.me.voidTrap 0 .bounds (s.me.s a))) ∨
    ((s.me.s a).toNat < s.me.image.nbun ∧ t = s.setMe ((s.me.setNext (s.me.s a).toNat).performed 0)) := by
  simp only [State.jump] at h
  split at h
  · exact .inl ⟨‹_›, (next_inj h).symm⟩
  · exact .inr ⟨by omega, (next_inj h).symm⟩

/-- A loop instruction skips its body, traps LOOP with 2 or 0, or pushes an entry. -/
theorem State.loop_cases {s t : State} {rot : Bool} {cnt a : BitVec 6} {len : BitVec 13} (h : s.loop rot cnt a len = .next t) :
    (loopCount s.me cnt a = 0 ∧ t = s.setMe ((s.me.setNext (s.me.iss.idx + len.toNat + 1)).performed 0)) ∨
    (0xFFFFFFFF < loopCount s.me cnt a ∧ t = s.setMe (s.me.slotTrap 0 .loop 2)) ∨
    (0 < loopCount s.me cnt a ∧ loopCount s.me cnt a ≤ 0xFFFFFFFF ∧ s.me.loops.length = 6 ∧ t = s.setMe (s.me.slotTrap 0 .loop 0)) ∨
    (0 < loopCount s.me cnt a ∧ loopCount s.me cnt a ≤ 0xFFFFFFFF ∧ s.me.loops.length ≠ 6 ∧
      t = s.setMe ((s.me.pushLoop rot (loopCount s.me cnt a) len.toNat).performed 0)) := by
  simp only [State.loop] at h
  split at h
  · exact .inl ⟨‹_›, (next_inj h).symm⟩
  · split at h
    · exact .inr (.inl ⟨‹_›, (next_inj h).symm⟩)
    · split at h
      · exact .inr (.inr (.inl ⟨by omega, by omega, ‹_›, (next_inj h).symm⟩))
      · exact .inr (.inr (.inr ⟨by omega, by omega, ‹_›, (next_inj h).symm⟩))

/-- RADVC of a count of 0 on an enabled ring does nothing (R118); any other traps RING, or it moves the consumer pointer, which the transfer unit sees from the next cycle on (R20). -/
theorem State.radvc_cases {s t : State} {h : BitVec 4} {n : W64} (e : s.radvc h n = .next t) :
    ((s.me.ringAt h.toNat).en = true ∧ n = 0 ∧ t = s.setMe (s.me.performed 0)) ∨
    (¬((s.me.ringAt h.toNat).en = true ∧ n = 0) ∧
      ((s.me.ringAt h.toNat).en = false ∨ (s.me.ringAt h.toNat).fill < n.toNat ∨ (s.me.ringAt h.toNat).bind = 2) ∧
      t = s.setMe (s.me.slotTrap 0 .ring n)) ∨
    ((s.me.ringAt h.toNat).en = true ∧ n ≠ 0 ∧ n.toNat ≤ (s.me.ringAt h.toNat).fill ∧ (s.me.ringAt h.toNat).bind ≠ 2 ∧
      t = s.setMe (Strand.performed { s.me.setRing h.toNat ((s.me.ring h.toNat).consume n.toNat) with adv := some (h.toNat, n.toNat) } 0)) := by
  simp only [State.radvc] at e
  split at e
  · rename_i h0
    exact .inl ⟨h0.1, h0.2, (next_inj e).symm⟩
  · rename_i h0
    split at e
    · exact .inr (.inl ⟨h0, ‹_›, (next_inj e).symm⟩)
    · rename_i hn
      simp only [not_or, Nat.not_lt, Bool.not_eq_false] at hn
      exact .inr (.inr ⟨hn.1, fun hz => h0 ⟨hn.1, hz⟩, hn.2.1, hn.2.2, (next_inj e).symm⟩)

/-- RADVP of a count of 0 on an enabled ring does nothing; any other traps RING, or it moves the producer pointer. -/
theorem State.radvp_cases {s t : State} {h : BitVec 4} {n : W64} (e : s.radvp h n = .next t) :
    ((s.me.ringAt h.toNat).en = true ∧ n = 0 ∧ t = s.setMe (s.me.performed 0)) ∨
    (¬((s.me.ringAt h.toNat).en = true ∧ n = 0) ∧
      ((s.me.ringAt h.toNat).en = false ∨ (s.me.ringAt h.toNat).free < n.toNat ∨ (s.me.ringAt h.toNat).bind = 1) ∧
      t = s.setMe (s.me.slotTrap 0 .ring n)) ∨
    ((s.me.ringAt h.toNat).en = true ∧ n ≠ 0 ∧ n.toNat ≤ (s.me.ringAt h.toNat).free ∧ (s.me.ringAt h.toNat).bind ≠ 1 ∧
      t = s.setMe (Strand.performed { s.me.setRing h.toNat ((s.me.ring h.toNat).produce n.toNat) with adv := some (h.toNat, n.toNat) } 0)) := by
  simp only [State.radvp] at e
  split at e
  · rename_i h0
    exact .inl ⟨h0.1, h0.2, (next_inj e).symm⟩
  · rename_i h0
    split at e
    · exact .inr (.inl ⟨h0, ‹_›, (next_inj e).symm⟩)
    · rename_i hn
      simp only [not_or, Nat.not_lt, Bool.not_eq_false] at hn
      exact .inr (.inr ⟨hn.1, fun hz => h0 ⟨hn.1, hz⟩, hn.2.1, hn.2.2, (next_inj e).symm⟩)

/-- A governed instruction of slot C whose stage predicate reads 0 performs nothing; else it traps FORMAT or has its effect. -/
theorem State.slotC_cases {s t : State} {l : LentC} {bad : Bool} {f : Strand → Strand} (h : s.slotC l bad f = .next t) :
    ((l.qe = true ∧ s.me.q.getLsbD l.qi.toNat = false) ∧ t = s.setMe (s.me.performed 2)) ∨
    (¬(l.qe = true ∧ s.me.q.getLsbD l.qi.toNat = false) ∧ bad = true ∧
      t = s.setMe (s.me.slotTrap 2 .format ((slotOf s.me.iss.word 2).setWidth 64))) ∨
    (¬(l.qe = true ∧ s.me.q.getLsbD l.qi.toNat = false) ∧ bad = false ∧ t = s.setMe ((f s.me).performed 2)) := by
  simp only [State.slotC, State.governed] at h
  split at h
  · exact .inl ⟨‹_›, (next_inj h).symm⟩
  · cases bad
    · exact .inr (.inr ⟨‹_›, rfl, (next_inj h).symm⟩)
    · exact .inr (.inl ⟨‹_›, rfl, (next_inj h).symm⟩)

/-- An instruction of slot D that its guard turns off performs nothing; else the first check that fails is its trap; else it runs. -/
theorem State.slotD_cases {s t : State} {gd : BitVec 4} {cs : List Check} {run : State → State} (h : s.slotD gd cs run = .next t) :
    ((s.me.p gd.toNat).getLsbD 0 = false ∧ t = s.setMe (s.me.performed 3)) ∨
    ((s.me.p gd.toNat).getLsbD 0 = true ∧ ∃ b c v, cs.find? Prod.fst = some (b, c, v) ∧
      t = s.setMe (s.me.slotTrap 3 c (BitVec.ofNat 64 v))) ∨
    ((s.me.p gd.toNat).getLsbD 0 = true ∧ cs.find? Prod.fst = none ∧ t = (run s).onMe fun x => x.performed 3) := by
  simp only [State.slotD] at h
  split at h
  · exact .inl ⟨‹_›, (next_inj h).symm⟩
  · rename_i hg
    have hg : (s.me.p gd.toNat).getLsbD 0 = true := by simpa using hg
    split at h
    · exact .inr (.inl ⟨hg, _, _, _, ‹_›, (next_inj h).symm⟩)
    · exact .inr (.inr ⟨hg, ‹_›, (next_inj h).symm⟩)

/-- A trap that is taken: kernel mode, with a handler (R284). -/
theorem Strand.takeTrap_taken (x : Strand) (tvec idx n : Nat) (first : Bool) (next : Option Nat) (perf : BitVec 4) (r : Report)
    (h : x.image.tvec = some tvec) :
    let y := x.takeTrap idx n false first next perf r
    y.epc = BitVec.ofNat 64 idx ∧ y.tcause = tcauseWord r.cause r.slot perf r.pend r.stage r.akind ∧ y.tval = r.tval ∧
      y.handler = true ∧ y.hcnt = 0 ∧ y.latH = .zero ∧ y.pc = tvec ∧ y.life = x.life ∧ y.sreg = x.sreg ∧ y.vreg = x.vreg ∧
      y.preg = x.preg := by
  simp [Strand.takeTrap, h]

/-- A trap that is not taken: the registers of the trap keep their values (R289). -/
theorem Strand.takeTrap_untaken (x : Strand) (idx n : Nat) (handler first : Bool) (next : Option Nat) (perf : BitVec 4) (r : Report)
    (h : handler = true ∨ x.image.tvec = none) :
    let y := x.takeTrap idx n handler first next perf r
    y.epc = x.epc ∧ y.tcause = x.tcause ∧ y.tval = x.tval ∧ y.handler = x.handler ∧ y.life = .faultWait := by
  rcases h with rfl | h
  · simp [Strand.takeTrap]
  · cases handler <;> simp [Strand.takeTrap, h]

/-- Where no gather among the writes is due, nothing is chosen. -/
theorem closeWrites_off (x : Strand) (hnd : Bool) (due : Write → Bool) (h : ∀ w, due w = false) (free : Nat) (l : List Write) :
    closeWrites x hnd due free l = (free, l) := by
  induction l with
  | nil => rfl
  | cons w r ih => simp only [closeWrites, h, ih]; split <;> simp

theorem closeRow_length (x : Strand) (v : View) (ord free : Nat) (r : List GatherSeg) : (closeRow x v ord free r).2.length = r.length := by
  induction r generalizing free with
  | nil => rfl
  | cons g r ih => simp only [closeRow]; split <;> simp [ih]

theorem closeRows_shape (x : Strand) (v : View) (ord free : Nat) (rows : List (List GatherSeg)) :
    (closeRows x v ord free rows).2.map List.length = rows.map List.length := by
  induction rows generalizing free with
  | nil => rfl
  | cons r rs ih => simp [closeRows, ih, closeRow_length]

/-- Closing gathers keeps every write in its place, changes no write but a gather, and of a gather only what its segments hold. -/
theorem closeWrites_rel (x : Strand) (hnd : Bool) (due : Write → Bool) (free : Nat) (l : List Write) :
    (closeWrites x hnd due free l).2.length = l.length ∧
    ∀ (i : Nat) (w : Write), l[i]? = some w → ∃ u : Write, (closeWrites x hnd due free l).2[i]? = some u ∧
      (u = w ∨ ∃ (v : View) (o n : Nat) (rows rows' : List (List GatherSeg)), w.tgt = .gather v o n rows ∧
        u = { w with tgt := .gather v o n rows' } ∧ rows'.map List.length = rows.map List.length) := by
  induction l generalizing free with
  | nil => simp [closeWrites]
  | cons w r ih =>
    simp only [closeWrites]
    split
    · rename_i v o n rows hw
      split
      · refine ⟨by simp [(ih _).1], fun i y hy => ?_⟩
        cases i with
        | zero => cases hy; exact ⟨_, rfl, .inr ⟨v, o, n, rows, _, hw, rfl, closeRows_shape ..⟩⟩
        | succ i => exact (ih _).2 i y hy
      · refine ⟨by simp [(ih _).1], fun i y hy => ?_⟩
        cases i with
        | zero => cases hy; exact ⟨_, rfl, .inl rfl⟩
        | succ i => exact (ih _).2 i y hy
    · refine ⟨by simp [(ih _).1], fun i y hy => ?_⟩
      cases i with
      | zero => cases hy; exact ⟨_, rfl, .inl rfl⟩
      | succ i => exact (ih _).2 i y hy

/-- A global store is held in the open region, or it enters the memory queue behind what the region releases. -/
theorem State.globalStore_cases (s : State) (ps : List Piece) :
    (s.me.regOpen = true ∧ (ps.foldl holdPiece s.me.held).length ≤ 64 ∧
      s.globalStore ps = s.setMe { s.me with held := ps.foldl holdPiece s.me.held }) ∨
    (¬(s.me.regOpen = true ∧ (ps.foldl holdPiece s.me.held).length ≤ 64) ∧
      s.globalStore ps = (s.closeRegion.addReq true .store ps).2) := by
  simp only [State.globalStore]
  split
  · exact .inl ⟨(‹_ ∧ _›).1, (‹_ ∧ _›).2, rfl⟩
  · exact .inr ⟨‹_›, rfl⟩
end Sys2Proof.Machine
end

