-- ==== Sys2Proof/Tests/Slice0.lean ====
section
/-! SUPPORT. Tests: ill-formed instructions that WellFormed refuses, words written out bit by bit from the encodings of the spec, worked
examples of the spec, and for each statement of Certificates/Slice0/Obligations.lean a state that meets the hypotheses of each of its
clauses. -/

namespace Sys2Proof.Tests

open Sys2Proof Sys2Proof.Machine

set_option Elab.async false

/-! ## WellFormed refuses -/

/-- R118: a count of 0 in the immediate form. -/
theorem test_wf_radvc_zero : (Instr.radvcImm 3 0).wf = false := by decide
/-- R116: field 6 is unassigned. -/
theorem test_wf_rdwid_six : (Instr.rdwid 4 6).wf = false := by decide
/-- R106: a body of no bundle. -/
theorem test_wf_loop_empty : (Instr.loop 2 0 0).wf = false := by decide
/-- R189: a rotation by 96. -/
theorem test_wf_mrot_96 : (Instr.mrot ⟨0, false⟩ 96).wf = false := by decide
/-- R182 and R68: row 96 of a B latch. -/
theorem test_wf_mshift_row : (Instr.mshift ⟨0, false⟩ 0 96).wf = false := by decide
/-- R68: a vector register of 96. -/
theorem test_wf_vreg : (Instr.vmov ⟨0, .one, false⟩ .f32 96 0).wf = false := by decide
/-- R136: an integer type of a floating-point instruction. -/
theorem test_wf_vadd_int : (Instr.vadd ⟨0, .one, false⟩ .i32 1 2 3).wf = false := by decide
/-- R140: a floating-point type of an integer instruction. -/
theorem test_wf_viadd_float : (Instr.viadd ⟨0, .one, false⟩ .f32 1 2 3).wf = false := by decide
/-- A group of four that ends beyond the last register. -/
theorem test_wf_group_end : (Instr.vmov ⟨0, .four, false⟩ .f32 93 0).wf = false := by decide
/-- R110: LBRK with U and a register. -/
theorem test_wf_lbrk : (Instr.lbrk 3 true).wf = false := by decide
/-- R78: a run of three beyond s63. -/
theorem test_wf_run : (Instr.cpy 0 1 62 2).wf = false := by decide
/-- R128: a ratio of 8. -/
theorem test_wf_vcvt_ratio : (Instr.vcvt ⟨0, .one, false⟩ .rne .f64 .e4m3 0 0).wf = false := by decide
/-- R146: the same type twice. -/
theorem test_wf_vcvt_same : (Instr.vcvt ⟨0, .one, false⟩ .rne .f32 .f32 0 0).wf = false := by decide
/-- R66: HC on an instruction that reads no third operand. -/
theorem test_wf_hc : (Instr.viadd ⟨0, .one, true⟩ .i32 1 2 3).wf = false := by decide
/-- R170: a modular instruction on a group of four. -/
theorem test_wf_modular_group : (Instr.vmodmul ⟨0, .four, false⟩ 0 4 8 0).wf = false := by decide
/-- R171: a stage of the butterfly beyond the group. -/
theorem test_wf_vbfly_stage : (Instr.vbfly ⟨0, .one, false⟩ 0 3 0 6).wf = false := by decide
/-- R174: a code between the two ranges. -/
theorem test_wf_vpermb_code : (Instr.vpermb ⟨0, .two, false⟩ 12 0 7).wf = false := by decide
/-- R160: a 64-bit type without a group of two. -/
theorem test_wf_vldx_group : (Instr.vldx ⟨0, .one, false⟩ .lin .i64 0 1 2).wf = false := by decide
/-- R73: no slots needed. -/
theorem test_wf_vldr_need : (Instr.vldr ⟨0, .one, false⟩ .lin 0 1 0 0).wf = false := by decide
/-- R70: an unordered condition on integers. -/
theorem test_wf_vcmp_un : (Instr.vcmp ⟨0, .one, false⟩ .un .i32 1 2 3).wf = false := by decide
/-- R130: more elements than a predicate has bits. -/
theorem test_wf_vcmp_wide : (Instr.vcmp ⟨0, .four, false⟩ .eq .i8 1 4 8).wf = false := by decide
/-- R141: 64-bit sources of a widening product. -/
theorem test_wf_vmulw : (Instr.vmulw ⟨0, .one, false⟩ .i64 0 2 3).wf = false := by decide
/-- R147: a source no wider than a byte. -/
theorem test_wf_vpack : (Instr.vpack ⟨0, .one, false⟩ .n8 0 2 3).wf = false := by decide
/-- R154: a broadcast into a group. -/
theorem test_wf_vbcst : (Instr.vbcst ⟨0, .two, false⟩ .i32 0 1).wf = false := by decide
/-- R166: VMSETM of a group. -/
theorem test_wf_vmsetm : (Instr.vmsetm ⟨0, .two, false⟩ 0 0).wf = false := by decide
/-- R184: KR of 0 and of 97. -/
theorem test_wf_mcfg : (Instr.mcfg ⟨0, false⟩ 0 1).wf = false ∧ (Instr.mcfg ⟨0, false⟩ 97 1).wf = false := by decide
/-- R76: K set where no queue is pushed from. -/
theorem test_wf_mpush : (Instr.mpush ⟨0, false⟩ 2 0 false true).wf = false := by decide
/-- R195: a type that MDRAIN does not write. -/
theorem test_wf_mdrain : (Instr.mdrain ⟨0, false⟩ .i64 false 4 0).wf = false := by decide
/-- R76: MDRAINQ writes no MXFP8. -/
theorem test_wf_mdrainq : (Instr.mdrainq ⟨0, false⟩ .mxE4m3 false 4 0).wf = false := by decide
/-- R78: an arrival below 16. -/
theorem test_wf_arrival : (Instr.tld 0 .one 8 3 15).wf = false := by decide
/-- R78: AQ without a destination. -/
theorem test_wf_atadd_aq : (Instr.atadd 0 .n64 0 4 5 1).wf = false := by decide
/-- R209: fadd on an integer. -/
theorem test_wf_fadd : (Instr.atfadd 0 .n32 9 4 5 1).wf = false ∧ (Instr.red 0 .fadd .n32 4 5).wf = false ∧
    (Instr.ratm 0 .fadd .n64 1 4 8).wf = false := by decide
/-- R31: 0x005 is unassigned, 0x000 is read only. -/
theorem test_wf_system_register : (Instr.rdsr 4 0x005).wf = false ∧ (Instr.wrsr 0x000 4).wf = false := by decide
/-- R118: the register form with s0. -/
theorem test_wf_radvc_s0 : (Instr.radvcReg 3 0).wf = false := by decide

/-- Words of slot A, field by field from the most significant bit, with the instruction that each encodes. -/
def wordsA0 : List (BitVec 32 × Instr) := [
  (0x01#7 ++ 5#6 ++ 62#6 ++ 33#6 ++ 0#7, .add 5 62 33),
  (0x02#7 ++ 5#6 ++ 62#6 ++ 33#6 ++ 0#7, .sub 5 62 33),
  (0x03#7 ++ 5#6 ++ 62#6 ++ 33#6 ++ 0#7, .mul 5 62 33),
  (0x04#7 ++ 5#6 ++ 62#6 ++ 33#6 ++ 0#7, .mulhi 5 62 33),
  (0x05#7 ++ 5#6 ++ 62#6 ++ 33#6 ++ 0#7, .mulhn 5 62 33),
  (0x06#7 ++ 5#6 ++ 62#6 ++ 33#6 ++ 0#7, .div 5 62 33),
  (0x07#7 ++ 5#6 ++ 62#6 ++ 33#6 ++ 0#7, .divn 5 62 33),
  (0x08#7 ++ 5#6 ++ 62#6 ++ 33#6 ++ 0#7, .rem 5 62 33),
  (0x09#7 ++ 5#6 ++ 62#6 ++ 33#6 ++ 0#7, .remn 5 62 33),
  (0x0A#7 ++ 5#6 ++ 62#6 ++ 33#6 ++ 0#7, .and 5 62 33),
  (0x0B#7 ++ 5#6 ++ 62#6 ++ 33#6 ++ 0#7, .or 5 62 33),
  (0x0C#7 ++ 5#6 ++ 62#6 ++ 33#6 ++ 0#7, .xor 5 62 33),
  (0x0D#7 ++ 5#6 ++ 62#6 ++ 33#6 ++ 0#7, .andn 5 62 33),
  (0x0E#7 ++ 5#6 ++ 62#6 ++ 33#6 ++ 0#7, .shl 5 62 33),
  (0x0F#7 ++ 5#6 ++ 62#6 ++ 33#6 ++ 0#7, .shr 5 62 33),
  (0x10#7 ++ 5#6 ++ 62#6 ++ 33#6 ++ 0#7, .sar 5 62 33),
  (0x11#7 ++ 5#6 ++ 62#6 ++ 33#6 ++ 0#7, .rotl 5 62 33),
  (0x12#7 ++ 5#6 ++ 62#6 ++ 33#6 ++ 0#7, .min 5 62 33),
  (0x13#7 ++ 5#6 ++ 62#6 ++ 33#6 ++ 0#7, .minn 5 62 33),
  (0x14#7 ++ 5#6 ++ 62#6 ++ 33#6 ++ 0#7, .max 5 62 33),
  (0x15#7 ++ 5#6 ++ 62#6 ++ 33#6 ++ 0#7, .maxn 5 62 33),
  (0x16#7 ++ 5#6 ++ 62#6 ++ 0#6 ++ 0#7, .clz 5 62),
  (0x17#7 ++ 5#6 ++ 62#6 ++ 0#6 ++ 0#7, .ctz 5 62),
  (0x18#7 ++ 5#6 ++ 62#6 ++ 0#6 ++ 0#7, .popc 5 62),
  (0x19#7 ++ 5#6 ++ 62#6 ++ 33#6 ++ 13#4 ++ 0#3, .sel 5 13 62 33),
  (0x1A#7 ++ 13#6 ++ 62#6 ++ 33#6 ++ 9#4 ++ 0#3, .cmp .gtn 13 62 33),
  (0x20#7 ++ 5#6 ++ 62#6 ++ 4097#13, .addi 5 62 4097),
  (0x21#7 ++ 5#6 ++ 62#6 ++ 4097#13, .andi 5 62 4097),
  (0x22#7 ++ 5#6 ++ 62#6 ++ 4097#13, .ori 5 62 4097),
  (0x23#7 ++ 5#6 ++ 62#6 ++ 4097#13, .xori 5 62 4097),
  (0x24#7 ++ 5#6 ++ 62#6 ++ 0#7 ++ 37#6, .shli 5 62 37),
  (0x25#7 ++ 5#6 ++ 62#6 ++ 0#7 ++ 37#6, .shri 5 62 37),
  (0x26#7 ++ 5#6 ++ 62#6 ++ 0#7 ++ 37#6, .sari 5 62 37),
  (0x27#7 ++ 5#6 ++ 62#6 ++ 0#7 ++ 37#6, .sext 5 62 37),
  (0x28#7 ++ 5#6 ++ 62#6 ++ 0#7 ++ 37#6, .zext 5 62 37),
  (0x29#7 ++ 5#6 ++ 262145#19, .movi 5 262145),
  (0x2A#7 ++ 5#6 ++ 2#2 ++ 0#1 ++ 32769#16, .movhi 5 2 32769),
  (0x2B#7 ++ 5#6 ++ 62#6 ++ 3#2 ++ 1025#11, .lds .b8 5 62 1025),
  (0x2C#7 ++ 5#6 ++ 62#6 ++ 3#2 ++ 1025#11, .sts .b8 5 62 1025),
  (0x30#7 ++ 13#4 ++ 6#4 ++ 9#4 ++ 0#13, .pand 13 6 9)]

theorem test_decode_a0 : wordsA0.all (fun e => decodeTableWord 32 (e.1.toNat) == some e.2) = true := by
  decide +kernel

/-- Words of slot A, field by field from the most significant bit, with the instruction that each encodes. -/
def wordsA1 : List (BitVec 32 × Instr) := [
  (0x31#7 ++ 13#4 ++ 6#4 ++ 9#4 ++ 0#13, .por 13 6 9),
  (0x32#7 ++ 13#4 ++ 6#4 ++ 9#4 ++ 0#13, .pxor 13 6 9),
  (0x33#7 ++ 13#4 ++ 6#4 ++ 0#4 ++ 0#13, .pnot 13 6),
  (0x34#7 ++ 13#4 ++ 6#4 ++ 0#4 ++ 0#13, .pmov 13 6),
  (0x40#7 ++ 0#6 ++ 262145#19, .br 262145),
  (0x41#7 ++ 13#4 ++ 2#2 ++ 262145#19, .brp .all 13 262145),
  (0x42#7 ++ 5#6 ++ 262145#19, .call 5 262145),
  (0x43#7 ++ 0#6 ++ 62#6 ++ 0#13, .ret 62),
  (0x44#7 ++ 0#6 ++ 62#6 ++ 0#13, .jr 62),
  (0x45#7 ++ 0#6 ++ 62#6 ++ 8191#13, .loop 0 62 8191),
  (0x45#7 ++ 41#6 ++ 0#6 ++ 1#13, .loop 41 0 1),
  (0x46#7 ++ 0#6 ++ 62#6 ++ 8191#13, .loops 0 62 8191),
  (0x46#7 ++ 41#6 ++ 0#6 ++ 1#13, .loops 41 0 1),
  (0x47#7 ++ 0#6 ++ 62#6 ++ 0#12 ++ 0#1, .lbrk 62 false),
  (0x47#7 ++ 0#6 ++ 0#6 ++ 0#12 ++ 1#1, .lbrk 0 true),
  (0x48#7 ++ 0#25, .region),
  (0x49#7 ++ 0#25, .endreg),
  (0x61#7 ++ 0#25, .eret),
  (0x62#7 ++ 0#25, .done),
  (0x63#7 ++ 0#25, .yield),
  (0x50#7 ++ 0#6 ++ 0#6 ++ 4097#13, .setfmt 4097),
  (0x51#7 ++ 5#6 ++ 0#6 ++ 0#13, .getfmt 5),
  (0x52#7 ++ 5#6 ++ 0#6 ++ 0#13, .rdcyc 5),
  (0x53#7 ++ 0#6 ++ 62#6 ++ 0#13, .waitc 62),
  (0x54#7 ++ 5#6 ++ 0#6 ++ 0#10 ++ 7#3, .rdwid 5 7),
  (0x55#7 ++ 5#6 ++ 0#6 ++ 0#1 ++ 53#12, .rdsr 5 0x35),
  (0x56#7 ++ 0#6 ++ 62#6 ++ 0#1 ++ 79#12, .wrsr 0x4F 62),
  (0x60#7 ++ 0#6 ++ 0#6 ++ 8191#13, .trap 8191),
  (0x64#7 ++ 0#2 ++ 13#4 ++ 0#6 ++ 0#1 ++ 2049#12, .radvcImm 13 2049),
  (0x64#7 ++ 0#2 ++ 13#4 ++ 62#6 ++ 0#13, .radvcReg 13 62),
  (0x65#7 ++ 0#2 ++ 13#4 ++ 0#6 ++ 0#1 ++ 2049#12, .radvpImm 13 2049),
  (0x65#7 ++ 0#2 ++ 13#4 ++ 62#6 ++ 0#13, .radvpReg 13 62),
  (0x66#7 ++ 5#6 ++ 0#6 ++ 0#9 ++ 13#4, .rstat 5 13),
  (0x67#7 ++ 0#6 ++ 62#6 ++ 0#8 ++ 21#5, .fladd 21 62),
  (0x68#7 ++ 5#6 ++ 0#6 ++ 0#8 ++ 21#5, .flrd 5 21)]

theorem test_decode_a1 : wordsA1.all (fun e => decodeTableWord 32 (e.1.toNat) == some e.2) = true := by
  decide +kernel

/-- Words of slot B, field by field from the most significant bit, with the instruction that each encodes. -/
def wordsB0 : List (BitVec 32 × Instr) := [
  (0x01#7 ++ 80#7 ++ 67#7 ++ 127#7 ++ 2#4, .vadd ⟨0, .one, false⟩ .bf16 80 67 127),
  (0x02#7 ++ 80#7 ++ 67#7 ++ 127#7 ++ 2#4, .vsub ⟨0, .one, false⟩ .bf16 80 67 127),
  (0x03#7 ++ 80#7 ++ 67#7 ++ 127#7 ++ 2#4, .vmul ⟨0, .one, false⟩ .bf16 80 67 127),
  (0x04#7 ++ 80#7 ++ 67#7 ++ 127#7 ++ 2#4, .vfma ⟨0, .one, false⟩ .bf16 80 67 127),
  (0x05#7 ++ 80#7 ++ 67#7 ++ 127#7 ++ 2#4, .vfms ⟨0, .one, false⟩ .bf16 80 67 127),
  (0x06#7 ++ 80#7 ++ 67#7 ++ 127#7 ++ 2#4, .vfnma ⟨0, .one, false⟩ .bf16 80 67 127),
  (0x07#7 ++ 80#7 ++ 67#7 ++ 127#7 ++ 2#4, .vmin ⟨0, .one, false⟩ .bf16 80 67 127),
  (0x08#7 ++ 80#7 ++ 67#7 ++ 127#7 ++ 2#4, .vmax ⟨0, .one, false⟩ .bf16 80 67 127),
  (0x09#7 ++ 80#7 ++ 67#7 ++ 127#7 ++ 2#4, .vcps ⟨0, .one, false⟩ .bf16 80 67 127),
  (0x0A#7 ++ 80#7 ++ 67#7 ++ 127#7 ++ 2#4, .vdiv ⟨0, .one, false⟩ .bf16 80 67 127),
  (0x49#7 ++ 80#7 ++ 67#7 ++ 127#7 ++ 2#4, .vscana ⟨0, .one, false⟩ .bf16 80 67 127),
  (0x20#7 ++ 80#7 ++ 67#7 ++ 127#7 ++ 13#4, .viadd ⟨0, .one, false⟩ .n64 80 67 127),
  (0x21#7 ++ 80#7 ++ 67#7 ++ 127#7 ++ 13#4, .visub ⟨0, .one, false⟩ .n64 80 67 127),
  (0x22#7 ++ 80#7 ++ 67#7 ++ 127#7 ++ 13#4, .vimul ⟨0, .one, false⟩ .n64 80 67 127),
  (0x23#7 ++ 80#7 ++ 67#7 ++ 127#7 ++ 13#4, .vimulh ⟨0, .one, false⟩ .n64 80 67 127),
  (0x24#7 ++ 80#7 ++ 67#7 ++ 127#7 ++ 13#4, .vimad ⟨0, .one, false⟩ .n64 80 67 127),
  (0x25#7 ++ 80#7 ++ 67#7 ++ 127#7 ++ 13#4, .vimin ⟨0, .one, false⟩ .n64 80 67 127),
  (0x26#7 ++ 80#7 ++ 67#7 ++ 127#7 ++ 13#4, .vimax ⟨0, .one, false⟩ .n64 80 67 127),
  (0x27#7 ++ 80#7 ++ 67#7 ++ 127#7 ++ 13#4, .vand ⟨0, .one, false⟩ .n64 80 67 127),
  (0x28#7 ++ 80#7 ++ 67#7 ++ 127#7 ++ 13#4, .vor ⟨0, .one, false⟩ .n64 80 67 127),
  (0x29#7 ++ 80#7 ++ 67#7 ++ 127#7 ++ 13#4, .vxor ⟨0, .one, false⟩ .n64 80 67 127),
  (0x2B#7 ++ 80#7 ++ 67#7 ++ 127#7 ++ 13#4, .vshl ⟨0, .one, false⟩ .n64 80 67 127),
  (0x2C#7 ++ 80#7 ++ 67#7 ++ 127#7 ++ 13#4, .vshr ⟨0, .one, false⟩ .n64 80 67 127),
  (0x2D#7 ++ 80#7 ++ 67#7 ++ 127#7 ++ 13#4, .vsar ⟨0, .one, false⟩ .n64 80 67 127),
  (0x33#7 ++ 80#7 ++ 67#7 ++ 127#7 ++ 8#4, .vmulw ⟨0, .one, false⟩ .i32 80 67 127),
  (0x43#7 ++ 80#7 ++ 67#7 ++ 127#7 ++ 11#4, .vpack ⟨0, .one, false⟩ .n16 80 67 127),
  (0x54#7 ++ 80#7 ++ 67#7 ++ 127#7 ++ 4#4, .vshfl ⟨0, .one, false⟩ .e4m3 80 67 127),
  (0x56#7 ++ 80#7 ++ 67#7 ++ 127#7 ++ 4#4, .vzip ⟨0, .one, false⟩ .e4m3 80 67 127),
  (0x57#7 ++ 80#7 ++ 67#7 ++ 127#7 ++ 4#4, .vunzip ⟨0, .one, false⟩ .e4m3 80 67 127),
  (0x10#7 ++ 80#7 ++ 127#7 ++ 0#3 ++ 0#4 ++ 3#4, .vabs ⟨0, .one, false⟩ .f16 80 127),
  (0x11#7 ++ 80#7 ++ 127#7 ++ 0#3 ++ 0#4 ++ 3#4, .vneg ⟨0, .one, false⟩ .f16 80 127),
  (0x13#7 ++ 80#7 ++ 127#7 ++ 0#3 ++ 0#4 ++ 3#4, .vclass ⟨0, .one, false⟩ .f16 80 127),
  (0x14#7 ++ 80#7 ++ 127#7 ++ 0#3 ++ 0#4 ++ 3#4, .vrcp ⟨0, .one, false⟩ .f16 80 127),
  (0x15#7 ++ 80#7 ++ 127#7 ++ 0#3 ++ 0#4 ++ 3#4, .vrsq ⟨0, .one, false⟩ .f16 80 127),
  (0x17#7 ++ 80#7 ++ 127#7 ++ 0#3 ++ 0#4 ++ 3#4, .vexp2 ⟨0, .one, false⟩ .f16 80 127),
  (0x18#7 ++ 80#7 ++ 127#7 ++ 0#3 ++ 0#4 ++ 3#4, .vlog2 ⟨0, .one, false⟩ .f16 80 127),
  (0x19#7 ++ 80#7 ++ 127#7 ++ 0#3 ++ 0#4 ++ 3#4, .vsin ⟨0, .one, false⟩ .f16 80 127),
  (0x1A#7 ++ 80#7 ++ 127#7 ++ 0#3 ++ 0#4 ++ 3#4, .vcos ⟨0, .one, false⟩ .f16 80 127),
  (0x1B#7 ++ 80#7 ++ 127#7 ++ 0#3 ++ 0#4 ++ 3#4, .vtanh ⟨0, .one, false⟩ .f16 80 127),
  (0x1C#7 ++ 80#7 ++ 127#7 ++ 0#3 ++ 0#4 ++ 3#4, .vsigm ⟨0, .one, false⟩ .f16 80 127)]

theorem test_decode_b0 : wordsB0.all (fun e => decodeTableWord 64 (e.1.toNat * 2 ^ 32) == some e.2) = true := by
  decide +kernel

/-- Words of slot B, field by field from the most significant bit, with the instruction that each encodes. -/
def wordsB1 : List (BitVec 32 × Instr) := [
  (0x45#7 ++ 80#7 ++ 127#7 ++ 0#3 ++ 0#4 ++ 3#4, .vradd ⟨0, .one, false⟩ .f16 80 127),
  (0x46#7 ++ 80#7 ++ 127#7 ++ 0#3 ++ 0#4 ++ 3#4, .vrmax ⟨0, .one, false⟩ .f16 80 127),
  (0x47#7 ++ 80#7 ++ 127#7 ++ 0#3 ++ 0#4 ++ 3#4, .vrmin ⟨0, .one, false⟩ .f16 80 127),
  (0x48#7 ++ 80#7 ++ 127#7 ++ 0#3 ++ 0#4 ++ 3#4, .vscan ⟨0, .one, false⟩ .f16 80 127),
  (0x12#7 ++ 80#7 ++ 127#7 ++ 4#3 ++ 0#4 ++ 0#4, .vrnd ⟨0, .one, false⟩ .rup .f64 80 127),
  (0x16#7 ++ 80#7 ++ 127#7 ++ 4#3 ++ 0#4 ++ 0#4, .vsqrt ⟨0, .one, false⟩ .rup .f64 80 127),
  (0x2A#7 ++ 80#7 ++ 67#7 ++ 0#3 ++ 0#4 ++ 9#4, .vnot ⟨0, .one, false⟩ .i64 80 67),
  (0x2E#7 ++ 80#7 ++ 67#7 ++ 0#3 ++ 0#4 ++ 9#4, .vpopc ⟨0, .one, false⟩ .i64 80 67),
  (0x2F#7 ++ 80#7 ++ 67#7 ++ 0#3 ++ 0#4 ++ 9#4, .vclz ⟨0, .one, false⟩ .i64 80 67),
  (0x44#7 ++ 80#7 ++ 67#7 ++ 0#3 ++ 0#4 ++ 6#4, .vunpk ⟨0, .one, false⟩ .i8 80 67),
  (0x50#7 ++ 80#7 ++ 67#7 ++ 0#3 ++ 0#4 ++ 5#4, .vmov ⟨0, .one, false⟩ .e5m2 80 67),
  (0x40#7 ++ 80#7 ++ 67#7 ++ 3#3 ++ 1#4 ++ 8#4, .vcvt ⟨0, .one, false⟩ .rdn .i32 .f32 80 67),
  (0x41#7 ++ 80#7 ++ 67#7 ++ 0#3 ++ 4#4 ++ 1#4, .vqnt ⟨0, .one, false⟩ .mxE5m2 .f32 80 67),
  (0x42#7 ++ 80#7 ++ 67#7 ++ 0#3 ++ 2#4 ++ 2#4, .vdqnt ⟨0, .one, false⟩ .bf16 .bx8 80 67),
  (0x30#7 ++ 80#7 ++ 67#7 ++ 127#7 ++ 13#4, .vadc ⟨0, .one, false⟩ 80 67 127 13),
  (0x31#7 ++ 80#7 ++ 67#7 ++ 127#7 ++ 13#4, .vsbc ⟨0, .one, false⟩ 80 67 127 13),
  (0x32#7 ++ 80#7 ++ 67#7 ++ 127#7 ++ 13#4, .vmadc ⟨0, .one, false⟩ 80 67 127 13),
  (0x58#7 ++ 80#7 ++ 67#7 ++ 127#7 ++ 13#4, .vselp ⟨0, .one, false⟩ 80 67 127 13),
  (0x0B#7 ++ 13#4 ++ 6#3 ++ 67#7 ++ 127#7 ++ 0#4, .vcmp ⟨0, .one, false⟩ .un .f64 13 67 127),
  (0x34#7 ++ 80#7 ++ 67#7 ++ 127#7 ++ 2#2 ++ 0#2, .vmodadd ⟨0, .one, false⟩ 80 67 127 2),
  (0x35#7 ++ 80#7 ++ 67#7 ++ 127#7 ++ 2#2 ++ 0#2, .vmodsub ⟨0, .one, false⟩ 80 67 127 2),
  (0x36#7 ++ 80#7 ++ 67#7 ++ 127#7 ++ 2#2 ++ 0#2, .vmodmul ⟨0, .one, false⟩ 80 67 127 2),
  (0x37#7 ++ 80#7 ++ 67#7 ++ 127#7 ++ 2#2 ++ 0#2, .vmodmac ⟨0, .one, false⟩ 80 67 127 2),
  (0x38#7 ++ 80#7 ++ 67#7 ++ 0#7 ++ 2#2 ++ 0#2, .vmodred ⟨0, .one, false⟩ 80 67 2),
  (0x39#7 ++ 80#7 ++ 67#7 ++ 0#7 ++ 2#2 ++ 0#2, .vmodneg ⟨0, .one, false⟩ 80 67 2),
  (0x3A#7 ++ 0#7 ++ 67#7 ++ 0#7 ++ 2#2 ++ 0#2, .vmsetm ⟨0, .one, false⟩ 2 67),
  (0x3B#7 ++ 0#7 ++ 67#7 ++ 0#7 ++ 2#2 ++ 0#2, .vmsetk ⟨0, .one, false⟩ 2 67),
  (0x3C#7 ++ 80#7 ++ 67#7 ++ 2#2 ++ 5#5 ++ 0#4, .vbfly ⟨0, .one, false⟩ 80 67 2 5),
  (0x3D#7 ++ 80#7 ++ 67#7 ++ 2#2 ++ 5#5 ++ 0#4, .vbflyi ⟨0, .one, false⟩ 80 67 2 5),
  (0x3E#7 ++ 80#7 ++ 67#7 ++ 0#2 ++ 21#5 ++ 0#4, .vpermb ⟨0, .one, false⟩ 80 67 21),
  (0x51#7 ++ 80#7 ++ 62#6 ++ 0#6 ++ 0#2 ++ 4#4, .vbcst ⟨0, .one, false⟩ .e4m3 80 62),
  (0x52#7 ++ 80#7 ++ 5#6 ++ 33#6 ++ 0#2 ++ 6#4, .vext ⟨0, .one, false⟩ .i8 5 80 33),
  (0x53#7 ++ 80#7 ++ 62#6 ++ 33#6 ++ 0#2 ++ 1#4, .vins ⟨0, .one, false⟩ .f32 80 62 33),
  (0x55#7 ++ 80#7 ++ 67#7 ++ 33#6 ++ 1#1 ++ 1#4, .vslide ⟨0, .one, false⟩ .f32 true 80 67 33),
  (0x60#7 ++ 80#7 ++ 62#6 ++ 1#1 ++ 1025#11, .vld ⟨0, .one, false⟩ .swz 80 62 1025),
  (0x61#7 ++ 80#7 ++ 62#6 ++ 1#1 ++ 1025#11, .vst ⟨0, .one, false⟩ .swz 80 62 1025),
  (0x62#7 ++ 80#7 ++ 62#6 ++ 1#1 ++ 67#7 ++ 8#4, .vldx ⟨0, .one, false⟩ .swz .i32 80 62 67),
  (0x63#7 ++ 80#7 ++ 62#6 ++ 1#1 ++ 67#7 ++ 8#4, .vstx ⟨0, .one, false⟩ .swz .i32 80 62 67),
  (0x64#7 ++ 80#7 ++ 13#4 ++ 1#1 ++ 129#8 ++ 17#5, .vldr ⟨0, .one, false⟩ .swz 80 13 129 17),
  (0x65#7 ++ 80#7 ++ 13#4 ++ 1#1 ++ 129#8 ++ 17#5, .vstr ⟨0, .one, false⟩ .swz 80 13 129 17)]

theorem test_decode_b1 : wordsB1.all (fun e => decodeTableWord 64 (e.1.toNat * 2 ^ 32) == some e.2) = true := by
  decide +kernel

/-- Words of slot C, field by field from the most significant bit, with the instruction that each encodes. -/
def wordsC0 : List (BitVec 32 × Instr) := [
  (0x01#7 ++ 96#7 ++ 127#8 ++ 0#10, .mcfg ⟨0, false⟩ 96 127),
  (0x02#7 ++ 80#7 ++ 95#7 ++ 0#11, .mshift ⟨0, false⟩ 80 95),
  (0x03#7 ++ 127#7 ++ 257#9 ++ 1#4 ++ 0#1 ++ 0#4, .mpush ⟨0, false⟩ 127 257 true false),
  (0x04#7 ++ 80#7 ++ 257#9 ++ 0#4 ++ 0#1 ++ 0#4, .macc ⟨0, false⟩ 80 257),
  (0x0A#7 ++ 80#7 ++ 257#9 ++ 0#4 ++ 0#1 ++ 0#4, .mldacc ⟨0, false⟩ 80 257),
  (0x07#7 ++ 0#7 ++ 257#9 ++ 0#4 ++ 0#1 ++ 0#4, .mzero ⟨0, false⟩ 257),
  (0x05#7 ++ 80#7 ++ 257#9 ++ 7#4 ++ 1#1 ++ 0#4, .mdrain ⟨0, false⟩ .i16 true 80 257),
  (0x06#7 ++ 80#7 ++ 257#9 ++ 2#4 ++ 1#1 ++ 0#4, .mdrainq ⟨0, false⟩ .bx8 true 80 257),
  (0x08#7 ++ 0#25, .mswap ⟨0, false⟩),
  (0x09#7 ++ 80#7 ++ 62#6 ++ 1#1 ++ 0#11, .mgath ⟨0, false⟩ .swz 80 62),
  (0x0B#7 ++ 80#7 ++ 0#7 ++ 0#11, .mstg ⟨0, false⟩ 80),
  (0x0C#7 ++ 0#7 ++ 95#7 ++ 0#11, .mrot ⟨0, false⟩ 95)]

theorem test_decode_c0 : wordsC0.all (fun e => decodeTableWord 96 (e.1.toNat * 2 ^ 64) == some e.2) = true := by
  decide +kernel

/-- Words of slot D, field by field from the most significant bit, with the instruction that each encodes. -/
def wordsD0 : List (BitVec 32 × Instr) := [
  (0x01#7 ++ 80#7 ++ 62#6 ++ 513#10 ++ 2#2, .tld 0 .four 80 62 513),
  (0x02#7 ++ 80#7 ++ 61#6 ++ 513#10 ++ 2#2, .tlds 0 .four 80 61 513),
  (0x03#7 ++ 80#7 ++ 61#6 ++ 513#10 ++ 2#2, .tldm 0 .four 80 61 513),
  (0x31#7 ++ 80#7 ++ 62#6 ++ 513#10 ++ 2#2, .rld 0 .four 80 62 513),
  (0x04#7 ++ 82#7 ++ 60#6 ++ 0#10 ++ 1#2, .tst 0 .two 82 60),
  (0x05#7 ++ 82#7 ++ 60#6 ++ 0#10 ++ 1#2, .tsts 0 .two 82 60),
  (0x30#7 ++ 82#7 ++ 60#6 ++ 0#10 ++ 1#2, .rst 0 .two 82 60),
  (0x06#7 ++ 0#1 ++ 33#6 ++ 62#6 ++ 16#10 ++ 3#2, .sldg 0 .b8 33 62 16),
  (0x07#7 ++ 0#1 ++ 33#6 ++ 62#6 ++ 0#10 ++ 2#2, .sstg 0 .b4 33 62),
  (0x10#7 ++ 33#6 ++ 62#6 ++ 17#6 ++ 3#2 ++ 21#5, .atadd 0 .n64 33 62 17 21),
  (0x12#7 ++ 33#6 ++ 62#6 ++ 17#6 ++ 3#2 ++ 21#5, .atmin 0 .n64 33 62 17 21),
  (0x13#7 ++ 33#6 ++ 62#6 ++ 17#6 ++ 3#2 ++ 21#5, .atmax 0 .n64 33 62 17 21),
  (0x14#7 ++ 33#6 ++ 62#6 ++ 17#6 ++ 3#2 ++ 21#5, .atand 0 .n64 33 62 17 21),
  (0x15#7 ++ 33#6 ++ 62#6 ++ 17#6 ++ 3#2 ++ 21#5, .ator 0 .n64 33 62 17 21),
  (0x16#7 ++ 33#6 ++ 62#6 ++ 17#6 ++ 3#2 ++ 21#5, .atxor 0 .n64 33 62 17 21),
  (0x17#7 ++ 33#6 ++ 62#6 ++ 17#6 ++ 3#2 ++ 21#5, .atswp 0 .n64 33 62 17 21),
  (0x18#7 ++ 33#6 ++ 62#6 ++ 17#6 ++ 3#2 ++ 21#5, .atcas 0 .n64 33 62 17 21),
  (0x11#7 ++ 33#6 ++ 62#6 ++ 17#6 ++ 1#2 ++ 21#5, .atfadd 0 .i64 33 62 17 21),
  (0x19#7 ++ 6#6 ++ 62#6 ++ 17#6 ++ 2#2 ++ 0#5, .red 0 .xor .n32 62 17),
  (0x08#7 ++ 0#6 ++ 33#6 ++ 0#6 ++ 0#7, .pref 0 33),
  (0x20#7 ++ 0#6 ++ 0#6 ++ 0#6 ++ 12#7, .fence 0 .fabric .acq),
  (0x21#7 ++ 0#6 ++ 0#6 ++ 0#6 ++ 0#7, .vjoin 0),
  (0x22#7 ++ 33#6 ++ 41#6 ++ 17#6 ++ 29#7, .strm 0 33 41 17 13 true),
  (0x23#7 ++ 33#6 ++ 0#6 ++ 0#6 ++ 13#7, .strmx 0 33 13),
  (0x24#7 ++ 33#6 ++ 41#6 ++ 17#6 ++ 0#7, .cpy 0 33 41 17),
  (0x34#7 ++ 33#6 ++ 41#6 ++ 17#6 ++ 0#7, .lease 0 33 41 17),
  (0x35#7 ++ 33#6 ++ 41#6 ++ 17#6 ++ 0#7, .lrecl 0 33 41 17),
  (0x50#7 ++ 33#6 ++ 41#6 ++ 17#6 ++ 0#7, .krot 0 33 41 17),
  (0x52#7 ++ 33#6 ++ 41#6 ++ 17#6 ++ 0#7, .seal 0 33 41 17),
  (0x53#7 ++ 33#6 ++ 41#6 ++ 17#6 ++ 0#7, .unseal 0 33 41 17),
  (0x32#7 ++ 33#6 ++ 41#6 ++ 17#6 ++ 39#7, .ratm 0 .swp .n32 33 41 17),
  (0x33#7 ++ 33#6 ++ 41#6 ++ 17#6 ++ 1#7, .xred 0 true 33 41 17),
  (0x40#7 ++ 33#6 ++ 41#6 ++ 0#6 ++ 0#7, .mapr 0 33 41),
  (0x41#7 ++ 33#6 ++ 41#6 ++ 0#6 ++ 0#7, .wbr 0 33 41),
  (0x54#7 ++ 33#6 ++ 41#6 ++ 0#6 ++ 0#7, .scrub 0 33 41),
  (0x55#7 ++ 33#6 ++ 41#6 ++ 0#6 ++ 0#7, .meas 0 33 41),
  (0x42#7 ++ 0#6 ++ 41#6 ++ 0#6 ++ 0#7, .invr 0 41),
  (0x51#7 ++ 33#6 ++ 41#6 ++ 0#6 ++ 4#7, .kqry 0 .group 33 41)]

theorem test_decode_d0 : wordsD0.all (fun e => decodeTableWord 128 (e.1.toNat * 2 ^ 96) == some e.2) = true := by
  decide +kernel

/-- Headers, field by field (R63): opcode, DP, SOP, SFLG, SCNT (or the reserved bits and LD), MH, LC, LB. -/
def hdrSync (sop : BitVec 2) : BitVec 32 := 0x7F#7 ++ 0#1 ++ sop ++ 21#5 ++ 5#3 ++ 0#2 ++ 0#6 ++ 0#6
def hdrLent (dp : BitVec 1) (ld : BitVec 6) (mh : BitVec 2) (lc lb : BitVec 6) : BitVec 32 :=
  0x7F#7 ++ dp ++ 0#2 ++ 0#2 ++ ld ++ mh ++ lc ++ lb

theorem test_decode_header :
    decodeTableWord 32 (hdrSync 1).toNat = some (.syncWait 21 5) ∧ decodeTableWord 32 (hdrSync 2).toNat = some (.syncPost 21 5) ∧
    decodeTableWord 32 (hdrSync 3).toNat = none ∧ decodeTableWord 32 (hdrLent 1 0 0 0 0).toNat = some .drainPoint ∧
    decodeTableWord 32 (hdrLent 0 0 1 0 0).toNat = some .mergeYield ∧ decodeTableWord 128 0 = some .nop := by decide +kernel

/-- R66: what a header lends: to slot B the mask p3, a group of two and the hold of latch C; to slot C the stage predicate q5; to slot D the
guard p9. -/
theorem test_decode_lent :
    decodeOne (bundle 0 0 (0x04#7 ++ 80#7 ++ 66#7 ++ 0x7F#7 ++ 1#4) (hdrLent 0 0 0 0 (1#1 ++ 1#2 ++ 3#3))) =
      some (.vfma ⟨3, .two, true⟩ .f32 80 66 127) ∧
    decodeOne (bundle 0 (0x0C#7 ++ 0#7 ++ 95#7 ++ 0#11) 0 (hdrLent 0 0 0 (0#2 ++ 1#1 ++ 5#3) 0)) = some (.mrot ⟨5, true⟩ 95) ∧
    decodeOne (bundle (0x21#7 ++ 0#6 ++ 0#6 ++ 0#6 ++ 0#7) 0 0 (hdrLent 0 (0#2 ++ 9#4) 0 0 0)) = some (.vjoin 9) := by decide +kernel

/-- R67, R62: slot A with a short header, B, C and D together: every step, in order. -/
theorem test_decode_bundle :
    (decodeBundle (bundle (0x21#7 ++ 0#25) (0x08#7 ++ 0#25) (0x50#7 ++ 3#7 ++ 4#7 ++ 0#3 ++ 0#4 ++ 1#4)
      (0x01#7 ++ 4#6 ++ 4#6 ++ 5#6 ++ 1#1 ++ 1#1 ++ 3#5))).toOption =
    some [(0, .drainPoint), (0, .syncPost 3 1), (0, .add 4 4 5), (1, .vmov ⟨0, .one, false⟩ .f32 3 4), (2, .mswap ⟨0, false⟩),
      (3, .vjoin 0)] := by decide +kernel

/-- R81: unassigned encodings are refused: an unassigned opcode, a reserved type, a non-zero unused field, a group that is not aligned, a load
that arrives too early, a header that lends to an empty slot, two slots with one destination. -/
theorem test_decode_refuses :
    decodeTableWord 32 (0x1B#7 ++ 0#25).toNat = none ∧
    decodeTableWord 64 ((0x01#7 ++ 1#7 ++ 2#7 ++ 3#7 ++ 14#4).toNat * 2 ^ 32) = none ∧
    decodeTableWord 32 (0x34#7 ++ 1#4 ++ 2#4 ++ 3#4 ++ 0#13).toNat = none ∧
    decodeTableWord 128 ((0x01#7 ++ 82#7 ++ 5#6 ++ 20#10 ++ 2#2).toNat * 2 ^ 96) = none ∧
    decodeTableWord 128 ((0x01#7 ++ 80#7 ++ 5#6 ++ 15#10 ++ 2#2).toNat * 2 ^ 96) = none ∧
    decodeOne (bundle 0 0 0 (hdrLent 0 0 0 0 1)) = none ∧
    badSlot (bundle (0x50#7 ++ 7#6 ++ 8#6 ++ 12#6 ++ 0#7) 0 0 (0x01#7 ++ 7#6 ++ 1#6 ++ 2#6 ++ 0#7)) = some 3 := by decide +kernel

/-! ## The hypotheses of the statements are met: slots -/

/-- The strand that withFetchWord places, with these general registers. -/
def rg (l : List (Nat × W64)) : Strand := { Strand.placed 0 with sreg := l }
/-- That strand alone, in a group of its own, with its bundle in issue. -/
def st (x : Strand) : State := { State.reset with strands := [(0, x)], groups := [(0, Group.placed)] }

theorem test_hyp_division :
    let x := (st (rg [(1, BitVec.intMin 64), (2, -1), (3, 7)])).me
    x.s 4 = 0 ∧ (x.s 1 = BitVec.intMin 64 ∧ x.s 2 = -1) ∧ (x.s 3 ≠ 0 ∧ ¬(x.s 1 = BitVec.intMin 64 ∧ x.s 3 = -1)) := by decide +kernel

/-- The last eight bytes of the window, one byte further, one byte below it, and a sum that wraps to byte 8. -/
theorem test_hyp_localData :
    let s := st (rg [(1, 65528), (2, 65529), (3, 2 ^ 64 - 8)])
    let r := fun (a : BitVec 6) (off : BitVec 11) => ((s.me.s a).toNat : Int) + off.toInt
    (0 ≤ r 1 0 ∧ r 1 0 + Sz.b8.bytes ≤ s.me.sdmSize) ∧ s.me.sdmSize < r 2 0 + Sz.b8.bytes ∧ r 0 (-1) < 0 ∧
    (s.me.sdmSize < r 3 16 + Sz.b8.bytes ∧ s.me.s 3 + (16 : BitVec 11).signExtend 64 = 8) := by decide +kernel

/-- Bundle 5 and an offset of −5: target 0. Predicate p0 meets .b0, .any and .all, p3 meets .none. -/
theorem test_hyp_transfers :
    let x := { rg [(1, 8191), (2, 8192), (3, 0xFFFFFFFF), (4, 0x100000000)] with iss := { Issue.none with idx := 5 } }
    ((x.iss.idx : Int) + (-5 : BitVec 19).toInt = ((0 : Nat) : Int)) ∧
    ((x.p 0).getLsbD 0 = true ∧ (∃ i, (x.p 0).getLsbD i = true) ∧ (∀ i, i < 1024 → (x.p 0).getLsbD i = true) ∧ x.p 3 = 0) ∧
    ((x.s 1).toNat < x.image.nbun) ∧ (x.image.nbun ≤ (x.s 2).toNat ∧ x.iss.trapped = none) ∧
    (x.s 0).toNat = 0 ∧ ((x.s 3).toNat ≠ 0 ∧ (x.s 3).toNat ≤ 0xFFFFFFFF) ∧ 0xFFFFFFFF < (x.s 4).toNat ∧ x.loops.length ≠ 6 ∧ x.loops = [] ∧
    { x with loops := List.replicate 6 ⟨0, 0, false, 1⟩ }.loops.length = 6 := by
  refine ⟨by decide, ⟨by decide +kernel, ⟨0, by decide +kernel⟩, by decide +kernel, rfl⟩, ?_⟩
  decide +kernel

theorem test_hyp_loopEnds :
    let e : LoopEntry := ⟨1, 4, true, 1⟩
    let x := { rg [] with loops := [{ e with count := 2 }] }
    (e.last = 4 ∧ e.count = 1) ∧ (1 < ({ e with count := 2 } : LoopEntry).count ∧ x.loops = [{ e with count := 2 }]) ∧ e.last ≠ 5 ∧
    ((st x).strand 0).iss.trapped = none ∧ ((st x).strand 0).iss.done = false ∧ ((st x).strand 0).iss.eret = false ∧
    ((st x).strand 0).iss.dp = false ∧ ((st x).strand 0).iss.handler = ((st x).strand 0).handler ∧
    ({ Issue.none with trapped := some (0, .trap, 0) } : Issue).trapped ≠ none ∧
    ({ Issue.none with trapped := some (3, .bounds, 0), await := [1] } : Issue).await ≠ [] := by decide +kernel

theorem test_hyp_systemRegisters :
    let x := { rg [(1, 0)] with image := Image.one (encode (.waitc 1)) }
    fmtOk 0x1000 = true ∧ fmtOk 0x000B = false ∧ ((st x).strand 0).waitTarget = some 0 ∧ ((st x).strand 0).late = [] ∧
    (0 : W64).toNat ≤ (st x).cyc (coreOf 0) ∧ (5 : BitVec 3).toNat < 6 := by decide +kernel

/-- Each life that CTX reports, an image with a handler and one without, a loop stack of one entry and its five empty places. -/
theorem test_hyp_systemRegisterFields :
    let x := { rg [] with loops := [⟨1, 4, true, 2⟩], image := { Image.one 0 with tvec := some 9 } }
    x.loops.reverse[0]? = some ⟨1, 4, true, 2⟩ ∧ x.loops.length ≤ 1 ∧ x.image.tvec = some 9 ∧ (rg []).image.tvec = none ∧ (rg []).life = .run ∧
    { x with life := .faultWait }.life = .faultWait ∧ { x with life := .draining }.life = .draining ∧ { x with life := .doneWait }.life = .doneWait := by
  decide +kernel

/-- HCFG: a ring of 4 slots of one line from byte 64 on; one whose base is not a line; a ring in use. -/
theorem test_hyp_ringRegisters :
    let r : Ring := ⟨0, 8, 4, true, 0, 0, 2, 2, 0, 0⟩
    let x := { rg [(1, 0x8004000100000040), (2, 0x8004000100000041), (3, 0x40), (4, 2)] with
      rings := [(1, r)], iss := { Issue.none with rings := [(1, r), (2, { r with bind := 1 }), (3, { r with bind := 2 })] } }
    let now := fun h => Tbl.getD x.iss.rings h Ring.off
    let ok := fun (v : W64) (old : Ring) => old.bind = 0 ∧ old.infl = 0 ∧ (v.extractLsb' 0 21).toNat % 64 = 0 ∧
      (v.getLsbD 63 = true → 1 ≤ (v.extractLsb' 32 12).toNat ∧ 1 ≤ (v.extractLsb' 48 12).toNat ∧
        (v.extractLsb' 0 21).toNat + 64 * (v.extractLsb' 32 12).toNat * (v.extractLsb' 48 12).toNat ≤ x.spadSize)
    (ok (x.s 1) (now 0) ∧ (x.s 1).getLsbD 63 = true) ∧ ¬ok (x.s 2) (now 0) ∧ ¬ok (x.s 1) (now 2) ∧
    (ok (x.s 3) (now 0) ∧ (x.s 3).getLsbD 63 = false) ∧
    ((now 1).en = true ∧ (2 : BitVec 12).toNat ≤ (now 1).fill ∧ (x.s 4).toNat ≤ (now 1).free ∧ (now 1).bind ≠ 2 ∧ (now 1).bind ≠ 1) ∧
    (now 1).fill < (3 : BitVec 12).toNat ∧ (now 1).free < (x.s 3).toNat ∧ (now 0).en = false ∧ (now 2).bind = 1 ∧ (now 3).bind = 2 ∧
    ((now 2).en = true ∧ (now 3).en = true ∧ (x.s 0).toNat = 0 ∧ (2 : BitVec 12) ≠ 0 ∧ (x.s 4).toNat ≠ 0) := by
  decide +kernel

theorem test_hyp_trapDoneYield :
    let x := (st (rg [])).me
    x.iss.trapped = none ∧ (∀ e, x.iss.trapped = some e → 0 < e.1) ∧ x.iss.handler = false ∧
    ({ Issue.none with trapped := some (1, .bounds, 0) } : Issue).trapped ≠ none ∧ ({ Issue.none with handler := true } : Issue).handler = true := by
  refine ⟨rfl, fun e h => (by cases h), rfl, by decide, rfl⟩

theorem test_hyp_returnFromTrap :
    let x := { rg [] with handler := true, tcause := 0x3C00 }
    let s := st x
    s.me.iss.trapped = none ∧ perfOf x.tcause = 0xF ∧ perfOf (rg []).tcause ≠ 0xF ∧
    (st { x with iss := { Issue.none with trapped := some (3, .bounds, 0) } }).me.iss.trapped ≠ none := by decide +kernel

/-- A partition whose policy hands traps that are not taken to the guest (TPOL 1), with queue and ring bases in its memory. -/
def part0 : Partition :=
  { desc := [0x0000000C00000003, 0x80002, 0, 0, 0x0004000000001000, 0x0004000000002000], tdisp := .run, lqs := [], ctrs := [], prqProd := 0,
    prqCons := 0, evProd := 0, evCons := 0, evSeq := 0, evLost := 0, evWait := [], s1root := 0, s1inv := none, s2root := 0, cancelBusy := false,
    tdx := Tdx.reset, domains := [], memcls := 0, refuse := false }

theorem test_hyp_trapEntry :
    let i := { Issue.none with trapped := some (2, .format, 7) }
    let x := { rg [] with iss := i, image := { Image.one 0 with tvec := some 9 } }
    let y := { rg [] with iss := i }
    (x.iss.trapped = some (2, .format, 7) ∧ x.iss.await = [] ∧ x.iss.handler = false ∧ x.image.tvec = some 9 ∧ x.life ≠ .faultWait) ∧
    (y.iss.trapped = some (2, .format, 7) ∧ y.iss.await = [] ∧ y.image.tvec = none ∧ y.handler = y.iss.handler ∧
      ({ st y with parts := [(0, part0)] }.part y.part).map Partition.tpol = some 1) ∧
    ({ x with iss := .none, traps := [⟨.promise, 3, 0, 0, none, 0⟩] }.traps = [⟨.promise, 3, 0, 0, none, 0⟩] ∧ x.replay = none ∧ x.halted = false ∧
      x.life = .run ∧ x.handler = false) := by decide +kernel

theorem test_hyp_flags :
    let s := st (rg [(1, 3)])
    syncCount 0 ≤ (Tbl.getD (s.grp s.me.gtag).flags 4 0).toNat ∧ ((s.me.s 1).extractLsb' 0 32).toNat ≠ 0 ∧
    ((s.me.s 0).extractLsb' 0 32).toNat = 0 := by decide +kernel

theorem test_hyp_regionsAndMarks :
    (rg []).iss.handler = false ∧ ({ Issue.none with handler := true } : Issue).handler = true ∧ (rg []).regOpen = false ∧
    { rg [] with regOpen := true, held := [⟨64, List.replicate 64 (some 1)⟩] }.regOpen = true := by decide +kernel

/-- The value 1 of each format, a NaN, and an exponent from which everything overflows. -/
theorem test_hyp_rounding :
    (Fmt.bf16 ∈ [Fmt.f64, .f32, .f16, .bf16, .e4m3, .e5m2] ∧ 0x3F80 < 2 ^ Fmt.bf16.w ∧ (Fmt.bf16.value 0x3F80).isNan = false) ∧
    (Fmt.bf16.value 0x7FC0).isNan = true ∧ ((Fmt.bf16.bias : Int) + 2 ≤ 129 ∧ (1 : Nat) ≠ 0) ∧
    (Rnd.rdn = if false then Rnd.rup else .rdn) := by decide +kernel

/-- Special inputs of every kind: NaNs, a finite value below 0, a power of two at each end. -/
theorem test_hyp_specialFunctions :
    Ty.bf16 ∈ [Ty.f32, .f16, .bf16] ∧ ((fmtOf .bf16).value 0xFF81).isNan = true ∧ (Fmt.f64 ∈ [Fmt.f64, .f32, .f16, .bf16]) ∧
    (Fmt.f32.value 0xBF800000 = .fin true 8388608 (-23) ∧ (8388608 : Nat) ≠ 0) ∧ (1 ≤ 254 ∧ 254 ≤ 254 ∧ 253 ≤ 253) := by decide +kernel

/-- Encodings of each class: infinity, NaN, normal, subnormal and zero; a finite value that is no integer. -/
theorem test_hyp_roundedAndClassed :
    Fmt.bf16 ∈ [Fmt.f64, .f32, .f16, .bf16] ∧ (∀ x ∈ [0xFF80, 0x7F81, 0x3F80, 0x8001, 0x8000, 0x3FC0], x < 2 ^ Fmt.bf16.w) ∧
    (let ef := fun x => x % 2 ^ (Fmt.bf16.w - 1) / 2 ^ Fmt.bf16.f
     let fr := fun x => x % 2 ^ Fmt.bf16.f
     let full := 2 ^ (Fmt.bf16.w - 1 - Fmt.bf16.f) - 1
     (ef 0xFF80 = full ∧ fr 0xFF80 = 0) ∧ (ef 0x7F81 = full ∧ fr 0x7F81 ≠ 0) ∧ (0 < ef 0x3F80 ∧ ef 0x3F80 < full) ∧ (ef 0x8001 = 0 ∧ fr 0x8001 ≠ 0) ∧
       ef 0x8000 = 0 ∧ fr 0x8000 = 0) ∧
    (Fmt.bf16.value 0x7F81).isNan = true ∧ Fmt.bf16.value 0xFF80 = .inf true ∧ Fmt.bf16.value 0x3FC0 = .fin false 192 (-7) := by decide +kernel

theorem test_hyp_integerLanes : Ty.i8.isInt = true ∧ Ty.n64.isInt = true := by decide

theorem test_hyp_laneConditions :
    tyFmt .f32 = some Fmt.f32 ∧ (Fmt.f32.value 0x7FC00000).isNan = true ∧
    Fmt.f32.value 0x3F800000 = .fin false 8388608 (-23) ∧ Fmt.f32.value 0x80000000 = .fin true 0 (-149) ∧
    (-149 : Int) ≤ -23 ∧ (Fmt.f32.value 0xFF800000 = .inf true ∧ Fmt.f32.value 0x7F800000 = .inf false ∧ (-1 : Int) ≠ 0) ∧ Ty.i32.isInt = true := by
  decide +kernel

theorem test_hyp_conversions :
    (wide 2 .f32 .bf16 = some (4, 2) ∧ wide 1 .e4m3 .f32 = some (1, 4)) ∧ Ty.n64.isInt = true ∧
    (tyFmt .f32 = some Fmt.f32 ∧ (Fmt.f32.value 0x7FC00000).isNan = true ∧ Fmt.f32.value 0xFF800000 = .inf true ∧
      Fmt.f32.value 0x3FC00000 = .fin false 12582912 (-23)) := by decide +kernel

/-- A block image of each format, and the values that a block is made from: one that is not finite, none but zeros, and a largest magnitude. -/
theorem test_hyp_blocks :
    (15 < 16 ∧ 31 < 32 ∧ 0x7F % 256 ≠ 255 ∧ 0xFF % 256 = 255) ∧ (Fmt.e4m3.value 0x7F).isNan = true ∧ Fmt.e5m2.value 0x7C = .inf false ∧
    (Fmt.e4m3.value 0x38 = .fin false 8 (-3)) ∧
    (∀ k ∈ [Bk.bx3, .bx5, .bx8, .mxE4m3, .mxE5m2], (List.replicate k.shape.1 (FV.fin true 0 0)).length = k.shape.1) ∧
    (∃ v ∈ [FV.nan], ¬∃ s m e, v = .fin s m e) ∧
    (let x := FV.fin false 3 0 :: List.replicate 15 (FV.fin false 0 0)
     (∀ v ∈ x, ∃ s m e, v = .fin s m e) ∧ (∃ s m e, FV.fin s m e ∈ x ∧ m ≠ 0 ∧ e + Nat.log2 m = 1) ∧
       ∀ s m e, FV.fin s m e ∈ x → m ≠ 0 → e + (Nat.log2 m : Int) ≤ 1) := by
  refine ⟨by decide, by decide +kernel, by decide +kernel, by decide +kernel, by decide +kernel, ⟨_, .head _, fun ⟨s, m, e, h⟩ => by cases h⟩, ?_, ?_, ?_⟩
  · intro v hv
    rcases List.mem_cons.mp hv with h | h
    · exact ⟨_, _, _, h⟩
    · exact ⟨_, _, _, List.eq_of_mem_replicate h⟩
  · exact ⟨false, 3, 0, .head _, by decide, by decide⟩
  · intro s m e hv hm
    rcases List.mem_cons.mp hv with h | h
    · cases h; decide
    · cases List.eq_of_mem_replicate h; exact absurd rfl hm

theorem test_hyp_treeOrders :
    (∀ a b c : Nat, max (max a b) c = max a (max b c)) ∧ (∀ a b : Nat, max a b = max b a) ∧ [3, 1, 4, 1].length = 2 ^ 2 ∧ 3 < 2 ^ 2 :=
  ⟨Nat.max_assoc, Nat.max_comm, rfl, by decide⟩

theorem test_hyp_permutation : (6 : BitVec 5).toNat ≤ 6 ∧ 17 ≤ (23 : BitVec 5).toNat ∧ (23 : BitVec 5).toNat ≤ 23 := by decide

theorem test_hyp_scratchpadViews :
    (Sys2Proof.Machine.Part.mk 2049 1 0).byte .swz = (Sys2Proof.Machine.Part.mk 2049 1 0).byte .swz ∧ (Sys2Proof.Machine.Part.mk 2049 1 0).byte .swz = 2049 + 64 := by decide +kernel

/-- A group in the last lines of the window, and one that ends beyond it. -/
theorem test_hyp_scratchpadAccess :
    let r : Ring := ⟨64, 8, 4, true, 0, 0, 4, 0, 0, 0⟩
    let x := { rg [(1, 24 * 65536 - 512), (2, 24 * 65536 - 448)] with rings := [(1, r), (2, { r with bind := 2 }), (3, { r with bind := 1 })] }
    let ps := fun (a : BitVec 6) => wordParts (x.mask ⟨0, .one, false⟩) 1 (x.s a + BitVec.ofNat 64 (64 * (0 : BitVec 11).toNat)).toNat
    let es := fun (a : BitVec 6) => indexParts (x.mask ⟨0, .one, false⟩) Ty.i32.width (x.s a) (x.v 5).toNat
    (∀ p ∈ ps 1, p.addr + p.len ≤ x.spadSize) ∧ (∃ j, j < 128 ∧ x.spadSize < 24 * 65536 - 448 + 4 * j + 4) ∧
    (∀ p ∈ es 1, p.addr + p.len ≤ x.spadSize) ∧
    (x.mask ⟨0, .one, false⟩).getLsbD 127 = true ∧
    ((x.ring 1).en = true ∧ (1 : BitVec 5).toNat ≤ (x.ring 1).nslot ∧ 64 * (0 : BitVec 8).toNat + 512 * 1 ≤ 1 * (64 * (x.ring 1).slsz) ∧
      (x.ring 1).bind = 0 ∧ (x.ring 1).base % 64 = 0) ∧
    (x.ring 2).bind = 2 ∧ (x.ring 3).bind = 1 ∧ ¬((5 : BitVec 5).toNat ≤ (x.ring 1).nslot) := by
  refine ⟨by decide +kernel, ⟨127, by decide, by decide⟩, by decide +kernel, by decide +kernel, by decide +kernel, rfl, rfl, by decide +kernel⟩

theorem test_hyp_scratchpadIndex :
    let x := rg [(2, 24 * 65536)]
    (indexParts (x.mask ⟨0, .one, false⟩) Ty.i32.width (x.s 2) (x.v 5).toNat).find? (fun e => decide (x.spadSize < e.addr + e.len)) =
      some ⟨24 * 65536, 4, 0⟩ := by decide +kernel

/-- The modulus of the manual's example and its constant, and the largest product of two residues. -/
theorem test_hyp_modularReduction :
    let q := 0x0FFFFFFFFFFC0001
    let k := 2 ^ (bitLength q + 63) / q
    legalModulus q = true ∧ (q - 1) * (q - 1) < q * q ∧ k = 2 ^ (bitLength q + 63) / q := by decide +kernel

theorem test_hyp_modularLanes :
    let x := { rg [] with mreg := (List.range 64).map fun i => (i, 17), vreg := [(3, BitVec.ofNat 4096 (packElems 64 (List.replicate 64 17)))] }
    let on := fun i => (x.mask ⟨0, .one, false⟩).getLsbD (i % 1024)
    (∀ i, i < 64 * 1 → on i = true → (x.mLane 0 i).toNat ≠ 0) ∧
    (on 0 = true ∧ (x.mLane 1 0).toNat = 0 ∧ ∀ j, j < 64 * 1 → on j = true → (x.mLane 1 j).toNat = 0 → 0 % 64 ≤ j % 64) ∧
    (∀ i, i < 64 → on i = true → legalModulus (elemAt 64 (x.opA 3 1) i) = true) ∧
    (legalModulus (elemAt 64 (x.opA 4 1) 0) = false) ∧ (2 ^ ((5 : BitVec 5).toNat + 1) ≤ 64 * 1) := by decide +kernel

theorem test_hyp_turnedOff :
    let s := st { rg [] with q := 0xFE }
    let l : LentC := ⟨0, true⟩
    (l.qe = true ∧ s.me.q.getLsbD l.qi.toNat = false) ∧ (s.me.p (3 : BitVec 4).toNat).getLsbD 0 = false := by decide +kernel

/-- FP32, FP64 and INT8 accumulation, and the geometry of every format. -/
theorem test_hyp_matrix :
    let x := rg []
    let f := fun (v : BitVec 13) => { rg [] with fmt := v }
    let l : LentC := ⟨0, false⟩
    ¬(l.qe = true ∧ x.q.getLsbD l.qi.toNat = false) ∧ fmtACF x.fmt = 0 ∧ fmtACF (f 0x12AA).fmt = 2 ∧ fmtACF (f 0x1133).fmt = 1 ∧
    (f 0x1044).geo.da = 1 ∧ (f 0x1055).geo.da = 2 ∧ fmtAF (f 0x1088).fmt = 8 ∧ fmtAF x.fmt = 9 ∧ fmtAF (f 0x1066).fmt = 6 ∧
    x.mat.queue = [] ∧ { x.mat with queue := [(0, 5)] }.queue = (0, 5) :: [] := by decide +kernel

/-- An array of one row and of all, every accumulation format, and the columns of an accumulator operation. -/
theorem test_hyp_columnSums :
    let m := (rg []).mat
    (1 ≤ m.kr ∧ m.kr ≤ 96 ∧ m.nc ≤ 128 ∧ 1 ≤ { m with kr := 1 }.kr) ∧ (fmtOk 0x1000 = true ∧ fmtACF 0x1000 = 0) ∧
    (fmtOk 0x1133 = true ∧ fmtACF 0x1133 = 1) ∧ (fmtOk 0x12AA = true ∧ fmtACF 0x12AA = 2) ∧
    ((List.replicate 128 (some (7 : BitVec 32))).length = 128 ∧ (List.replicate 128 (some (7 : BitVec 32)))[127]? = some (some 7)) ∧
    ((List.replicate 128 (none : Option (BitVec 64))).length = 128 ∧ (List.replicate 128 (none : Option (BitVec 64)))[64 * 1 + 63]? = some none) := by
  decide +kernel

theorem test_hyp_matrixGather :
    let x := rg [(1, 24 * 65536 - 64), (2, 24 * 65536)]
    (∀ u, some u ∈ (gatherSegs x 3 1).flatten → u - u % 64 + 64 ≤ x.spadSize) ∧
    (some (24 * 65536) ∈ (gatherSegs x 3 2).flatten ∧ x.spadSize < 24 * 65536 - 24 * 65536 % 64 + 64) := by
  refine ⟨?_, by decide +kernel, by decide⟩
  have h : (gatherSegs (rg [(1, 24 * 65536 - 64), (2, 24 * 65536)]) 3 1).flatten.all (fun o => o.all fun u => decide (u - u % 64 + 64 ≤ 24 * 65536)) = true := by
    decide +kernel
  intro u hu
  show u - u % 64 + 64 ≤ 24 * 65536
  have := List.all_eq_true.mp h _ hu
  exact of_decide_eq_true this

theorem test_hyp_drains :
    let x := rg []
    x.accOps = [] ∧ x.iss.handler = false ∧ fmtACF x.fmt ≠ 2 ∧ x.iss.n + 100 ≤ 100 ∧ 99 < x.iss.n + 100 ∧ (7 : Nat) ≠ 6 ∧
    Ty.f32 ∈ [Ty.f32, .bf16, .f16, .e4m3, .e5m2] ∧ Ty.i32 ∉ [Ty.f32, .bf16, .f16, .e4m3, .e5m2] := by decide +kernel

/-! Slot D: the lowest and the highest addresses of each half. -/

theorem test_hyp_commandIssue :
    let s := st (rg [])
    let k := CmdKind.cpy 0 4096 64
    let u := s.issueCmd 5 k 0 0
    let waits := { s with cmds := (u.onCmd 0 fun c => { c with accepted := none }).cmds }
    k.counted = true ∧ (∀ a b, k ≠ .cpy a b 0) ∧ (u.cmds.getLast?).isSome = true ∧
    (s.closeRegion.commandFree s.closeRegion.cur s.closeRegion.nextId = true ∧ s.closeRegion.cmds = []) ∧
    ¬(waits.cmds.any (fun c => c.accepted.isNone) = false) ∧ (∃ e ∈ waits.cmds, e.strand = 0 ∧ e.kind.counted = true ∧ e.accepted = none) ∧
    (flagKind 0 = 0 ∧ flagKind 1 ≠ 0 ∧ ((s.issueCmd 5 (.cpy 0 4096 0) 0 1).cmds.getLast?).isSome = true ∧ ∀ e ∈ s.closeRegion.cmds, e.id ≠ s.closeRegion.nextId) := by
  refine ⟨rfl, fun a b h => (by cases h), by decide +kernel, by decide +kernel, by decide +kernel, by decide +kernel, by decide +kernel⟩

theorem test_hyp_globalLoads :
    let top : W64 := 2 ^ 47
    let s := st (rg [(1, top - 512), (2, top - 448), (3, top), (4, 2 ^ 48), (5, top - 8), (6, top - 7), (7, 64), (8, 2 ^ 48 - 512), (9, 2 ^ 48 - 64)])
    let x := s.me
    let q := fun (a : BitVec 6) => (x.s a).toNat / 64 * 64
    (x.p (0 : BitVec 4).toNat).getLsbD 0 = true ∧ (q 1 + 512 * Grp.one.size ≤ 2 ^ 47) ∧ (2 ^ 47 < q 2 + 512 * Grp.one.size) ∧
    (2 ^ 47 ≤ q 8 ∧ q 8 + 512 * Grp.one.size ≤ 2 ^ 48) ∧ (q 1 < 2 ^ 47) ∧ (2 ^ 48 ≤ q 4) ∧ (2 ^ 47 ≤ q 9 ∧ q 9 < 2 ^ 48 ∧ 2 ^ 48 < q 9 + 512 * Grp.one.size) ∧
    (∀ j, j < 8 * Grp.one.size → (q 6 + j * 0) % 2 ^ 64 < 2 ^ 47) ∧ (q 6 < 2 ^ 47 ∧ q 6 + min (x.s 0).toNat 512 ≤ 2 ^ 47) ∧ 2 ^ 47 ≤ q 3 ∧
    ((x.s 5).toNat % Sz.b8.bytes = 0 ∧ (x.s 5).toNat < 2 ^ 47) ∧
    ((x.s 6).toNat % Sz.b8.bytes ≠ 0 ∧ (x.s 6).toNat < 2 ^ 47 ∧ 2 ^ 47 < (x.s 6).toNat + Sz.b8.bytes) ∧
    ((x.s 6).toNat % Sz.b4.bytes ≠ 0 ∧ (x.s 6).toNat + Sz.b4.bytes ≤ 2 ^ 47) ∧ 2 ^ 47 ≤ (x.s 3).toNat ∧
    (0 < min (x.s 7).toNat 512 ∧ 2 ^ 47 < q 6 + min (x.s 5).toNat 512) ∧
    (1 < 8 * Grp.one.size ∧ 2 ^ 47 ≤ (q 6 + 1 * 64) % 2 ^ 64 ∧ ∀ i, i < 1 → (q 6 + i * 64) % 2 ^ 64 < 2 ^ 47) := by decide +kernel

theorem test_hyp_globalStores :
    let x := { rg [(1, 2 ^ 47 - 512), (2, 2 ^ 47 - 8)] with regOpen := true }
    let more := (List.range 64).map fun i => HeldLine.mk (64 * i) (List.replicate 64 (some 1))
    let ps := [Piece.store (2 ^ 47 - 8) ((natLe 8 0).map some)]
    let y := rg [(1, 2 ^ 47 - 64), (2, 64), (3, 0), (4, 2 ^ 47 - 7), (5, 2 ^ 47 - 15), (6, 2 ^ 47)]
    let q := fun (a : BitVec 6) => (y.s a).toNat / 64 * 64
    (x.p (0 : BitVec 4).toNat).getLsbD 0 = true ∧ (rg []).regOpen = false ∧ (x.regOpen = true ∧ (ps.foldl holdPiece x.held).length ≤ 64) ∧
    (64 < (ps.foldl holdPiece more).length) ∧ (x.s 1).toNat / 64 * 64 + 512 * Grp.one.size ≤ 2 ^ 47 ∧
    ((x.s 2).toNat % Sz.b8.bytes = 0 ∧ (x.s 2).toNat < 2 ^ 47) ∧
    (∀ j, j < 8 * Grp.one.size → (q 1 + j * (64 * 0)) % 2 ^ 64 < 2 ^ 47) ∧
    (1 < 8 * Grp.one.size ∧ 2 ^ 47 ≤ (q 1 + 1 * 64) % 2 ^ 64 ∧ ∀ i, i < 1 → (q 1 + i * 64) % 2 ^ 64 < 2 ^ 47) ∧ 2 ^ 47 < q 1 + 512 * Grp.one.size ∧
    ((y.s 4).toNat < 2 ^ 47 ∧ (y.s 4).toNat % Sz.b8.bytes ≠ 0 ∧ 2 ^ 47 < (y.s 4).toNat + Sz.b8.bytes) ∧
    ((y.s 5).toNat % Sz.b8.bytes ≠ 0 ∧ (y.s 5).toNat + Sz.b8.bytes ≤ 2 ^ 47) ∧ 2 ^ 47 ≤ (y.s 6).toNat := by decide +kernel

theorem test_hyp_atomics :
    let x := rg [(1, 2 ^ 47 - 8), (2, 2 ^ 47), (3, 2 ^ 47 - 4)]
    ((x.s 1).toNat < 2 ^ 47 ∧ (x.s 1).toNat % 8 = 0 ∧ (5 : BitVec 6) ≠ 0) ∧ 2 ^ 47 ≤ (x.s 2).toNat ∧ (x.s 3).toNat % 8 ≠ 0 ∧
    KqSel.gen ≠ .group := by decide +kernel

theorem test_hyp_streamsAndMaps :
    let r : Ring := ⟨0, 8, 4, true, 0, 0, 0, 4, 0, 0⟩
    let e : MapEnt := ⟨0, 65536, 65536, 0, [], [], 0, []⟩
    let x := { rg [(1, 0), (2, 65535), (3, 1), (4, 1), (5, 1), (9, 65536), (10, 65536), (11, 65536), (17, 2 ^ 47), (26, 1), (33, 65536),
      (34, 65536), (35, 0)] with rings := [(3, r)] }
    let n := fun (a : BitVec 6) k => (x.s (a + BitVec.ofNat 6 k)).toNat
    let ring := x.ring 3
    (x.p 0).getLsbD 0 = true ∧
    (n 1 0 < 2 ^ 47 ∧ ring.en = true ∧ ring.bind = 0 ∧ ring.infl = 0 ∧ n 1 1 ≤ 65535 ∧ 0 < n 1 1 * n 1 2 * n 1 3 * n 1 4) ∧
    (n 5 1 * n 5 2 * n 5 3 * n 5 4 = 0) ∧ 2 ^ 47 ≤ n 17 0 ∧ (n 1 0 < 2 ^ 47 ∧ (x.ring 4).en = false) ∧
    (n 9 1 ≠ 0 ∧ n 9 2 < 2 ^ 47 ∧ maprOk x (n 9 0) (n 9 1) (n 9 2) = true ∧ x.maps = []) ∧
    (n 25 1 ≠ 0 ∧ n 25 2 < 2 ^ 47 ∧ maprOk x (n 25 0) (n 25 1) (n 25 2) = false) ∧
    ([e].find? (fun m => m.off == 65536) = some e) ∧
    (mapOf { x with maps := [e] } (n 33 0) (n 33 1) ≠ none ∧ mapOf x (n 33 0) (n 33 1) = none) ∧
    ((∀ m ∈ x.maps, m.index ≠ 0) ∧ (∃ m ∈ [e], m.index = 0) ∧ (∀ m ∈ [e], m.index ≠ 1) ∧ n 35 1 = 0 ∧ (∀ m ∈ x.maps, m.off ≠ n 35 0)) := by decide +kernel

/-- Operands at the limits of each engine instruction, and a descriptor that posts to a flag of a group. -/
theorem test_hyp_engineCommands :
    let fab : W64 := 2 ^ 47
    let fd1 : W64 := 1 + 4 * 4 + 2 ^ 32
    fdOk 0 0 = true ∧ fdOk 0 fd1 = true ∧ fdOk 0 3 = false ∧ fd1.toNat % 4 ≠ 0 ∧ (0 : W64).toNat % 4 = 0 ∧
    (2 ^ 47 ≤ fab.toNat ∧ fab.toNat < 2 ^ 48 ∧ fab.toNat % 8 = 0 ∧ fab.toNat % 2 ^ 21 = 0) ∧
    (let x := rg [(1, 0), (2, 4096), (3, 2 ^ 32)]
     (x.s 1).toNat < 2 ^ 48 ∧ (x.s 2).toNat < 2 ^ 48 ∧ (x.s 3).toNat ≤ 2 ^ 32) ∧
    (let x := { rg [(1, 0), (2, 4096)] with maps := [⟨0, 0, 65536, 0, [], [], 0, []⟩] }
     mapOf x (x.s 1).toNat (x.s 2).toNat ≠ none ∧ mapOf x 0 65536 ≠ none ∧ mapOf x 1 65536 = none) ∧
    (let s := { st (rg [(1, 1), (2, 24 * 65536 - 4096), (3, 4096)]) with groups := [(0, { Group.placed with rights := 7 })] }
     s.myGrp.rights.getLsbD 0 = true ∧ s.myGrp.rights.getLsbD 1 = true ∧ s.myGrp.rights.getLsbD 2 = true ∧ (s.me.s 1).toNat = 1 ∧
      (s.me.s 2).toNat + (s.me.s 3).toNat ≤ s.me.spadSize ∧ (s.me.s 2).toNat % 4096 = 0 ∧ (s.me.s 3).toNat % 4096 = 0) ∧
    (st (rg [])).myGrp.rights.getLsbD 0 = false ∧
    (let x := rg [(1, 2), (2, 61440), (3, 4096), (4, 1), (5, 480), (6, 32)]
     (x.s 1).toNat = 2 ∧ (x.s 2).toNat % 4096 = 0 ∧ (x.s 3).toNat % 4096 = 0 ∧ (x.s 2).toNat + (x.s 3).toNat ≤ x.sdmSize ∧
      (x.s 5).toNat + (x.s 6).toNat ≤ x.accRows) := by decide +kernel

/-- The condition of a list that holds first. -/
def firstOf (cs : List Bool) : Option Nat := cs.findIdx? id
/-- The words of a run of registers. -/
def run6 (l : List W64) (k : Nat) : Nat := ((rg (l.zipIdx.map fun e => (e.2 + 1, e.1))).s (1 + BitVec.ofNat 6 k)).toNat

/-- Every trap of every engine instruction: the first bad operand is the one named. -/
theorem test_hyp_engineTraps :
    fdOk 0 3 = false ∧ mapOf (rg []) 0 4096 = none ∧ (st (rg [])).myGrp.rights.getLsbD 0 = false ∧ { Group.placed with rights := 7 }.rights.getLsbD 2 = true := by
  decide +kernel

def half (u : Nat) : Bool := decide (2 ^ 47 ≤ u) && decide (u < 2 ^ 48)

/-- The order in which CPY tests its operands (the conditions of EngineTraps). -/
def testsCpy (l : List W64) (bad : Bool) : Option Nat :=
  let n := run6 l
  firstOf [decide (2 ^ 48 ≤ n 0), decide (2 ^ 48 ≤ n 1), bad, decide (2 ^ 47 ≤ n 0) && decide (2 ^ 47 ≤ n 1), decide (2 ^ 32 < n 2)]

theorem test_hyp_engineTrapsCpy :
    testsCpy [2 ^ 48] true = some 0 ∧
    testsCpy [0, 2 ^ 48] true = some 1 ∧
    testsCpy [2 ^ 47, 2 ^ 47] true = some 2 ∧
    testsCpy [2 ^ 47, 2 ^ 47, 2 ^ 32 + 1] false = some 3 ∧
    testsCpy [2 ^ 47, 0, 2 ^ 32 + 1] false = some 4 := by decide +kernel

/-- The order in which RST tests its operands (the conditions of EngineTraps). -/
def testsRst (l : List W64) : Option Nat :=
  let n := run6 l
  firstOf [!half (n 0), decide (2 ^ 48 < n 0 + 512), !fdOk (BitVec.ofNat 64 (n 1)) (BitVec.ofNat 64 (n 2)), n 2 % 4 == 0]

theorem test_hyp_engineTrapsRst :
    testsRst [64] = some 0 ∧
    testsRst [2 ^ 48 - 64] = some 1 ∧
    testsRst [2 ^ 47, 0, 3] = some 2 ∧
    testsRst [2 ^ 47, 0, 0] = some 3 := by decide +kernel

/-- The order in which RATM tests its operands (the conditions of EngineTraps). -/
def testsRatm (l : List W64) (bad : Bool) : Option Nat :=
  let n := run6 l
  firstOf [!half (n 0), n 0 % 8 != 0, decide (2 ^ 47 ≤ n 3), bad]

theorem test_hyp_engineTrapsRatm :
    testsRatm [0] true = some 0 ∧
    testsRatm [2 ^ 47 + 4] true = some 1 ∧
    testsRatm [2 ^ 47, 0, 0, 2 ^ 47] true = some 2 ∧
    testsRatm [2 ^ 47] true = some 3 := by decide +kernel

/-- The order in which XRED tests its operands (the conditions of EngineTraps). -/
def testsXred (l : List W64) (bad : Bool) : Option Nat :=
  let n := run6 l
  firstOf [decide (2 ^ 47 ≤ n 0), n 0 % 4 != 0, decide (2 ^ 48 ≤ n 1), bad, n 2 % 32 != 0 || decide (n 2 < 32) || decide (2 ^ 24 < n 2)]

theorem test_hyp_engineTrapsXred :
    testsXred [2 ^ 47] true = some 0 ∧
    testsXred [2] true = some 1 ∧
    testsXred [0, 2 ^ 48] true = some 2 ∧
    testsXred [0] true = some 3 ∧
    testsXred [0, 0, 2 ^ 24 + 32] false = some 4 ∧
    testsXred [0, 0, 33] false = some 4 ∧
    testsXred [0, 0, 0] false = some 4 := by decide +kernel

/-- The order in which LEASE tests its operands (the conditions of EngineTraps). -/
def testsLease (l : List W64) (bad : Bool) : Option Nat :=
  let n := run6 l
  firstOf [!half (n 2), decide (2 ^ 47 ≤ n 3), bad, n 1 == 0 || n 1 % 2 ^ 21 != 0 || n 2 % 2 ^ 21 != 0 || n 3 % 8 != 0]

theorem test_hyp_engineTrapsLease :
    testsLease [0, 0, 64] true = some 0 ∧
    testsLease [0, 0, 2 ^ 47, 2 ^ 47] true = some 1 ∧
    testsLease [0, 0, 2 ^ 47] true = some 2 ∧
    testsLease [0, 0, 2 ^ 47] false = some 3 ∧
    testsLease [0, 2 ^ 21, 2 ^ 47, 4] false = some 3 := by decide +kernel

/-- The order in which LRECL tests its operands (the conditions of EngineTraps). -/
def testsLrecl (l : List W64) (bad : Bool) : Option Nat :=
  let n := run6 l
  firstOf [decide (2 ^ 47 ≤ n 1), bad]

theorem test_hyp_engineTrapsLrecl :
    testsLrecl [0, 2 ^ 47] true = some 0 ∧
    testsLrecl [] true = some 1 := by decide +kernel

/-- The order in which KROT tests its operands (the conditions of EngineTraps). -/
def testsKrot (right : Bool) (l : List W64) (bad : Bool) : Option Nat :=
  let n := run6 l
  firstOf [!right, decide (2 ^ 47 ≤ n 0), decide (2 ^ 47 ≤ n 3), n 1 == 0 || decide (65536 < n 1) || decide (65536 ≤ n 2) || n 0 % 4096 != 0 || n 3 % 16 != 0, bad]

theorem test_hyp_engineTrapsKrot :
    testsKrot false [] true = some 0 ∧
    testsKrot true [2 ^ 47] true = some 1 ∧
    testsKrot true [0, 0, 0, 2 ^ 47] true = some 2 ∧
    testsKrot true [] true = some 3 ∧
    testsKrot true [0, 65536, 65535, 16] true = some 4 := by decide +kernel

/-- The order in which SEAL or UNSEAL tests its operands (the conditions of EngineTraps). -/
def testsSealed (right : Bool) (l : List W64) (bad : Bool) : Option Nat :=
  let n := run6 l
  firstOf [!right, n 0 == 0 && decide (2 ^ 47 ≤ n 1), decide (2 ^ 48 ≤ n 3), decide (2 ^ 47 ≤ n 5), decide (1 < n 0) || decide (n 2 < 4096) || decide (2 ^ 30 < n 2), bad]

theorem test_hyp_engineTrapsSealed :
    testsSealed false [] true = some 0 ∧
    testsSealed true [0, 2 ^ 47] true = some 1 ∧
    testsSealed true [0, 0, 0, 2 ^ 48] true = some 2 ∧
    testsSealed true [0, 0, 0, 0, 0, 2 ^ 47] true = some 3 ∧
    testsSealed true [2] true = some 4 ∧
    testsSealed true [0, 0, 4096] true = some 5 := by decide +kernel

/-- The order in which MEAS tests its operands (the conditions of EngineTraps). -/
def testsMeas (l : List W64) : Option Nat :=
  let n := run6 l
  firstOf [decide (2 ^ 47 ≤ n 0), decide (2 ^ 47 ≤ n 2), decide (2 ^ 20 < n 1) || n 2 % 8 != 0]

theorem test_hyp_engineTrapsMeas :
    testsMeas [2 ^ 47] = some 0 ∧
    testsMeas [0, 0, 2 ^ 47] = some 1 ∧
    testsMeas [0, 2 ^ 20 + 1] = some 2 := by decide +kernel

/-- The order in which SCRUB tests its operands (the conditions of EngineTraps). -/
def testsScrub (l : List W64) : Option Nat :=
  let n := run6 l
  firstOf [n 0 == 3 && decide (2 ^ 47 ≤ n 1), n 2 == 0, decide (3 < n 0)]

theorem test_hyp_engineTrapsScrub :
    testsScrub [3, 2 ^ 47] = some 0 ∧
    testsScrub [4, 0, 0] = some 1 ∧
    testsScrub [4, 0, 64] = some 2 := by decide +kernel

/-- Both halves, and a fabric page that stage 2 maps to a peer, or to nothing. -/
theorem test_hyp_promiseTerms :
    (4096 : Nat).testBit 47 = false ∧ ¬(2 ^ 47 : Nat).testBit 47 = false ∧ 32 ≤ 32 ∧
    (match State.reset.walk 0 (2 ^ 47) false true with | .error _ => true | _ => false) = true := by decide +kernel

/-! ## The hypotheses of the statements are met: events -/

/-- Partition 0 with stage 1 off, a stage-2 table whose first GiB is that of KeyID 1, and the strand `x` of its group 0. -/
def world (x : Strand) : State := { st x with
  parts := [(0, { part0 with s2root := 4096 })]
  keys := [(1, ⟨some 0, 0, 0⟩)]
  mem := Mem.writeN (Mem.writeN [] 4096 (natLe 8 0x2003)) 8192 (natLe 8 (2 ^ 48 + 13)) }
/-- A word at virtual address 64; a request of strand 0 for it. -/
def word0 : Piece := ⟨64, 8, 0, [], none, .rc, none, false, false, []⟩
def load0 : Req := ⟨5, none, 5, 0, 0, 0, 0, false, .load, .queued, none, [word0]⟩

theorem test_hyp_memoryDepartures :
    let s := world (rg [])
    let w := fun (r : Req) => { s with reqs := [r] }
    let f := { load0 with kind := .fence .core .full, pieces := [] }
    let l := { load0 with stage := .sideLog, log := some 2, kind := .store, pieces := [{ word0 with bytes := (natLe 8 7).map some }] }
    let placed := fun (r : Req) => ((w r).placePieces 0 0 r.needs.1 r.needs.2 r.pieces).1.toOption.isSome
    let done := { load0 with stage := .accepted, pieces := [{ word0 with done := true, data := natLe 8 7 }] }
    let gone := { load0 with stage := .departed, pieces := [{ word0 with pa := some ⟨false, 1, 64⟩ }] }
    let gath := fun l => { rg [] with mat := { (rg []).mat with gathers := [⟨false, 8, 0, l⟩] } }
    ((w load0).req 5 = some load0 ∧ load0.isFence = false ∧ (w load0).mayDepart load0 = true ∧ placed load0 = true) ∧
    (f.isFence = true ∧ (w f).fenceHolds f = true) ∧ ((w l).behindEntry l = false ∧ placed l = true) ∧
    ((w gone).req 5 = some gone ∧ (w gone).admits gone 0 { word0 with pa := some ⟨false, 1, 64⟩ } = true) ∧
    (done.pieces.all Piece.done = true ∧ ((w done).strand 0).gtag = done.gtag ∧ ((w done).strand 0).sidx = done.sidx) ∧
    ((gath [3]).mat.gathers = [⟨false, 8, 0, [3]⟩] ∧ (gath []).mat.gathers = [⟨false, 8, 0, []⟩]) := by decide +kernel

/-- Departures that fail: a page that stage 2 does not map, of a load, of a store with room in the side log and without, of an entry of the
log; a table line that is poisoned. -/
theorem test_hyp_memoryDeparturesFail :
    let far := { load0 with pieces := [{ word0 with va := 2 ^ 30 }] }
    let put := { far with kind := .store, pieces := [{ word0 with va := 2 ^ 30, bytes := (natLe 8 7).map some }] }
    let entry := { put with stage := .sideLog, log := some 2 }
    let w := fun (r : Req) => { world (rg []) with reqs := [r] }
    let full := { world (rg []) with reqs := put :: (List.range 32).map fun i => { entry with id := 100 + i } }
    let fails := fun (s : State) (r : Req) => match (s.placePieces 0 0 r.needs.1 r.needs.2 r.pieces).1 with
      | .error (.stage two, va) => two && va == 2 ^ 30
      | _ => false
    let logged := fun (s : State) => (s.reqs.filter fun e => e.gtag == 0 && e.sidx == 0 && e.stage == .sideLog).length
    let bad := { w load0 with poison := [(stackPage 2, none)] }
    (far.returns = true ∧ (w far).mayDepart far = true ∧ fails (w far) far = true) ∧
    (put.returns = false ∧ (w put).mayDepart put = true ∧ fails (w put) put = true ∧ logged (w put) = 0 ∧
      full.mayDepart put = true ∧ fails full put = true ∧ logged full = 32) ∧
    ((w entry).behindEntry entry = false ∧ entry.returns = false ∧ fails (w entry) entry = true) ∧
    (bad.mayDepart load0 = true ∧ (match (bad.placePieces 0 0 load0.needs.1 load0.needs.2 load0.pieces).1 with
      | .error (.poison _, _) => true
      | _ => false) = true) := by decide +kernel

theorem test_hyp_homeSlice :
    let here := { word0 with pa := some ⟨false, 1, 64⟩, acc := some 0, via := true }
    let b := 2 ^ 48 + 64
    let w := fun (k : ReqKind) (p : Piece) => { world (rg []) with reqs := [{ load0 with stage := .accepted, kind := k, pieces := [p] }] }
    let ready := fun (s : State) => (s.req 5).any (fun r => s.wholeRuns [5] == [r] &&
      r.pieces.any fun p => (p.pa == some ⟨false, 1, 64⟩) && !p.done && p.via && s.pieceReady r 0 p b)
    let sound := fun (s : State) (wr : Bool) => s.lineWaits (lineOf b) wr = false ∧ s.poisoned (lineOf b) = false ∧ (s.grp 0).contract = none
    let full := fun (s : State) => { s with pages := [(pageOf b, ⟨0, [(1, 127)]⟩)] }
    let turn := fun locked line => { world (rg []) with rewrites := [(pageOf b, ⟨line, locked, 0, 0, [], false, none⟩)] }
    (ready (w .load here) = true ∧ sound (w .load here) false) ∧
    (ready (w .store { here with bytes := (natLe 8 7).map some }) = true ∧ sound (w .store here) true ∧
      (full (w .store here)).minor (lineOf b / 64) (lineOf b % 64) = 127 ∧ ready (full (w .store here)) = true ∧
      (full (w .store here)).rewrite (lineOf b / 64) = none) ∧
    (ready (w (.atomic .add .n64 1 0 true) here) = true ∧ sound (w (.atomic .add .n64 1 0 true) here) true) ∧
    (ready (w (.kqry .gen) here) = true ∧ (w (.kqry .gen) here).poison.contains (stackPage (pageOf b), none) = false) ∧
    ({ w .load here with poison := [(stackPage (pageOf b), some 1)] }.poisoned (lineOf b) = true) ∧
    ((world (rg [])).rewrite (pageOf b) = none ∧ (turn false 0).rewrite (pageOf b) = some ⟨0, false, 0, 0, [], false, none⟩ ∧
      (turn true 63).rewrite (pageOf b) = some ⟨63, true, 0, 0, [], false, none⟩) ∧
    ({ world (rg []) with mgmt := { Mgmt.reset with phase := 4 } }.mgmtOpen = true) := by decide +kernel

/-- A write that waits for its page's rewrite; a group of contract 2 whose request was late, with and without a miss reported before. -/
theorem test_hyp_homeSliceWaits :
    let b := 2 ^ 48 + 64
    let s := { world (rg []) with pages := [(pageOf b, ⟨0, [(1, 127)]⟩)], rewrites := [(pageOf b, ⟨0, false, 0, 0, [(1, 127)], false, some 1⟩)] }
    let rt := { world (rg []) with groups := [(0, { (st (rg [])).grp 0 with contract := some 2 })] }
    s.minor (lineOf b / 64) (lineOf b % 64) = 127 ∧ s.rewrite (lineOf b / 64) ≠ none ∧ (rt.grp 0).contract = some 2 ∧
    (rt.part 0).isSome = true ∧ (Tbl.getD part0.ctrs 2 Contract.reset).rtMiss = false := by decide +kernel

/-- A fault of stage 1 and its entry, in a partition whose stage 1 is on and finds nothing, or is off. A fault of stage 2 at an address that
stage 2 now maps. -/
theorem test_hyp_pageRequests :
    let f : FaultRec := ⟨9, 0, false, 4096, 0, 0, 0, 0, 0, false, false, (false, 5, 0)⟩
    let e : PageReq := ⟨0, 0, false, 1, 4096, 0, 0, 0, 0, 0, false, false, false, [(false, 5, 0)]⟩
    let q := { part0 with s2root := 4096 }
    let s := { world (rg []) with faults := [f], preqs := [e] }
    let on := { s with parts := [(0, { q with s1root := 1 })] }
    let fits := { s with preqs := [] }
    let full := { s with preqs := ((List.range 4) ++ (List.range' 64 192)).map fun n => { e with tag := n, page := 9 } }
    (s.faults.find? (fun g => g.id == 9) = some f ∧ fits.freeEntry 0 = some 0 ∧ s.freeEntry 0 = some 1 ∧ full.freeEntry 0 = none) ∧
    ((e.part = f.part ∧ e.stage2 = f.stage2 ∧ e.page = f.va / 4096 ∧ { e with access := true }.page = f.va / 4096)) ∧
    (s.preqs.find? (fun d => d.tag == 0) = some e ∧ s.part 0 = some q ∧ ringRoom q.prqProd q.prqCons q.prqLsz = true ∧
      s.ringSlot 0 q.prqBase q.prqProd q.prqLsz = some (2 ^ 48 + 4096) ∧ s.lineWaits (lineOf (2 ^ 48 + 4096)) true = false ∧
      s.poisoned (lineOf (2 ^ 48 + 4096)) = false ∧ { s with poison := [(stackPage (pageOf (2 ^ 48 + 4096)), none)] }.poisoned (lineOf (2 ^ 48 + 4096)) = true ∧
      { s with parts := [(0, { q with s2root := 0 })], mem := [] }.ringSlot 0 q.prqBase q.prqProd q.prqLsz = none) ∧
    ((s.tdi 0).isSome = true ∧ s.preqs.find? (fun d => d.tag == (0 : W64).toNat % 256 && d.part == 0 && !d.stage2) = some e ∧
      (0 : W64).toNat.testBit 8 = false ∧ (256 : W64).toNat.testBit 8 = true ∧ (s.walk 0 4096 true false).toOption.isSome = true) ∧
    (match on.walk 0 4096 true false with | .error (.stage false) => true | _ => false) = true ∧
    (match s.walk 0 (2 ^ 30) true false with | .error (.stage true) => true | _ => false) = true := by decide +kernel

/-- Faults of stage 2: at an address that stage 2 now maps, still does not, in a page of a table, in the fabric half, whose peer agreed or not; an
ACCESS request. What waits for an answer: a load, a store and a copy. -/
theorem test_hyp_pageRequestsStage2 :
    let e : PageReq := ⟨0, 0, true, 1, 4096, 0, 0, 0, 0, 4096, false, false, false, [(false, 5, 0)]⟩
    let q : Partition := { part0 with s2root := 4096, domains := [(9, 0, some 7)] }
    let s := { world (rg []) with parts := [(0, q)], mem := Mem.writeN (Mem.writeN (world (rg [])).mem 6144 (natLe 8 0x3003)) 12288 (natLe 8 (2 ^ 60 + 7 * 2 ^ 48 + 13)) }
    let finds := fun (d : PageReq) => [d].find? (fun d => d.tag == 0 && d.stage2) = some d
    let now := fun (d : PageReq) => s.stage2 d.part d.ipa (d.table || d.acc != 1) (!d.table && (d.acc == 1 || d.acc == 2))
    let far := { e with va := 2 ^ 47, ipa := 2 ^ 47 }
    let x := rg []
    (finds e ∧ (now e).map Leaf.fab = some false ∧ finds { e with access := true } ∧ now { e with ipa := 2 ^ 30 } = none ∧
      (now { e with table := true }).map Leaf.fab = some false ∧ (now { far with table := true }).map Leaf.fab = some true) ∧
    ((now { e with va := 2 ^ 47 }).map Leaf.fab = some false ∧ (2 ^ 47 : Nat).testBit 47 = true ∧ (now far).map (fun l => (l.fab, q.hasPeer l.hi)) = some (true, true) ∧
      { q with domains := [] }.hasPeer 7 = false ∧ { q with tdx := { Tdx.reset with busy := true, peer := 7 } }.tdx.busy = true) ∧
    (load0.returns = true ∧ { load0 with kind := .store }.returns = false ∧ x.life ≠ .doneWait ∧ x.gtag = load0.gtag ∧ x.sidx = load0.sidx) := by decide +kernel

/-- A copy, a scrub and a measurement at their last part; a ring in use by a stream of each direction; a map, a chunk, a post. -/
def copy0 : Cmd :=
  { id := 3, strand := 0, gtag := 0, sidx := 0, part := 0, core := 0, kind := .cpy 0 4096 64, fd0 := 0, fd1 := 0, engine := 0, issued := some 0,
    accepted := some 0, order := 1, promise := 0, raised := false, stop := false, progress := 64, fault := none, data := [], written := false,
    phase := 0, nonce := 0, measure := none, tdid := 0, hnd := false, net := CmdNet.none }

theorem test_hyp_engineEvents :
    let r : Ring := ⟨0, 8, 4, true, 0, 0, 1, 3, 0, 2⟩
    let m : Stream := ⟨1, true, 0, [1, 1, 1, 1], [512, 0, 0, 0], 0, 0, false, 2, 0⟩
    let map : MapEnt := ⟨0, 65536, 65536, 0, [], [], 2, []⟩
    let x := { rg [] with rings := [(1, r)], streams := [m], maps := [map], chunks := [⟨.sdm, 0, .saved, true, true, false, false⟩] }
    let w := fun (c : Cmd) => { world x with cmds := [c], clk := 1000 }
    let works := fun (d : Cmd) => let v := (w d).takeMeasures
      v.cmd 3 = some d ∧ d.accepted ≠ none ∧ d.written = false ∧ d.fault = none ∧ v.engineBusy d = false ∧ d.phase ≠ 100 ∧
        v.returned 3 = none ∧ d.stop = false ∧ v.gangWaits d = false
    let slot := { copy0 with kind := .slot 1 false 0 0 512, phase := 1, data := List.replicate 512 1 }
    let fill := { copy0 with kind := .fill 0 15, phase := 1, progress := 64 }
    ((w { copy0 with accepted := none }).cmd 3 = some { copy0 with accepted := none } ∧ (w copy0).commandFree 0 3 = true) ∧
    (works copy0 ∧ (w copy0).takeMeasures.answered 3 = true) ∧
    (works { copy0 with kind := .scrub 2 0 4096, progress := 0 } ∧ (w copy0).takeMeasures.hasStrand copy0 = true) ∧
    (works { copy0 with kind := .meas 0 64 0 } ∧ (w { copy0 with kind := .meas 0 64 0 }).takeMeasures.myTurn { copy0 with kind := .meas 0 64 0 } = true ∧
      (Tbl.find (world x).groups 0).isSome = true) ∧
    (x.streams.find? (fun e => e.ring == 1) = some m ∧ m.next < streamTotal m.counts ∧ (x.ring 1).fill ≠ 0 ∧
      (world x).fencesDone 0 m.after true false false = true ∧ (world x).soDone 0 m.after false false false = true ∧ x.adv = none ∧ m.born < (w copy0).clk ∧
      (world x).inUse x .spad ((x.ring 1).base + 64 * (x.ring 1).slsz * (x.ring 1).head) 512 = false ∧
      ((world x).fillFor 0 false fun q => if q = .spad then slotLines 0 512 else []).1 = false) ∧
    ((w slot).cmds.find? (fun e => e.gtag == x.gtag && e.sidx == x.sidx && (match e.kind with
          | .slot r .. => r == 1
          | _ => false)) = some slot ∧ (w slot).inUse x .spad 0 512 = false) ∧
    (x.maps.find? (fun e => decide (e.off ≤ 4096 * 31) && decide (4096 * 31 < e.off + e.size)) = some map ∧
      (w fill).cmds.find? (fun e => e.gtag == x.gtag && e.sidx == x.sidx && e.kind == .fill map.index (31 - map.off / 4096)) = some fill) ∧
    ((∃ e ∈ x.chunks, e.store = .sdm ∧ e.index = 0 ∧ e.filling = true) ∧ ∀ e ∈ x.chunks, e.claiming = false) ∧
    ((1000 : Nat) ≤ (w copy0).clk) ∧ (copy0.promise + 256 < (w copy0).cyc copy0.core ∧ copy0.kind.counted = true ∧ copy0.raised = false) ∧
    ({ world x with cores := [(0, { Core.reset with divBusy := 1 })] }.core 0).divBusy = 1 := by decide +kernel

theorem test_hyp_emptyCopy :
    let c := { copy0 with accepted := none, kind := .cpy 0 4096 0, progress := 0 }
    let s := { world (rg []) with cmds := [c] }
    s.cmd 3 = some c ∧ s.commandFree 0 3 = true := by decide +kernel

/-- Partition 0 with a first GiB of memory, and a first GiB of fabric at peer 7, to whose trust domain 9 it has a key; the command `c` in work. -/
def net (c : Cmd) : State :=
  let s := world (rg [])
  { s with
    parts := [(0, { part0 with s2root := 4096, domains := [(9, 0, some 7)] })]
    mem := Mem.writeN (Mem.writeN s.mem 6144 (natLe 8 0x3003)) 12288 (natLe 8 (2 ^ 60 + 7 * 2 ^ 48 + 13))
    cmds := [c] }

/-- The engine has nothing before the command. -/
def inWork (c : Cmd) : Bool :=
  let v := (net c).takeMeasures
  v.cmd 3 == some c && c.accepted.isSome && !c.written && c.fault.isNone && !v.engineBusy c && !v.gangWaits c && !c.stop

/-- A local range that the command may access. -/
def covers (c : Cmd) (rd wr : Bool) (va n : Nat) : Bool := ((net c).engPlaces c rd wr (spans (n / 4096 + 2) va n)).1.toOption.isSome

/-- A fabric address that the command may send to. -/
def reaches (c : Cmd) (va : Nat) (rd wr : Bool) : Bool :=
  let t := (net c).translate 0 0 va rd wr
  decide (va < 2 ^ 48) && (match t.1 with
    | .ok r => r.pa.hi == 7 && r.attr != .so && !t.2.gangHolds 0 7 && !t.2.behindLoad c va 64
    | .error _ => false)

/-- An answer of peer 7 to the command. -/
def answer0 (piece : Nat) : Msg := ⟨4, true, 3, piece, 7, 0, .write ((natLe 8 5).map some), 1, 0, none, true, false, 0, 0, 0, none⟩

theorem test_hyp_engineCopies :
    let f := 2 ^ 47
    let c := { copy0 with kind := .cpy 0 4096 64, progress := 0 }
    let rst := { c with kind := .rst f [1, 2] }
    let ratm := { c with kind := .ratm .add .n64 f 1 0 64 }
    let back := fun (c : Cmd) (piece : Nat) => { net c with msgs := [answer0 piece] }.takeMeasures
    (inWork c = true ∧ (0 + 0 : Nat).testBit 47 = false ∧ meets 0 64 4096 64 = false ∧ covers c true false 0 64 = true ∧ covers c false true 4096 64 = true) ∧
    (inWork { c with kind := .cpy f 0 64 } = true ∧ reaches { c with kind := .cpy f 0 64 } f true false = true) ∧
    (inWork { c with kind := .cpy 0 f 64 } = true ∧ reaches { c with kind := .cpy 0 f 64 } f false true = true) ∧
    (inWork rst = true ∧ reaches rst f false true = true) ∧ (inWork ratm = true ∧ reaches ratm f true true = true) ∧
    (((back { c with kind := .cpy f 0 64 } 0).returned 3).isSome = true ∧ ((back ratm 0).returned 3).isSome = true) := by decide +kernel

theorem test_hyp_engineUnits :
    let f := 2 ^ 47
    let c := { copy0 with progress := 0 }
    let xr := { c with kind := .xred true 0 8192 32 }
    let xf := { c with kind := .xred false 0 f 32 }
    let wbr := { c with kind := .wbr 0 4096, phase := 1, nonce := 2 ^ 48 }
    let v := (net wbr).takeMeasures
    let krot := { c with kind := .krot 0 1 1 64, tdid := 1 }
    let turn := { krot with phase := 1 }
    let y := (net turn).takeMeasures
    (inWork xr = true ∧ covers xr true false 0 128 = true ∧ covers xr true false 8192 33 = true ∧ covers xr false true 8192 33 = true) ∧
    (inWork xf = true ∧ covers xf true false 0 128 = true ∧ reaches xf f true true = true ∧ ((net xf).tailOf xf f).1.toOption = some none) ∧
    (inWork wbr = true ∧ v.hasStrand wbr = true ∧ v.noWay wbr (2 ^ 48) = false ∧ v.poisoned (lineOf (2 ^ 48)) = false ∧ v.lineWaits (lineOf (2 ^ 48)) true = false) ∧
    (inWork krot = true ∧ covers krot true false 64 16 = true ∧ ((net krot).key 1).cur.toNat + 1 = 1 ∧ ((net krot).key 1).lag = 0 ∧
      ((y.translate 0 0 0 false true).1.toOption.map fun r => keyOf (pageOf (r.phys 0).pa)) = some 1) ∧
    (y.noWay turn (2 ^ 48) = false ∧ y.blockPoisoned (pageOf (2 ^ 48)) = false ∧ y.rewrite (pageOf (2 ^ 48)) = none ∧ y.owes (pageOf (2 ^ 48)) = false ∧
      y.gen (pageOf (2 ^ 48)) = (y.key 1).cur ∧ { y with pages := [(pageOf (2 ^ 48), ⟨4, []⟩)] }.gen (pageOf (2 ^ 48)) ≠ (y.key 1).cur ∧ y.poisonedIn (2 ^ 48) 4096 = false) := by
  decide +kernel

/-- The first bytes of a checkpoint: format, trust domain, length and the number of clusters. -/
def header0 (ver td len gcl : Nat) : List Byte := natLe 4 ver ++ natLe 4 0 ++ natLe 8 td ++ natLe 8 len ++ natLe 4 gcl ++ natLe 4 0

/-- An UNSEAL that has collected `d`. -/
def unseal0 (phase : Nat) (d : List Byte) : Cmd :=
  { copy0 with kind := .unseal false 0 4096 65536 64, data := d, phase := phase, progress := 0, tdid := 9, measure := some 0 }

theorem test_hyp_seal :
    let c : Cmd := { copy0 with progress := 0, tdid := 9, measure := some 0, kind := .seal false 0 4096 65536 7 64 }
    let q : Partition := { part0 with s2root := 4096, domains := [(9, 0, some 7)] }
    (inWork c = true ∧ (net c).takeMeasures.answered 3 = true ∧ (net c).part 0 = some q ∧ (q.sealKey 9).isSome = true ∧ q.sealKey 8 = none) ∧
    (covers c true false 0 4096 = true ∧ covers c false true 69632 4096 = true ∧ inWork { c with phase := 1, progress := 1 } = true ∧
      covers c false true 65536 4096 = true ∧ inWork { c with phase := 2, progress := 1 } = true) := by decide +kernel

/-- Whatever bytes an UNSEAL has collected, it is in work. -/
theorem test_hyp_unsealInWork (p : Nat) (d : List Byte) :
    (net (unseal0 p d)).takeMeasures.cmd 3 = some (unseal0 p d) ∧ (net (unseal0 p d)).takeMeasures.engineBusy (unseal0 p d) = false ∧
    (net (unseal0 p d)).takeMeasures.gangWaits (unseal0 p d) = false := by
  have h : (unseal0 p d).fabricAddrs = [] := (rfl : _ = (unseal0 0 []).fabricAddrs).trans (by decide +kernel)
  exact ⟨rfl, rfl, by simp [State.gangWaits, h]⟩

theorem test_hyp_unseal :
    let q : Partition := { part0 with s2root := 4096, domains := [(9, 0, some 7)] }
    let h : Nat → Nat → Nat → Nat × Nat × Nat × Nat := fun ver len gcl =>
      let c := unseal0 0 (header0 ver 9 len gcl)
      (c.hdr 0 4, c.hdr 8 8, c.hdr 16 8, c.hdr 24 4)
    let c := unseal0 2 []
    (covers c true false 65536 4096 = true ∧ covers c false true 0 4096 = true ∧ (net c).takeMeasures.myTurn c = true ∧ (net c).takeMeasures.hasStrand c = true) ∧
    (h 1 4096 1 = (1, 9, 4096, 1) ∧ h 2 4096 1 = (2, 9, 4096, 1) ∧ h 1 4096 99 = (1, 9, 4096, 99) ∧ h 1 8192 1 = (1, 9, 8192, 1) ∧
      1 ≤ q.guaranteed.length ∧ q.guaranteed.length < 99) := by decide +kernel

/-- A saved group, a strand in FAULTWAIT under TPOL 1, a strand at a drain point. -/
theorem test_hyp_preemption :
    let r : Replay := ⟨0, 0, false, true, none, 0, false, false, none, some (.bounds, 0)⟩
    let fw := { rg [] with life := .faultWait, replay := some r }
    let dr := { rg [] with life := .draining, dpHit := true, drainAt := some 0 }
    let sp : Snapshot := ⟨0, 0, 0, 0, 0, 0, 0, [], [], 0, false, [], []⟩
    let small := { Image.empty with nbun := 1, vr6 := 1, acc32 := 1, sp64 := 1, sdm4 := 1 }
    let off := { Group.none with gtag := 5, saved := [(0, { Strand.idle with image := small, gtag := 5, gszm := 0 })] }
    let sv := { world (rg []) with groups := [(0, Group.placed), (5, off)] }
    (bits (0x200 : W64).toNat 8 0 = 0 ∧ fw.untaken = some r ∧ ((world fw).tdi fw.part).map Partition.tpol = some 1 ∧
      (0x200 : W64).toNat.testBit 9 = true ∧ (0 : W64).toNat.testBit 9 = false ∧ bits (0 : W64).toNat 8 0 = 0) ∧
    (Tbl.find (world (rg [])).strands 0 = some (rg []) ∧ (rg []).life ≠ .doneWait ∧ (rg []).drainAt = none ∧ (rg []).struck = false ∧
      { rg [] with struck := true }.drainAt = none) ∧
    (dr.halted = false ∧ dr.dpHit = true ∧ dr.life = .draining ∧ dr.regOpen = false) ∧
    (let h := { dr with halted := true, snap := some sp }; (world h).busy h = false ∧ Tbl.find (world h).strands 0 = some h) ∧
    (dr.drainAt = some 0 ∧ 0 ≤ (world dr).cyc (coreOf 0) ∧ dr.asked = false ∧ { dr with asked := true }.drainAt = some 0 ∧ dr.halted = false ∧
      dr.life ≠ .doneWait ∧ (Tbl.find (world dr).groups dr.gtag).isSome = true ∧ { dr with regOpen := true }.regOpen = true) ∧
    (let a := { rg [] with asked := true, drainAt := some 9 }
     Tbl.find (world a).strands 0 = some a ∧ a.asked = true ∧ a.drainAt ≠ none ∧ a.life = .run ∧ a.handler = false) ∧
    (sv.served.any (fun e => e.1.saved == some 5 && !((e.2.2.zip ((sortBy Prod.fst (sv.grp 5).saved).map Prod.snd)).any fun e => awayFrom e.1 e.2)) = true ∧
      (sv.grp 5).strands = [] ∧ (sv.grp 5).yieldTo = none ∧ sv.looseSaves.isEmpty = true) ∧
    (let x := { rg [] with life := .doneWait }
     (world x).doneHolds 0 = false ∧ (∀ e ∈ x.maps, e.dirty = []) ∧ ((world x).grp 0).strands.filter (fun i => i ≠ 0) = [] ∧ ((world x).grp 0).saved = [] ∧
       ({ Group.placed with strands := [0, 2] } : Group).strands.filter (fun i => i ≠ 0) ≠ []) := by decide +kernel

/-- The image of one bundle and the launch of one group of it. -/
def image0 : Image := { Image.empty with nbun := 1, vr6 := 1, acc32 := 1, sp64 := 1, sdm4 := 1 }
def launch0 : Launch :=
  { id := 0, part := 0, lq := 0, seq := 0, words := [1] ++ List.replicate 15 0, image := image0, waitMet := true, count := some 1, next := 0,
    dispatched := 0, completed := 0, discarded := 0, status := .ok, passed := some 0, starved := false, tags := [], jobNo := 0, deadline := 0, used := 0,
    overrun := false, late := false, cut := false }

/-- A queue of 16 records: at its limits, with a record of each kind that is read. -/
theorem test_hyp_launches :
    let lq : Lq := ⟨true, 0, 0x10000, 4, 0, 1, []⟩
    let q := { part0 with s2root := 4096, lqs := [(0, lq)] }
    let w := world (rg [])
    let at' := fun (ws : List W64) => { w with parts := [(0, q)], mem := Mem.writeN w.mem (2 ^ 48 + 0x10000) (wordBytes (ws.map BitVec.toNat)) }
    let good : List W64 := [1, 0x20000] ++ List.replicate 14 0
    let job : List W64 := [0x40001, 0x20000] ++ List.replicate 14 0
    let desc := [1 + 256 * (1 + 32 * (1 + 32 * (1 + 32))), 0x20040, 1, 0, 0, 0, 0, 0]
    let rd := fun (s : State) => s.sysRead 0 0x10000 128
    let l := { w with launches := [launch0] }
    (w.tdi 0).isSome = true ∧ (q.queue 1).en = false ∧
    ((0xC000000000001 : W64).toNat.testBit 0 = true ∧ (0xC000000000001 : W64).toNat / 2 ^ 48 % 16 ≤ 12 ∧ 4 ≤ (0x4000000000001 : W64).toNat / 2 ^ 48 % 16 ∧
      (0x4000000000001 : W64).toNat.testBit 47 = false) ∧
    (((16 : W64).toNat % 2 ^ 32 + 2 ^ 32 - lq.head) % 2 ^ 32 ≤ 2 ^ lq.lsz ∧ 2 ^ lq.lsz < ((17 : W64).toNat % 2 ^ 32 + 2 ^ 32 - lq.head) % 2 ^ 32) ∧
    (q.open' = true ∧ q.queueCtr 0 = none ∧ lq.head ≠ lq.tail) ∧
    (rd { w with parts := [(0, { q with s1root := 1 })] } = none) ∧
    ((rd (at' [])).map (fun b => recordOk (bytesWords b)) = some false) ∧
    ((rd (at' good)).map (fun b => recordOk (bytesWords b) && !(wordAt (bytesWords b) 0).testBit 18) = some true) ∧
    ((rd (at' job)).map (fun b => recordOk (bytesWords b) && (wordAt (bytesWords b) 0).testBit 18) = some true) ∧
    (match (at' good).readImage 0 0x20000 with | .error .badImage => true | _ => false) = true ∧
    (let s := at' good
     let t := { s with mem := Mem.writeN s.mem (2 ^ 48 + 0x20000) (wordBytes desc) }
     (t.readImage 0 0x20000).toOption.isSome = true) ∧
    (({ w with launches := [{ launch0 with waitMet := false }] }).notBehindWait { launch0 with waitMet := false } = true ∧
      (w.sysRead 0 (wordAt launch0.words 8) 4).map leNat = some 0 ∧ wordAt launch0.words 9 ≤ 0) ∧
    (l.launchWhere 0 0 0 l.launchReady = some launch0 ∧ l.fullOf 0 = false ∧ ¬(launch0.image.matrix = true ∧ launch0.size > 8) ∧ l.placeable launch0 = true ∧
      l.served.any (fun e => e.1.part == 0 && e.1.launch == some 0 && e.2.1 == 0 && e.2.2 == [2]) = true) ∧
    (let e := { launch0 with words := [0xF001] ++ List.replicate 15 0, image := { image0 with matrix := true } }
     { w with launches := [e] }.placeable e = false ∧ { w with launches := [e] }.launchReady e = true) ∧
    (let e := { launch0 with passed := none }
     let s := { w with launches := [e], strands := (List.range 64).map fun k => (k, rg []) }
     s.launchReady e = true ∧ s.placeable e = true ∧ s.served = none ∧ s.firstFit (e.offer (s.queueClass 0 0) e.job) = none) ∧
    (let e := { launch0 with next := 1, words := [1, 0, 0, 0, 0, 0, 0, 0x30000] ++ List.replicate 8 0 }
     let s := { w with launches := [e] }
     s.launchWhere 0 0 0 (fun e => s.launchOver e && s.groupsPerformed e) = some e ∧ wordAt e.words 7 ≠ 0 ∧ wordAt e.words 11 = 0 ∧
       s.sysHeld 0 0x30000 16 = none) ∧
    (launch0.passed = some 0 ∧ 0 + 125000 ≤ { l with clk := 125000 }.clk) ∧
    (launch0.status = .ok ∧ launch0.next < 1 ∧ { launch0 with tags := [0] }.tags = [0] ∧ (Tbl.find w.groups 0).isSome = true) ∧
    (q.cancelBusy = false ∧ { q with cancelBusy := true }.cancelBusy = true ∧ bits (0 : W64).toNat 2 0 = 0 ∧ bits (0 : W64).toNat 63 32 = 0 ∧ (8 : W64).toNat.testBit 3 = true ∧ { l with groups := [] }.dispatchedNow = []) ∧
    (w.launchWhere 0 0 0 (fun _ => true) = none ∧ (0 + 2 ^ 32 - lq.head) % 2 ^ 32 < (lq.tail + 2 ^ 32 - lq.head) % 2 ^ 32) := by decide +kernel

theorem test_hyp_lending :
    let own := { part0 with desc := [0x400000000, 2, 0, 0, 0, 0] }
    let borrower := { part0 with desc := [0, 0, 0, 0, 0, 0] }
    let s := { State.reset with parts := [(0, own), (1, borrower)], launches := [{ launch0 with part := 1 }] }
    let lent := { s with clusters := [(2, { Cluster.reset with lentTo := some 1 })], launches := [launch0], clk := 125000 }
    let back := { lent with clusters := [(2, { Cluster.reset with lentTo := some 1, reclaim := some 0 })], clk := 12000 }
    (s.ownerOf 2 = some 0 ∧ s.part 0 = some own ∧ s.part 1 = some borrower ∧ 2 ∈ own.margin ∧ s.unlent 2 = true ∧ s.emptyCluster 2 = true ∧
      (wordAt own.desc 1).testBit 1 = true ∧ s.lacks 0 ((s.tried 0).filter fun d => d != 2) = false ∧
      ∃ o ∈ s.offers, o.part = 1 ∧ o.ctr = none ∧ o.shape.image.dpbound ≤ 10000 ∧
        ∀ d ∈ borrower.guaranteed ++ borrower.margin.filter s.unlent, s.fit o.shape d = none) ∧
    ((lent.cluster 2).lentTo ≠ none ∧ (lent.cluster 2).reclaim = none ∧ lent.emptyCluster 2 = true ∧ (lent.cluster 2).idleAt + 125000 ≤ lent.clk ∧
      lent.ownerOf 2 = some 0 ∧ lent.lacks 0 (own.guaranteed ++ own.margin.filter lent.unlent) = true) ∧
    ((back.cluster 2).reclaim = some 0 ∧ back.emptyCluster 2 = true ∧ 0 + 12000 ≤ back.clk ∧ back.parkedOn 2 = false ∧ s.parkedOn 2 = false ∧ s.looseSaves = []) ∧
    (let full := { s with cores := [(16, { Core.reset with spadCh := [(0, .parked 5 0 0)] })]
                          groups := [(5, { Group.none with gtag := 5, saved := [(0, { Strand.idle with gtag := 5, chunks := [⟨.spad, 0, .inPlace 16 0, true, false, false, false⟩] })] })] }
     full.parkedOn 2 = true ∧ { full with clusters := back.clusters }.parkedOn 2 = true) ∧
    (let t := { lent with strands := [(32, rg [])] }
     t.lacks 0 (own.guaranteed ++ own.margin.filter t.unlent) = true ∧ Tbl.find t.strands 32 = some (rg []) ∧ clusterOf 32 = 2 ∧ (rg []).life ≠ .doneWait ∧ (rg []).struck = false) := by
  decide +kernel

theorem test_hyp_contractsAndGangs :
    let c := { Contract.reset with a := 0x2710000030D4, b := 12500, asked := true }
    let live := { c with asked := false, state := 1 }
    let lq : Lq := ⟨true, 0, 0x10000, 4, 0, 1, []⟩
    let q := fun (k : Contract) => { part0 with ctrs := [(0, k)], lqs := [(0, lq)] }
    let job := { launch0 with words := [0x40001] ++ List.replicate 15 0, next := 1, tags := [0] }
    let s := fun k (l : List Launch) => { world (rg []) with parts := [(0, q k)], clk := 12500, launches := l }
    let g : Gang := ⟨1, 2, 0, 0, none, [], false, 0, 0⟩
    let l := { launch0 with next := 1 }
    let w := fun (g : Gang) => { world (rg []) with gangs := [g], launches := [l], clk := 2500000 }
    (c.asked = true ∧ ((s c []).admission (q c) 0).toOption = some 0) ∧
    (match (s { c with a := 12499 } []).admission (q { c with a := 12499 }) 0 with | .error 1 => true | _ => false) = true ∧
    (live.live = true ∧ live.state = 1 ∧ (q live).open' = true ∧ live.admitted + live.offset + live.job * live.period ≤ (s live []).lcycOf (live.cluster / 8)) ∧
    ((s { live with state := 3 } []).openJobs 0 0 = [] ∧ ((q live).queue live.lq).en = true ∧ ((q live).queue live.lq).head ≠ ((q live).queue live.lq).tail) ∧
    ({ job with overrun := true } ∈ (s live [{ job with overrun := true }]).openJobs 0 0) ∧
    (((s live [{ job with used := 10000 }]).openJobs 0 0).find? (fun e => !e.overrun && (s live [{ job with used := 10000 }]).onCore e && decide (live.budget ≤ e.used) && !(s live [{ job with used := 10000 }]).pastDone e) =
      some { job with used := 10000 }) ∧
    (((s live [job]).openJobs 0 0).find? (fun e => !e.late && decide (e.deadline < (s live [job]).lcycOf (live.cluster / 8))) = some job) ∧
    (let miss := { job with overrun := true, deadline := 5 }
     let d := { live with job := 1 }
     (s d [miss]).openJobs 0 0 = [miss] ∧ miss.late = false ∧ miss.deadline ≤ d.admitted + d.offset + d.job * d.period) ∧
    (let q' := { part0 with s2root := 4096 }
     (world (rg [])).ringSlot 0 q'.evBase q'.evProd q'.evLsz = some (2 ^ 48 + 8192) ∧ ringRoom q'.evProd q'.evCons q'.evLsz = true ∧ q'.evWait = [] ∧
       q'.evLost = 0 ∧ (world (rg [])).poisoned (lineOf (2 ^ 48 + 8192)) = false ∧ (world (rg [])).lineWaits (lineOf (2 ^ 48 + 8192)) true = false) ∧
    ((w g).gang 1 = some g ∧ (w g).launches.find? (fun e => e.id == g.launch) = some l ∧ g.started = none ∧ g.finished = false ∧ l.count = some 1 ∧ 1 ≤ l.next ∧ l.cut = false ∧
      (1 < g.members ∧ 1 ∉ g.ready)) ∧
    (let h := { g with started := some 0 }; h.complete = false ∧ 0 + 1250 * (if h.timeout = 0 then 2000 else h.timeout) ≤ (w h).clk) := by decide +kernel

theorem test_hyp_hostRegisters :
    let q := { part0 with s2root := 4096 }
    let s := { world (rg []) with mgmt := { Mgmt.reset with phase := 4 } }
    let w : W64 × W64 × W64 := (0, 0x4001000000000000, 1)
    (s.tdi 0 = some q ∧ s.part 0 = some q ∧ (q.prqProd - (0 : W64).setWidth 32).toNat ≤ 2 ^ q.prqLsz ∧
      (q.evProd - (0 : W64).setWidth 32).toNat ≤ 2 ^ q.evLsz ∧
      ({ q with prqProd := 16 }.prqProd - (0 : W64).setWidth 32).toNat ≤ 2 ^ q.prqLsz) ∧
    (q.s1inv = none ∧ (4097 : W64).toNat.testBit 0 = true ∧ (4097 : W64).toNat.testBit 1 = false) ∧
    (200 ≤ (200 : W64).toNat % 2 ^ 16 ∧ (199 : W64).toNat % 2 ^ 16 < 200) ∧
    (let r := { q with evLost := 1 }
     ringRoom r.evProd r.evCons r.evLsz = true ∧ s.ringSlot 0 r.evBase r.evProd r.evLsz = some (2 ^ 48 + 8192) ∧ r.evWait = [] ∧
       s.lineWaits (lineOf (2 ^ 48 + 8192)) true = false ∧ s.poisoned (lineOf (2 ^ 48 + 8192)) = false) ∧
    ({ s with mgmt := Mgmt.reset }.mgmtOpen = false ∧ { q with ctrs := [(0, { Contract.reset with state := 1 })] }.ctr 0 = { Contract.reset with state := 1 } ∧
      { q with s1inv := some (some 4) }.s1inv = some (some 4)) ∧
    (s.mgmtOpen = true ∧ (s.mgmt.fevProd - (0 : W64).setWidth 32).toNat ≤ 2 ^ s.mgmt.fevLsz) ∧
    (s.window 0 = (0, 0, 0) ∧ s.frozenKey (windowOf (s.window 0)).key = none ∧ (windowOf (0, 0, 5)).en = false ∧ ((0, 0, 5) : W64 × W64 × W64) ≠ (0, 0, 0)) ∧
    (let t := { s with keys := [(2, ⟨some 1, 0, 0⟩)] }
     t.frozenKey (windowOf (0, 0x4002000000000000, 0)).key = none ∧ (windowOf (0, 0x4002000000000000, 0)).en = true ∧
       t.windowOk 0 (windowOf (0, 0x4002000000000000, 0)) = true) ∧
    (s.frozenKey (windowOf w).key = some 0 ∧ { s with fwin := [(0, w)] }.window 0 = w ∧ ((0, 0x4001000000000000, 0) : W64 × W64 × W64) ≠ w ∧
      s.frozenKey (windowOf (0, 0x4001000000000000, 0)).key = some 0) ∧
    ({ s with mgmt := { s.mgmt with phase := 3 } }.mgmt.phase = 3 ∧ s.power = true ∧ (2 ^ 24 - 8) % 8 = 0 ∧ 2 ^ 24 - 8 + 8 ≤ 2 ^ 24) := by decide +kernel

/-- A read of a TDI in each state, on the stream it is bound to and on none; of PF0 in RUN and in recovery, and with power gone. -/
theorem test_hyp_hostReads :
    let q := fun (d : Tdisp) => { part0 with tdisp := d }
    let s := fun (d : Tdisp) => { world (rg []) with parts := [(0, q d)], mgmt := { Mgmt.reset with phase := 4 }, ide := [(3, (0, 0))] }
    let a := fun (b : Bar) => HostAccess.mk b 0 8 none (some 3) true
    let low := { s .run with mgmt := { Mgmt.reset with phase := 3 } }
    (∀ d ∈ [Tdisp.unlocked, .locked, .run], (s d).part 0 = some (q d) ∧ (s d).mgmtOpen = true ∧ (q d).refuse = false ∧ (s d).ideOk 0 (q d) (a .tdi) = true) ∧
    ((s .unlocked).ideOk 0 (q .unlocked) { a .tdi with stream := none, tbit := false } = true) ∧
    ((s .run).power = true ∧ (s .run).mgmtOpen = true ∧ low.power = true ∧ low.mgmtOpen = false ∧ (a .pf0).write = none ∧ (a .pf0).len = 8) := by decide +kernel

theorem test_hyp_resets :
    let s := world (rg [])
    let down : Link := ⟨false, 2, 0⟩
    let t := { s with links := [(0, down), (2, down), (4, down)], clk := 1250000 }
    (s.part 0).isSome = true ∧ Tbl.find s.groups 0 = some Group.placed ∧ Group.placed.part = 0 ∧ Group.placed.lq = 0 ∧
    (dieLinks 0 ≠ [] ∧ ∀ l ∈ dieLinks 0, (t.link l).up = false ∧ (t.link l).downAt + 1250000 ≤ t.clk) ∧
    (let u := fun (r : Rung) => { s with rungs := [r], launches := [{ launch0 with next := 1, tags := [0] }], cmds := [copy0], clk := 62500000 }
     let none' : Rung := ⟨2, 0, 0, []⟩
     ((u none').rungs.find? (fun e => e.rung == 2 && e.scope == 0) = some none' ∧ (u none').rungOver none' = true) ∧
     ((u ⟨1, 0, 62500000, [0]⟩).rungOver ⟨1, 0, 62500000, [0]⟩ = false ∧ (u ⟨1, 0, 62500000, [0]⟩).clk < 62500000 + rungTimeout 1) ∧
     ((u ⟨1, 0, 0, [0]⟩).rungOver ⟨1, 0, 0, [0]⟩ = false ∧ 0 + rungTimeout 1 ≤ (u ⟨1, 0, 0, [0]⟩).clk) ∧
     ((u ⟨2, 0, 0, [0]⟩).rungOver ⟨2, 0, 0, [0]⟩ = false ∧ 0 + rungTimeout 2 ≤ (u ⟨2, 0, 0, [0]⟩).clk) ∧
     ((u ⟨3, 0, 0, [0]⟩).rungOver ⟨3, 0, 0, [0]⟩ = false ∧ 0 + rungTimeout 3 ≤ (u ⟨3, 0, 0, [0]⟩).clk ∧ copy0.gtag ∈ [0] ∧ s.part copy0.part ≠ none)) := by
  decide +kernel

/-- A port that meets package 7 in every matching over all its wavelengths, and a message of one flit to it. -/
def port0 : Port :=
  { Port.reset with lock := true, heard := true, retrain := true, txu := 0xFFFF, everLock := true, txSeq := 5, acked := 2, rxNext := 3,
                    ents := (List.range 32).map fun i => (i, ⟨7, 0, true, false, 0xFFFF, 0xFFFF, 0, 0⟩) }
def msg0 : Msg := ⟨4, false, 5, 0, 7, 64, .read 8, 1, 1, none, false, false, 0, 0, 0, none⟩

theorem test_hyp_linksAndPorts :
    let s := { State.reset with ports := [(0, port0)], linkKeys := [⟨0, 7, 0, 5⟩], msgs := [msg0], mgmt := { Mgmt.reset with phase := 4 } }
    let f := fun (n : Nat) => FlitMsg.mk n 0 true
    (let t := { s with links := [(7, ⟨true, 1, 0⟩), (6, ⟨false, 2, 0⟩)] }
     (t.link 0).up = true ∧ (t.link 0).failed = 0 ∧ (t.link 7).up = true ∧ (t.link 7).failed = 1 ∧ (t.link 6).up = false) ∧
    ((s.port 0).lock = true ∧ (s.port 0).pendMask = none) ∧
    ((s.port 31).dis = false ∧ (s.port 31).lock = false ∧ (s.port 31).agree = 0) ∧
    (let t := { State.reset with ports := [(31, { Port.reset with agree := 1, idx := 31, round := 9 })] }
     (t.port 31).agree = 1 ∧ 0 % 32 = ((t.port 31).idx + 1) % 32 ∧
       10 % 2 ^ 32 = (if (t.port 31).idx = 31 then (t.port 31).round + 1 else (t.port 31).round).toNat ∧
       ∀ q, q < 32 → q ≠ 31 → (t.port q).lock = false) ∧
    (32 ≤ { port0 with missed := 32 }.missed ∧ (s.port 1).heard = false) ∧
    (s.keyed 0 = true ∧ port0.heard = true ∧ port0.rxPend = none ∧ (f 3).ack = 0 ∧ (f 3).seq = port0.rxNext ∧ port0.rxNext < (f 4).seq ∧ (s.port 0) = port0) ∧
    (port0.acked < 3 ∧ 3 ≤ port0.txSeq ∧ 5 ≤ port0.txSeq) ∧
    ((0xF000 : BitVec 16) = BitVec.ofNat 16 (15 * 2 ^ (4 * (3 % 4))) &&& { Port.reset with txu := 0xFFFF }.txu ∧
      { Port.reset with txu := 0xFFFF }.txu &&& ~~~(0xF000 : BitVec 16) ≠ 0 ∧ Port.reset.pendMask = none) ∧
    (let u := { s with ports := [(0, { port0 with lock := false, heard := false })] }
     (u.port 0).lock = false ∧ (u.port 0).everLock = true ∧ (u.port 0).heard = false ∧ { port0 with heard := false }.heard = false ∧
       { s with linkKeys := [] }.keyed 0 = false) := by decide +kernel

theorem test_hyp_trainingAndRoutes :
    let s := { State.reset with ports := [(0, port0)], linkKeys := [⟨0, 7, 0, 5⟩], msgs := [msg0], mgmt := { Mgmt.reset with phase := 4 } }
    (s.mgmtOpen = true ∧ port0.trains (s.instanceOf 0) 0 = true ∧ { port0 with attempt := some (s.instanceOf 0) }.attempt = some (s.instanceOf 0) ∧ { port0 with fails := 1 }.fails < 2 ∧ 2 ≤ { port0 with fails := 2 }.fails ∧
      crc32 (trainBytes (TrainRec.mk true 1 1 0)) ≠ crc32 (trainBytes (TrainRec.mk true 3 3 0))) ∧
    (s.msgs.find? (fun e => e.id == 4) = some msg0 ∧ msg0.acked = false ∧
      (∀ e ∈ s.msgs, e.id ≠ 4 → e.id < 4 ∨ e.route.isSome = true → e.acked = false → s.collides e msg0 = false) ∧ msg0.route = none ∧ msg0.tried ≠ s.roundNow ∧
      (let t := { s with ports := [(0, { port0 with ents := [(1, ⟨7, 0, true, false, 0xFFFF, 0xFFFF, 0, 0⟩)] })] }
       ((chooseRoute t.ownTables t.tablesOf t.reserved (t.aheadOf msg0) msg0.peer msg0.left t.fabricTime).map fun c => c.2.slot != t.instanceOf c.2.port) = some true) ∧
      (let t := { s with ports := [] }
       (chooseRoute t.ownTables t.tablesOf t.reserved (t.aheadOf msg0) msg0.peer msg0.left t.fabricTime).isNone = true)) := by
  decide +kernel

theorem test_hyp_remoteTransactions :
    let w : W64 × W64 × W64 := (0x7000000000000, 0x7001000000010000, 1)
    let q := { part0 with s2root := 4096, domains := [(9, 0, some 7)] }
    let s := { world (rg []) with parts := [(0, q)], fwin := [(0, w)] }
    let r : RemoteReq := ⟨7, 0, 1, true, 0, 9, 4095, .write [some 1], none, 0, none⟩
    let fits := fun (w : Window) => w.en && w.src == r.src && decide (w.base ≤ r.fia) && decide (r.fia < w.base + w.size)
    (s.countOk r.src r.endpoint r.count = true ∧ (r.src, r.endpoint, 1) ∈ { s with accepts := [(7, 0, 1)] }.accepts) ∧
    ((s.fwin.map fun (e : Nat × W64 × W64 × W64) => windowOf e.2).find? fits = some ⟨0, 7, 65536, 1, true, true, true, 4096⟩) ∧
    ((({ s with fwin := [] } : State).fwin.map fun (e : Nat × W64 × W64 × W64) => windowOf e.2).find? fits = none) ∧
    ((s.key 1).owner = some 0 ∧ s.part 0 = some q ∧ (∃ d ∈ q.domains, d.1 = r.tdid) ∧ r.fia % 64 + [some (1 : Byte)].length ≤ 64 ∧
      (∀ l ∈ linesIn (1 * 2 ^ 48 + 65536 + (4095 - 0)) 1, s.lineWaits l true = false) ∧
      s.poisonedIn (1 * 2 ^ 48 + 65536 + (4095 - 0)) 1 = false) ∧
    (let c := { r with cmd := some 1, post := some (.word 1 64 3) }
     let pa := 2 ^ 48 + 65536 + 64
     s.windowPlace c (.flagWord 3) 64 4 = some (0, pa) ∧ s.poisonedIn pa 4 = false ∧ c.cmd = some 1 ∧ c.post = some (.word 1 64 3) ∧ s.far = [] ∧
       ∀ l ∈ linesIn pa 4, s.lineWaits l true = false ∧ l ∉ linesIn (1 * 2 ^ 48 + 65536 + (4095 - 0)) 1) ∧
    ({ (⟨0, 7, 65536, 1, true, true, true, 4096⟩ : Window) with wr := false }.wr = false ∧ (0 + 4096 < 4095 + [some (1 : Byte), none].length) ∧
      (4090 : Nat) % 64 + [some (1 : Byte), none].length ≤ 64) ∧
    (let t := { s with msgs := [msg0], reqs := [{ load0 with stage := .accepted }] }
     t.msgs.find? (fun x => x.id == 4 && x.isCmd == false && !x.acked) = some msg0 ∧ (t.req msg0.owner).isSome = true ∧
       msg0.piece < load0.pieces.length ∧ ∀ l ∈ t.leases, l.lender = true ∨ l.state ≠ 1) := by decide +kernel

theorem test_hyp_keyAgreement :
    let q := { part0 with domains := [(9, 5, none)] }
    let m := fun (b : List Byte) => TdxMsg.mk 1 0 9 b [] true none
    let v : W64 := 0x10070001
    let run := fun n => { q with tdx := { Tdx.reset with busy := true, step := n, peer := 7, goal := 9 } }
    let armed := { q with tdx := { Tdx.reset with armed := some (7, 1, 9, 0) } }
    let s := fun (q : Partition) => { world (rg []) with parts := [(0, q)], clk := 1250000 }
    ((s q).tdi 0 = some q ∧ q.tdx.busy = false ∧ (s q).exhausted = false ∧ v.toNat % 4 = 1 ∧ q.atLimit 9 = false ∧ (9 : W64) ≠ 0 ∧ 9 ∈ q.tds ∧
      (0x10070003 : W64).toNat % 4 = 3 ∧ { q with tdx := { q.tdx with tdid := 9 } }.tdx.tdid = 9) ∧
    (armed.tdx.armed = some (7, 1, 9, 0) ∧ 0 + 1250000 ≤ (s armed).clk ∧ (run 1).tdx.busy = true ∧ (run 1).tdx.since + 1250000 ≤ (s (run 1)).clk) ∧
    ((m []).part = 0 ∧ (m []).tdid ≠ 0 ∧ armed.tdx.armed = some (7, (m []).source, (m []).tdid, 0) ∧
      (s armed).exhausted = false ∧ { s armed with clk := 1249999 }.clk < 0 + 1250000 ∧ armed.tdx.busy = false ∧ armed.atLimit 9 = false ∧
      { m [] with checked := false }.checked = false) ∧
    (∀ n ∈ [1, 2, 3], let x := (run n).tdx
      x.busy = true ∧ x.step = n ∧ x.peer = 7 ∧ x.goal = (m []).tdid ∧ (m []).verdict = none) ∧
    ((m (confirmation [] [])).body = confirmation (run 3).tdx.secret (run 3).tdx.log ∧ ((m []).tdid, 5, none) ∈ (run 3).domains ∧
      (m []).body ≠ confirmation (run 3).tdx.secret (run 3).tdx.log) := by decide +kernel

/-- A message that holds the identity key of its sender's certificate at a place, and one that does not. -/
theorem test_hyp_identity (n : Nat) :
    ((List.replicate n 0 ++ Config.certifiedKey 7).drop n).take 68 = Config.certifiedKey 7 ∧ (([] : List Byte).drop n).take 68 ≠ Config.certifiedKey 7 := by
  have h : (Config.certifiedKey 7).length = 68 := by simp [Config.certifiedKey]
  refine ⟨?_, fun e => ?_⟩
  · rw [List.drop_left' (by simp), List.take_of_length_le (by omega)]
  · rw [← e] at h; simp at h

theorem test_hyp_leases :
    let q := { part0 with s2root := 4096, domains := [(9, 5, some 7)] }
    let s := { world (rg []) with parts := [(0, q)], clk := 320000 }
    let c := { copy0 with kind := .lease 7 8192 0x100000 64, progress := 0 }
    let t := { s with cmds := [c] }
    let b : Lease := ⟨3, false, 7, 0, 2, 0x100000, 0, some 3, 0, 0⟩
    let l : Lease := ⟨3, true, 7, 0, 2, 65536, 0, some 3, 1, 0⟩
    (t.leaseWaiting 3 = some (c, 7, 8192, 0x100000) ∧ c.accepted = some 0 ∧ 0 + 320000 ≤ t.clk) ∧
    ({ s with leases := [b] }.leases.find? (fun y => y.id == 3 && !y.lender && y.peer == 7 && y.state == 0) = some b ∧ s.msgs = []) ∧
    ({ t with leases := [l] }.evicting 3 = some l ∧ l.since + 250000 ≤ t.clk) := by decide +kernel

/-- A lease of two pages, wherever the pool and the fuse that the manual leaves free have room and the policy allows it. -/
theorem test_hyp_leaseGrant (h : Config.leaseForbidden 7 9 = false ∧ 2 ≤ Config.lendingPool.2 ∧ 0 < Config.fwinMax) :
    let q := { part0 with domains := [(9, 5, some 7)] }
    let s := { State.reset with parts := [(Config.poolPartition, q)] }
    Config.leaseForbidden 7 9 = false ∧ (∃ e ∈ s.parts, ∃ d ∈ e.2.domains, d.1 = 9 ∧ d.2.2 = some 7) ∧ s.poolHolds 9 = true ∧
      s.poolPlace 2 = some Config.lendingPool.1 ∧ s.freeKey = some 1 ∧
      (List.range Config.fwinMax).find? (fun i => (windowOf (s.window i)).en == false) = some 0 ∧ s.freeFia 7 8192 = some 0 := by
  refine ⟨h.1, ⟨_, .head _, _, .head _, rfl, rfl⟩, ?_, ?_, by decide +kernel, ?_, by decide +kernel⟩
  · simp [State.poolHolds, State.part, Tbl.find, Partition.tds, List.eraseDups, List.eraseDupsBy, List.eraseDupsBy.loop]
  · simp [State.poolPlace, State.lent, State.reset, h.2.1]
  · obtain ⟨n, hn⟩ := Nat.exists_eq_succ_of_ne_zero (Nat.ne_of_gt h.2.2)
    rw [hn, List.range_succ_eq_map, List.find?_cons_of_pos]
    decide +kernel

theorem test_hyp_interfaces :
    let q := { part0 with s2root := 4096 }
    let f := fun (d : Tdisp) => { world (rg []) with
      parts := [(0, { q with tdisp := d })]
      mgmt := { Mgmt.reset with phase := 4 }
      spdm := [(1, { Spdm.reset with sessions := [(1, true)] })]
      ide := [(3, (0, 0))] }
    (∀ d ∈ [Tdisp.unlocked, .locked, .run, .error], (f d).session 0 = true) ∧ ((f .unlocked).key 4095).owner = none ∧ (f .run).mgmtOpen = true ∧
    (let a : HostAccess := ⟨.aperture, 2 ^ 39 - 8, 8, none, some 3, true⟩; (f .run).ideOk 0 { q with tdisp := .run } a = true ∧ a.addr + a.len ≤ 2 ^ 39) ∧
    ((f .run).hostPlaces 0 4088 8 false).1.toOption = some [(2 ^ 48 + 4088, 8)] ∧ (f .run).poisonedIn (2 ^ 48 + 4088) 8 = false ∧
    ((f .run).hostPlaces 0 4088 8 true).1.toOption = some [(2 ^ 48 + 4088, (natLe 8 5).length)] := by decide +kernel

/-- Entries of stage 2: the valid one of the first GiB, an invalid one beside it, one in a table whose line is poisoned; what a host asks of them, of
the descriptor and of KeyIDs. -/
theorem test_hyp_stage2Changes :
    let q := { part0 with s2root := 4096, tdisp := .unlocked }
    let s := { world (rg []) with parts := [(0, q)], mgmt := { Mgmt.reset with phase := 4 } }
    let at' := fun (l g : Nat) => (s.entryOf q l g).toOption
    (at' 1 0 = some (some 8192) ∧ (Mem.word s.mem 8192).toNat.testBit 0 = true ∧ Mem.word s.mem 8192 ≠ 12 ∧ (12 : W64).toNat.testBit 0 = false) ∧
    (at' 1 (2 ^ 30) = some (some 8200) ∧ (Mem.word s.mem 8200).toNat.testBit 0 = false ∧ Mem.word s.mem 8200 ≠ 0x100004000000D ∧
      (0x100004000000D : W64).toNat.testBit 1 = false ∧ (0x100004000000D : W64).toNat.testBit 60 = false ∧ s.leaseKey 1 = false ∧
      s.lineWaits (lineOf 8200) true = false) ∧
    ((match { s with poison := [(stackPage 2, none)] }.entryOf q 1 0 with
      | .error _ => true
      | _ => false) = true) ∧
    ((s.key 4095).owner = none ∧ (s.key 1).owner = some 0 ∧ q.desc.set 2 1 ≠ q.desc ∧ s.descOk 0 (q.desc.set 2 1) = false ∧ q.desc.set 0 0x0000000C00000003 = q.desc ∧
      q.desc.set 4 0x0008000000001000 ≠ q.desc ∧ s.descOk 0 (q.desc.set 4 0x0008000000001000) = true) ∧
    ({ s with mgmt := Mgmt.reset }.mgmtOpen = false) := by decide +kernel

/-- A descriptor in order: clusters 0 and 1 guaranteed, 2 and 3 in margin. -/
theorem test_hyp_bootAndTrust :
    let x := { Spdm.reset with version := true, caps := true, algs := true, sessions := [(1, false), (2, true)] }
    let s := { world (rg []) with mgmt := { Mgmt.reset with phase := 4, featStat := 1 }, spdm := [(0, x), (1, x)] }
    let ph := fun n => { s with mgmt := { Mgmt.reset with phase := n } }
    (s.boxOpen 0 = true ∧ s.boxOpen 1 = true ∧ s.box 0 = x ∧ (1, false) ∈ x.sessions ∧ (2, true) ∈ x.sessions ∧ s.session 0 = true) ∧
    (part0.atLimit 9 = false) ∧ ({ s with power := false }.power = false) ∧
    ((ph 0).mgmt.phase = 0 ∧ (ph 1).mgmt.phase = 1 ∧ (ph 2).mgmt.phase = 2 ∧ (ph 3).mgmt.phase = 3 ∧ (0x1000000 : W64).toNat.testBit 24 = true ∧
      (ph 3).mgmt.recBusy = false ∧ (ph 1).mgmt.recBusy = false ∧ { (ph 1).mgmt with recBusy := true }.phase = 1) ∧
    (s.mgmt.pctlBusy = false ∧ { s.mgmt with pctlBusy := true }.pctlBusy = true) ∧
    ({ s with parts := [] }.mgmtOpen = true ∧ ([0xFFFF, 0, 0, 0] : List W64).headD 0 &&& 0xFFFF = 0xFFFF) ∧
    (let t := { s with mgmt := { s.mgmt with pdesc := part0.desc } }
     t.part 15 = none ∧ t.descOk 15 t.mgmt.pdesc = false ∧ { t with parts := [] }.descOk 15 t.mgmt.pdesc = true) ∧
    ((world (rg [])).part 0).map Partition.tdisp = some .run ∧
    ((0x20000 : W64).toNat.testBit 17 = true ∧ s.mgmt.rbBusy = false ∧ { s.mgmt with rbBusy := true }.rbBusy = true) ∧
    ((s.strand 510).contract = false ∧ (s.strand 511).contract = false ∧
      (let t := { s with strands := [(0, { rg [] with contract := true })] }
       (t.strand 0).contract = true ∧ (t.strand 2).contract = false)) := by decide +kernel

/-! ## The hypotheses of the statements are met: the whole machine -/

theorem test_hyp_stepRunsDecoded :
    let i := Instr.add 4 1 2
    let s := State.reset.placeBundle (encode i)
    let u := (s.presented 0).1
    (s.turn = 0 + 1 ∧ (s.core 0).frozen = false ∧
      (s.presented 0).2.any (fun l => match l with
        | [b] => b.ready && b.need == 0 && u.waitsMet [b] [] == [b] && b.k == 0
        | _ => false) = true) ∧
    ((u.strand 0).reissue = none ∧ decodeOne ((u.strand 0).bundleAt (u.strand 0).pc) = some i) ∧
    (let x := s.strand 0
     let z := s.setStrand 0 { x with mat := { x.mat with gathers := [⟨false, 0, 0, [3]⟩] } }
     z.turn = 0 + 1 ∧ (z.core 0).frozen = false ∧ (z.presented 0).2.isNone = true ∧ ((z.setCore 0 { z.core 0 with frozen := true }).core 0).frozen = true) ∧
    (let e := { s with turn := 257, agenda := [(0, .streamSlotStart 0 0)] }
     257 ≤ e.turn ∧ e.agenda = (0, .streamSlotStart 0 0) :: [] ∧ isTransfer (.streamSlotStart 0 0) = true) ∧
    ({ s with turn := 0, agenda := [(0, .powerUp)] }.agenda = (0, .powerUp) :: []) ∧
    ({ s with turn := 0, agenda := [(1, .powerUp)] }.agenda = (0 + 1, .powerUp) :: []) ∧ State.reset.turn = 0 ∧ State.reset.agenda = [] := by
  decide +kernel

/-- A word that is fetched runs at once: ADD s7, s1, s2, and the strand is at bundle 1. -/
theorem test_step_add :
    (match step (State.reset.withFetchWord 32 0x02382100) with
      | .next t => (t.strand 0).pc
      | _ => 0) = 1 := by decide +kernel

theorem test_hyp_roundTrip : (Instr.fladd 31 63).wf = true ∧ (Instr.fladd 31 63).encodes = true := by decide

theorem test_hyp_memoryInvariant :
    State.reset.storesWf = true ∧ ∃ t, step State.reset = .next t := by
  refine ⟨by decide, ?_⟩
  have h : (match step State.reset with
      | .next _ => true
      | _ => false) = true := by decide +kernel
  match e : step State.reset with
  | .next t => exact ⟨t, rfl⟩
  | .fault f => rw [e] at h; cases h
  | .refused f => rw [e] at h; cases h

theorem test_hyp_resultVisibility :
    (rg []).iss.handler = false ∧ (rg []).pend = [] ∧ (63 : BitVec 6) ≠ 0 ∧ (15 : BitVec 4) ≠ 0 ∧
    (let w : Write := ⟨3, none, false, true, false, .s 4 1⟩; { rg [] with pend := [w, { w with tgt := .s 5 2 }] }.pend.length = 2 ∧ w.ready = true ∧ w.vis ≤ w.vis) := by
  decide +kernel

theorem test_hyp_frames :
    (Instr.add 4 1 2).encodes = true ∧ (Instr.add 4 1 2).wf = true ∧ Instr.add 4 1 2 ≠ .eret ∧ ∃ t, exec (.add 4 1 2) (st (rg [])) = .next t :=
  ⟨by decide, by decide, by decide, _, rfl⟩

/-! ## Worked examples of the spec -/

/-- The strand of a state once every write of one instruction is visible. -/
def after (i : Instr) (x : Strand) : Strand :=
  match exec i (st x) with
  | .next t => t.me.settle false 1000
  | _ => x
/-- A vector register of elements. -/
def vec (w : Nat) (l : List Nat) : VReg := BitVec.ofNat 4096 (packElems w l)

/-- R96's example. -/
theorem test_ex_div : (after (.div 6 4 5) (rg [(4, -7), (5, 2)])).s 6 = -3 ∧ (after (.div 6 4 5) (rg [(4, -7)])).s 6 = -1 := by decide +kernel
theorem test_ex_rem : (after (.rem 7 4 5) (rg [(4, -7), (5, 2)])).s 7 = -1 ∧ (after (.rem 7 4 5) (rg [(4, -7)])).s 7 = -7 := by decide +kernel
theorem test_ex_divn : (after (.divn 6 4 5) (rg [(4, -7)])).s 6 = 0xFFFFFFFFFFFFFFFF := by decide +kernel
theorem test_ex_remn : (after (.remn 7 4 5) (rg [(4, -7)])).s 7 = -7 := by decide +kernel

/-- The example of R143: lane 0 of v20 and v21. -/
theorem test_ex_vmadc :
    let m := 0xFFFFFFFFFFFFFFFF
    let y := after (.vmadc ⟨0, .one, false⟩ 20 8 9 3) { rg [] with vreg := [(8, vec 64 [m]), (9, vec 64 [m]), (20, vec 64 [m])], preg := [(3, 1)] }
    elemAt 64 (y.v 20).toNat 0 = 1 ∧ elemAt 64 (y.v 21).toNat 0 = m := by decide +kernel

/-- The example of R50 and R150: the first block in bytes 0 to 11. -/
theorem test_ex_vqnt :
    let x := [0x3FC00000, 0xBF400000, 0x3E800000, 0x3E000000, 0, 0, 0x40400000, 0x40200000, 0x3D800000, 0xBD000000, 0, 0, 0, 0, 0, 0x3F000000]
    let y := after (.vqnt ⟨0, .one, false⟩ .bx5 .f32 12 6) { rg [] with vreg := [(6, vec 32 x)] }
    natLe 12 ((y.v 12).toNat % 2 ^ 96) = [0x80, 0xB1, 0xCC, 0x8A, 0x00, 0x00, 0x53, 0x22, 0x02, 0x00, 0x00, 0x40] := by decide +kernel

/-- The example of R52. -/
theorem test_ex_mx :
    let x := [0x41200000, 0x3E99999A, 0xBA83126F] ++ List.replicate 29 0
    quantiseMx .e4m3 (x.map Fmt.f32.value) = leNat [0x7A, 0x7A, 0x52, 0x90] := by decide +kernel

/-- The two examples of R170: with the constant of 17, and with a constant of 0. -/
theorem test_ex_vmodmul :
    let x := fun k => { rg [] with mreg := (List.range 64).map fun i => (i, 17), kreg := [(0, k)], vreg := [(8, vec 64 [8]), (9, vec 64 [15])] }
    let i := Instr.vmodmul ⟨0, .one, false⟩ 20 8 9 0
    elemAt 64 ((after i (x 0xF0F0F0F0F0F0F0F0)).v 20).toNat 0 = 1 ∧ elemAt 64 ((after i (x 0)).v 20).toNat 0 = 86 := by decide +kernel

/-- The example of R113. -/
theorem test_ex_setfmt : (after (.setfmt 0x1000) (rg [])).fmt = 0x1000 := by decide +kernel

end Sys2Proof.Tests
end

section
/-! SUPPORT. The writes of the system registers and the moves of the rings, an equation per case, and the statement about them (O8). -/

namespace Sys2Proof.Machine

/-! ## WRSR (R117, R21) -/

/-- The word written to HCFG gives the fields of R19 by their positions. -/
theorem ringOf_eq (old : Ring) (v : W64) : ringOf old v = { old with
    base := (v.extractLsb' 0 21).toNat, slsz := (v.extractLsb' 32 12).toNat, nslot := (v.extractLsb' 48 12).toNat,
    en := v.getLsbD 63 } := by
  simp [ringOf, bits, Nat.shiftRight_eq_div_pow, BitVec.getLsbD]

/-- R21, as conditions on the handle and on the fields of the word written. -/
theorem ringOk_ringOf_iff (spad : Nat) (old : Ring) (v : W64) : ringOk spad old (ringOf old v) = true ↔
    old.bind = 0 ∧ old.infl = 0 ∧ (v.extractLsb' 0 21).toNat % 64 = 0 ∧
      (v.getLsbD 63 = true → 1 ≤ (v.extractLsb' 32 12).toNat ∧ 1 ≤ (v.extractLsb' 48 12).toNat ∧
        (v.extractLsb' 0 21).toNat + 64 * (v.extractLsb' 32 12).toNat * (v.extractLsb' 48 12).toNat ≤ spad) := by
  rw [ringOf_eq]
  cases hen : v.getLsbD 63 <;> simp [ringOk, and_assoc]

/-- The number of HCFG of handle `h` (R31). -/
theorem hcfgNum_toNat (h : BitVec 4) : (0x040#12 + h.setWidth 12).toNat = 0x040 + h.toNat := by
  have hlt := h.isLt
  simp only [BitVec.toNat_add, BitVec.toNat_setWidth, BitVec.toNat_ofNat]
  omega

/-- WRSR of HCFG writes a ring that R21 accepts, or traps RING; the test is on the handle at issue, the write on the handle as it stands. -/
theorem execWrsr_hcfg (s : State) (h : BitVec 4) (a : BitVec 6) : execWrsr (0x040#12 + h.setWidth 12) a s =
    if ringOk s.me.spadSize (s.me.ringAt h.toNat) (ringOf (s.me.ringAt h.toNat) (s.me.s a)) then
      .next (s.did 0 (s.me.setRing h.toNat (if (ringOf (s.me.ring h.toNat) (s.me.s a)).en
        then (ringOf (s.me.ring h.toNat) (s.me.s a)).fresh else ringOf (s.me.ring h.toNat) (s.me.s a))))
    else .next (s.traps 0 .ring (s.me.s a)) := by
  have hin : 0x040 ≤ 0x040 + h.toNat ∧ 0x040 + h.toNat ≤ 0x04F := ⟨by omega, by omega⟩
  simp only [execWrsr, hcfgNum_toNat, if_pos hin, Nat.add_sub_cancel_left]
  rfl

section
variable {s : State} {h : BitVec 4} {a : BitVec 6}

/-- An accepted write that enables the ring leaves it empty with every slot free. -/
theorem execWrsr_hcfg_enables
    (hok : ringOk s.me.spadSize (s.me.ringAt h.toNat) (ringOf (s.me.ringAt h.toNat) (s.me.s a)) = true)
    (hen : (s.me.s a).getLsbD 63 = true) :
    execWrsr (0x040#12 + h.setWidth 12) a s = .next (s.did 0 (s.me.setRing h.toNat { s.me.ring h.toNat with
      base := ((s.me.s a).extractLsb' 0 21).toNat, slsz := ((s.me.s a).extractLsb' 32 12).toNat,
      nslot := ((s.me.s a).extractLsb' 48 12).toNat, en := true, head := 0, tail := 0, fill := 0,
      free := ((s.me.s a).extractLsb' 48 12).toNat, infl := 0 })) := by
  rw [execWrsr_hcfg, if_pos hok, ringOf_eq, hen]
  rfl

/-- An accepted write that does not enable the ring leaves its pointers and counts. -/
theorem execWrsr_hcfg_disables
    (hok : ringOk s.me.spadSize (s.me.ringAt h.toNat) (ringOf (s.me.ringAt h.toNat) (s.me.s a)) = true)
    (hen : (s.me.s a).getLsbD 63 = false) :
    execWrsr (0x040#12 + h.setWidth 12) a s = .next (s.did 0 (s.me.setRing h.toNat { s.me.ring h.toNat with
      base := ((s.me.s a).extractLsb' 0 21).toNat, slsz := ((s.me.s a).extractLsb' 32 12).toNat,
      nslot := ((s.me.s a).extractLsb' 48 12).toNat, en := false })) := by
  rw [execWrsr_hcfg, if_pos hok, ringOf_eq, hen]
  rfl

/-- A write that R21 refuses traps RING with TVAL the value written. -/
theorem execWrsr_hcfg_traps
    (hok : ¬ ringOk s.me.spadSize (s.me.ringAt h.toNat) (ringOf (s.me.ringAt h.toNat) (s.me.s a)) = true) :
    execWrsr (0x040#12 + h.setWidth 12) a s = .next (s.traps 0 .ring (s.me.s a)) := by
  rw [execWrsr_hcfg, if_neg hok]

end

/-! ## RADVC and RADVP (R118, R20, R215) -/

theorem toNat_immCount (n : BitVec 12) : (n.setWidth 64).toNat = n.toNat :=
  BitVec.toNat_setWidth_of_le (by decide)

/-- A count is tested against 0 as a word by the model and as a number by its effect. -/
theorem count_eq_zero_iff {w : Nat} (n : BitVec w) : n = 0 ↔ n.toNat = 0 :=
  BitVec.toNat_eq.trans (by simp)

section
variable {s : State} {h : BitVec 4} {n : W64}

/-- RADVC of a count of 0 on an enabled ring has no effect. -/
theorem State.radvc_zero (hen : (s.me.ringAt h.toNat).en = true) (hn : n.toNat = 0) :
    s.radvc h n = .next (s.did 0 s.me) :=
  if_pos ⟨hen, (count_eq_zero_iff n).2 hn⟩

/-- RADVP of a count of 0 on an enabled ring has no effect. -/
theorem State.radvp_zero (hen : (s.me.ringAt h.toNat).en = true) (hn : n.toNat = 0) :
    s.radvp h n = .next (s.did 0 s.me) :=
  if_pos ⟨hen, (count_eq_zero_iff n).2 hn⟩

/-- RADVC by a count up to FILL moves the consumer pointer of an enabled ring that no drain is bound to. -/
theorem State.radvc_moves (hen : (s.me.ringAt h.toNat).en = true) (hn : n.toNat ≠ 0)
    (hfill : n.toNat ≤ (s.me.ringAt h.toNat).fill) (hbind : (s.me.ringAt h.toNat).bind ≠ 2) :
    s.radvc h n = .next (s.did 0
      { s.me.setRing h.toNat ((s.me.ring h.toNat).consume n.toNat) with adv := some (h.toNat, n.toNat) }) := by
  have hzero : ¬ ((s.me.ringAt h.toNat).en = true ∧ n = 0) := fun hz => hn ((count_eq_zero_iff n).1 hz.2)
  have hfits : ¬ ((s.me.ringAt h.toNat).en = false ∨ (s.me.ringAt h.toNat).fill < n.toNat ∨ (s.me.ringAt h.toNat).bind = 2) := by
    simp [hen, hfill, hbind]
  exact (if_neg hzero).trans (if_neg hfits)

/-- RADVP by a count up to FREE moves the producer pointer of an enabled ring that no fill is bound to. -/
theorem State.radvp_moves (hen : (s.me.ringAt h.toNat).en = true) (hn : n.toNat ≠ 0)
    (hfree : n.toNat ≤ (s.me.ringAt h.toNat).free) (hbind : (s.me.ringAt h.toNat).bind ≠ 1) :
    s.radvp h n = .next (s.did 0
      { s.me.setRing h.toNat ((s.me.ring h.toNat).produce n.toNat) with adv := some (h.toNat, n.toNat) }) := by
  have hzero : ¬ ((s.me.ringAt h.toNat).en = true ∧ n = 0) := fun hz => hn ((count_eq_zero_iff n).1 hz.2)
  have hfits : ¬ ((s.me.ringAt h.toNat).en = false ∨ (s.me.ringAt h.toNat).free < n.toNat ∨ (s.me.ringAt h.toNat).bind = 1) := by
    simp [hen, hfree, hbind]
  exact (if_neg hzero).trans (if_neg hfits)

/-- What refuses a count is no count of 0 on an enabled ring, and is one of the three reasons that the model tests. -/
theorem refused_count {en : Bool} {limit : Nat} {bound : Prop} (hbad : en = false ∨ limit < n.toNat ∨ (n.toNat ≠ 0 ∧ bound)) :
    ¬ (en = true ∧ n = 0) ∧ (en = false ∨ limit < n.toNat ∨ bound) := by
  rw [count_eq_zero_iff]
  rcases hbad with hen | hlimit | ⟨hn, hbound⟩
  · exact ⟨by simp [hen], .inl hen⟩
  · exact ⟨by omega, .inr (.inl hlimit)⟩
  · exact ⟨by simp [hn], .inr (.inr hbound)⟩

/-- RADVC on a ring that is off, by a count beyond FILL, or on a ring bound to a drain traps RING. -/
theorem State.radvc_traps (hbad : (s.me.ringAt h.toNat).en = false ∨ (s.me.ringAt h.toNat).fill < n.toNat ∨
    (n.toNat ≠ 0 ∧ (s.me.ringAt h.toNat).bind = 2)) : s.radvc h n = .next (s.traps 0 .ring n) :=
  (if_neg (refused_count hbad).1).trans (if_pos (refused_count hbad).2)

/-- RADVP on a ring that is off, by a count beyond FREE, or on a ring bound to a fill traps RING. -/
theorem State.radvp_traps (hbad : (s.me.ringAt h.toNat).en = false ∨ (s.me.ringAt h.toNat).free < n.toNat ∨
    (n.toNat ≠ 0 ∧ (s.me.ringAt h.toNat).bind = 1)) : s.radvp h n = .next (s.traps 0 .ring n) :=
  (if_neg (refused_count hbad).1).trans (if_pos (refused_count hbad).2)

end

/-! ## The statement -/

/-- Settles O8: WRSR of HCFG by whether R21 accepts the word and whether it enables the ring; RADVC and RADVP by whether the count
is 0, fits the ring or is refused, for the immediate count as for the register's. -/
theorem ringRegisters : Obligations.RingRegisters := by
  refine ⟨fun s a h => ?_, fun s h n a d => ?_⟩
  · refine ⟨rfl, rfl, rfl, fun hok hen => ?_, fun hok hen => ?_, fun hok => ?_⟩
    · exact execWrsr_hcfg_enables ((ringOk_ringOf_iff ..).2 hok) hen
    · exact execWrsr_hcfg_disables ((ringOk_ringOf_iff ..).2 hok) hen
    · exact execWrsr_hcfg_traps fun hr => hok ((ringOk_ringOf_iff ..).1 hr)
  · have himm := toNat_immCount n
    simp only [ne_eq, count_eq_zero_iff n, ← himm]
    exact ⟨State.radvc_moves, State.radvp_moves, State.radvc_moves, State.radvp_moves,
      fun hen hm => ⟨State.radvc_zero hen hm, State.radvp_zero hen hm⟩,
      fun hen hn => ⟨State.radvc_zero hen hn, State.radvp_zero hen hn⟩,
      State.radvc_traps, State.radvp_traps, State.radvc_traps, State.radvp_traps, rfl⟩

end Sys2Proof.Machine
end

section
/-! SUPPORT. The divider: quotient and remainder as the words of the standard library's divisions, and the statement about DIV, DIVN, REM and
REMN (O2). -/

namespace Sys2Proof.Machine

/-! ## The divisions of R96 -/

/-- By zero the quotient is all ones and the remainder the dividend. -/
theorem divSigned_zero (a : W64) : divSigned a 0 = (BitVec.allOnes 64, a) := rfl

/-- -2^63 by -1 gives -2^63 and 0. -/
theorem divSigned_overflow : divSigned (BitVec.intMin 64) (-1) = (BitVec.intMin 64, 0) := by decide

/-- Outside the corners, signed division is the library's, which rounds toward zero. -/
theorem divSigned_eq {a b : W64} (hb : b ≠ 0) (hcorner : ¬(a = BitVec.intMin 64 ∧ b = -1)) :
    divSigned a b = (a.sdiv b, a.srem b) := by
  have hoverflow : ¬(a = BitVec.ofInt 64 (-(2 ^ 63 : Nat)) ∧ b = BitVec.allOnes 64) := hcorner
  have hrange : a ≠ BitVec.intMin 64 ∨ b ≠ -1 := Decidable.not_and_iff_not_or_not.1 hcorner
  rw [divSigned, if_neg hb, if_neg hoverflow, ← BitVec.toInt_sdiv_of_ne_or_ne a b hrange, ← BitVec.toInt_srem,
    BitVec.ofInt_toInt, BitVec.ofInt_toInt]

/-- By zero the quotient is all ones and the remainder the dividend. -/
theorem divUnsigned_zero (a : W64) : divUnsigned a 0 = (BitVec.allOnes 64, a) := rfl

/-- Unsigned division by a divisor that is not zero is the library's. -/
theorem divUnsigned_eq {a b : W64} (hb : b ≠ 0) : divUnsigned a b = (a / b, a % b) := by
  rw [divUnsigned, if_neg hb, ← BitVec.toNat_udiv, ← BitVec.toNat_umod, BitVec.ofNat_toNat, BitVec.ofNat_toNat,
    BitVec.setWidth_eq, BitVec.setWidth_eq]

/-- The remainder has the sign of the dividend, or is zero: it is what the truncated quotient leaves. -/
theorem toInt_srem_eq_sub {a b : W64} (hcorner : ¬(a = BitVec.intMin 64 ∧ b = -1)) :
    (a.srem b).toInt = a.toInt - (a.sdiv b).toInt * b.toInt := by
  rw [BitVec.toInt_srem, BitVec.toInt_sdiv_of_ne_or_ne a b (Decidable.not_and_iff_not_or_not.1 hcorner), Int.tmod_def, Int.mul_comm]

/-! ## The statement -/

/-- Settles O2: the quotient and the remainder of each division, by its corners and its general case. -/
theorem division : Obligations.Division := by
  intro s d a b x y c t
  refine ⟨⟨(divSigned x y).1, (divSigned x y).2, rfl, rfl, fun hy => ?_, fun hx hy => ?_, fun hy hcorner => ?_⟩,
    ⟨(divUnsigned x y).1, (divUnsigned x y).2, rfl, rfl, fun hy => ?_, fun hy => ?_⟩⟩
  · rw [hy, divSigned_zero]
    exact ⟨rfl, rfl⟩
  · rw [hx, hy, divSigned_overflow]
    exact ⟨rfl, rfl⟩
  · rw [divSigned_eq hy hcorner]
    exact ⟨BitVec.toInt_sdiv_of_ne_or_ne x y (Decidable.not_and_iff_not_or_not.1 hcorner), toInt_srem_eq_sub hcorner⟩
  · rw [hy, divUnsigned_zero]
    exact ⟨rfl, rfl⟩
  · have hpos : 0 < y.toNat := Nat.pos_of_ne_zero fun h0 => hy (BitVec.eq_of_toNat_eq h0)
    rw [divUnsigned_eq hy, BitVec.toNat_udiv, BitVec.toNat_umod]
    exact ⟨(Nat.div_add_mod' ..).symm, Nat.mod_lt _ hpos⟩

end Sys2Proof.Machine
end

section
/-! SUPPORT. The words of CMP, SEL, the predicate instructions, LDS and STS as the decoder of slot A reads them (R71, R72). -/

namespace Sys2Proof

/-! ## Codes and sizes (R70) -/

/-- A condition is read back from its code. -/
theorem Cc.ofCode_code (c : Cc) : Cc.ofCode c.code = c := by cases c <;> rfl

/-- A code up to 9 names a condition. -/
theorem Cc.code_ofCode {c : BitVec 4} (h : c.toNat < 10) : (Cc.ofCode c).code = c := by
  revert c; decide

/-- The codes from 10 up name no condition. -/
theorem Cc.toNat_code_lt (c : Cc) : c.code.toNat < 10 := by cases c <;> decide

/-- A size is read back from its code. -/
theorem Sz.ofCode_code (z : Sz) : Sz.ofCode z.code = z := by cases z <;> rfl

theorem Sz.bytes_le (z : Sz) : z.bytes ≤ 8 := by cases z <;> decide

/-! ## Fields within a field -/

/-- The predicate number in the low bits of the d field of format AS. -/
theorem encAS_pd (op : BitVec 7) (d : BitVec 4) (a b : BitVec 6) (x : BitVec 4) : fld (encAS op (0#2 ++ d) a b x) 19 4 = d := by
  refine (BitVec.extractLsb'_append_eq_of_le (by decide)).trans ?_
  refine (BitVec.extractLsb'_append_eq_of_le (by decide)).trans ?_
  refine (BitVec.extractLsb'_append_eq_of_le (by decide)).trans ?_
  refine (BitVec.extractLsb'_append_eq_of_le (by decide)).trans ?_
  refine (BitVec.extractLsb'_append_eq_of_add_le (by decide)).trans ?_
  exact BitVec.extractLsb'_append_eq_right

/-- SZ in the immediate of LDS and STS. -/
theorem encAI_sz (op : BitVec 7) (d a : BitVec 6) (z : BitVec 2) (off : BitVec 11) : fld (encAI op d a (z ++ off)) 11 2 = z :=
  (BitVec.extractLsb'_append_eq_of_add_le (by decide)).trans BitVec.extractLsb'_append_eq_left

/-- The offset in the immediate of LDS and STS. -/
theorem encAI_off (op : BitVec 7) (d a : BitVec 6) (z : BitVec 2) (off : BitVec 11) : fld (encAI op d a (z ++ off)) 0 11 = off :=
  (BitVec.extractLsb'_append_eq_of_add_le (by decide)).trans BitVec.extractLsb'_append_eq_right

/-! ## The decoder beyond format AR -/

section
variable {w v : SlotWord} {i : Instr} {op : BitVec 7}

/-- Opcodes beyond 0x18 are not of format AR, so they carry no short header. -/
theorem isAR_eq_false (hop : fld w 25 7 = op) (hlt : 0x18 < op.toNat) : isAR w = false := by
  simp [isAR, hop, Nat.not_le.2 hlt]

/-- Outside format AR the decoder of slot A accepts the instruction that the opcode names where its own word `v` is the word read. -/
theorem decodeA_eq_ite (hop : fld w 25 7 = op) (hlt : 0x18 < op.toNat) (hraw : rawA w = some i) (hwf : i.wf = true)
    (hv : i.word = v) : decodeA w = if v = w then some i else none := by
  simp [decodeA, shortOk, bareA, isAR_eq_false hop hlt, hraw, accept, hwf, hv]

/-- Outside format AR the decoder of slot A reads an instruction back from its own word. -/
theorem decodeA_eq_some (hop : fld w 25 7 = op) (hlt : 0x18 < op.toNat) (hraw : rawA w = some i) (hwf : i.wf = true)
    (hw : i.word = w) : decodeA w = some i :=
  (decodeA_eq_ite hop hlt hraw hwf hw).trans (if_pos rfl)

end

/-! ## The words of R99 to R102 -/

/-- Two words of format AS that differ in x alone are one word exactly where it is the same. -/
theorem encAS_inj_x (op : BitVec 7) (d a b : BitVec 6) (x y : BitVec 4) : encAS op d a b x = encAS op d a b y ↔ x = y :=
  ⟨fun h => by simpa only [encAS_x] using congrArg (fld · 3 4) h, congrArg _⟩

/-- Two words of format AP that differ in the pb field alone are one word exactly where it is the same. -/
theorem encAP_inj_b (op : BitVec 7) (d a b c : BitVec 4) : encAP op d a b = encAP op d a c ↔ b = c :=
  ⟨fun h => by simpa only [encAP_b] using congrArg (fld · 13 4) h, congrArg _⟩

/-- An AS word of opcode 0x1A is the CMP of the condition that its x field codes, and refused where x codes none. -/
theorem decodeA_cmp (d : BitVec 4) (a b : BitVec 6) (c : BitVec 4) :
    decodeA (encAS 0x1A (0#2 ++ d) a b c) = if (Cc.ofCode c).code = c then some (.cmp (Cc.ofCode c) d a b) else none := by
  have hraw : rawA (encAS 0x1A (0#2 ++ d) a b c) = some (.cmp (Cc.ofCode c) d a b) := by
    rw [rawA, encAS_op, encAS_pd, encAS_a, encAS_b, encAS_x]; rfl
  have h := decodeA_eq_ite (encAS_op ..) (by decide) hraw rfl (v := encAS 0x1A (0#2 ++ d) a b (Cc.ofCode c).code) rfl
  simpa only [encAS_inj_x] using h

theorem decodeA_sel (d a b : BitVec 6) (p : BitVec 4) : decodeA (encAS 0x19 d a b p) = some (.sel d p a b) :=
  decodeA_eq_some (encAS_op ..) (by decide) (by rw [rawA, encAS_op, encAS_d, encAS_a, encAS_b, encAS_x]; rfl) rfl rfl

theorem decodeA_pand (d a b : BitVec 4) : decodeA (encAP 0x30 d a b) = some (.pand d a b) :=
  decodeA_eq_some (encAP_op ..) (by decide) (by rw [rawA, encAP_op, encAP_d, encAP_a, encAP_b]; rfl) rfl rfl

theorem decodeA_por (d a b : BitVec 4) : decodeA (encAP 0x31 d a b) = some (.por d a b) :=
  decodeA_eq_some (encAP_op ..) (by decide) (by rw [rawA, encAP_op, encAP_d, encAP_a, encAP_b]; rfl) rfl rfl

theorem decodeA_pxor (d a b : BitVec 4) : decodeA (encAP 0x32 d a b) = some (.pxor d a b) :=
  decodeA_eq_some (encAP_op ..) (by decide) (by rw [rawA, encAP_op, encAP_d, encAP_a, encAP_b]; rfl) rfl rfl

/-- PNOT's pb field is zero; any other is refused. -/
theorem decodeA_pnot (d a b : BitVec 4) : decodeA (encAP 0x33 d a b) = if b = 0 then some (.pnot d a) else none := by
  have hraw : rawA (encAP 0x33 d a b) = some (.pnot d a) := by rw [rawA, encAP_op, encAP_d, encAP_a]; rfl
  have h := decodeA_eq_ite (encAP_op ..) (by decide) hraw rfl (v := encAP 0x33 d a 0) rfl
  simpa only [encAP_inj_b, eq_comm (a := (0 : BitVec 4))] using h

/-- PMOV's pb field is zero; any other is refused. -/
theorem decodeA_pmov (d a b : BitVec 4) : decodeA (encAP 0x34 d a b) = if b = 0 then some (.pmov d a) else none := by
  have hraw : rawA (encAP 0x34 d a b) = some (.pmov d a) := by rw [rawA, encAP_op, encAP_d, encAP_a]; rfl
  have h := decodeA_eq_ite (encAP_op ..) (by decide) hraw rfl (v := encAP 0x34 d a 0) rfl
  simpa only [encAP_inj_b, eq_comm (a := (0 : BitVec 4))] using h

theorem decodeA_lds (z : Sz) (d a : BitVec 6) (off : BitVec 11) :
    decodeA (encAI 0x2B d a (z.code ++ off)) = some (.lds z d a off) :=
  decodeA_eq_some (encAI_op ..) (by decide)
    (by rw [rawA, encAI_op, encAI_d, encAI_a, encAI_sz, encAI_off, Sz.ofCode_code]; rfl) rfl rfl

theorem decodeA_sts (z : Sz) (d a : BitVec 6) (off : BitVec 11) :
    decodeA (encAI 0x2C d a (z.code ++ off)) = some (.sts z d a off) :=
  decodeA_eq_some (encAI_op ..) (by decide)
    (by rw [rawA, encAI_op, encAI_d, encAI_a, encAI_sz, encAI_off, Sz.ofCode_code]; rfl) rfl rfl

end Sys2Proof
end

section
/-! SUPPORT. The conditions of CMP, and the statement about compares, selection and predicate logic (O3). -/

namespace Sys2Proof.Machine

/-! ## The conditions of CMP (R99) -/

/-- Words differ as bits where they are not one word. -/
theorem bne_eq_decide_ne (a b : W64) : (a != b) = decide (a ≠ b) := by
  rw [bne, Bool.beq_eq_decide_eq, ← decide_not]

/-- The conditions that hold where "less than" fails, on signed values. -/
theorem not_slt_eq_decide (a b : W64) : (!a.slt b) = decide (b.toInt ≤ a.toInt) := by
  rw [BitVec.slt_eq_decide, ← decide_not]
  exact decide_eq_decide.2 Int.not_lt

/-- The conditions that hold where "less than" fails, on unsigned values. -/
theorem not_ult_eq_decide (a b : W64) : (!a.ult b) = decide (b.toNat ≤ a.toNat) := by
  rw [BitVec.ult, ← decide_not]
  exact decide_eq_decide.2 Nat.not_lt

/-- CMP gives every bit of its predicate the truth of its condition. -/
theorem exec_cmp {s : State} {c : Cc} {a b : BitVec 6} {p : Bool} (d : BitVec 4) (h : cmpHolds c (s.me.s a) (s.me.s b) = p) :
    exec (.cmp c d a b) s = .next (s.givesP d (if p then BitVec.allOnes 1024 else 0#1024)) := by
  subst h; rfl

/-- PNOT of p0 clears its predicate (R101). -/
theorem exec_pnot_p0 (s : State) (d : BitVec 4) : exec (.pnot d 0) s = .next (s.givesP d 0) := by
  change Host.Outcome.next (s.givesP d (~~~BitVec.allOnes 1024)) = _
  rw [BitVec.not_allOnes]
  rfl

/-! ## The statement -/

/-- Settles O3: CMP by its ten conditions and its word by whether the code is assigned; selection and predicate logic as the model
computes them, with their words. -/
theorem scalarPredicates : Obligations.ScalarPredicates := by
  refine ⟨fun s d a b => ⟨?_, ?_, ?_, ?_, ?_, ?_, ?_, ?_, ?_, ?_, fun c => ?_⟩, fun s d a b p q pd => ?_⟩
  · exact exec_cmp d (Bool.beq_eq_decide_eq ..)
  · exact exec_cmp d (bne_eq_decide_ne ..)
  · exact exec_cmp d BitVec.slt_eq_decide
  · exact exec_cmp d (not_slt_eq_decide ..)
  · exact exec_cmp d (not_slt_eq_decide ..)
  · exact exec_cmp d BitVec.slt_eq_decide
  · exact exec_cmp d rfl
  · exact exec_cmp d (not_ult_eq_decide ..)
  · exact exec_cmp d (not_ult_eq_decide ..)
  · exact exec_cmp d rfl
  · have hd : d.setWidth 6 = 0#2 ++ d := BitVec.setWidth_eq_append (by decide)
    rw [hd, decodeA_cmp]
    refine ⟨fun hc => if_neg fun h => ?_, fun hc => ⟨Cc.ofCode c, Cc.code_ofCode hc, if_pos (Cc.code_ofCode hc)⟩⟩
    have hlt := Cc.toNat_code_lt (Cc.ofCode c)
    rw [h] at hlt
    omega
  · exact ⟨rfl, rfl, rfl, rfl, rfl, rfl, exec_pnot_p0 .., decodeA_sel .., decodeA_pand .., decodeA_por .., decodeA_pxor ..,
      decodeA_pnot .., decodeA_pmov ..⟩

end Sys2Proof.Machine
end

section
/-! SUPPORT. The bytes of a number, little-endian, the cases of LDS and STS, and the statement about them (O4). -/

namespace Sys2Proof.Machine

/-! ## Little-endian bytes (R9) -/

theorem leNat_lt (l : List Byte) : leNat l < 2 ^ (8 * l.length) := by
  induction l with
  | nil => simp [leNat]
  | cons b r ih =>
    have hb := b.isLt
    have hpow : 2 ^ (8 * (b :: r).length) = 256 * 2 ^ (8 * r.length) := by
      rw [List.length_cons, Nat.mul_succ, Nat.add_comm, Nat.pow_add]
    rw [hpow, leNat]
    omega

/-- Byte `i` of the number that bytes hold is the `i`th of them. -/
theorem leNat_shiftRight_mod (l : List Byte) (i : Nat) (hi : i < l.length) : leNat l >>> (8 * i) % 2 ^ 8 = l[i].toNat := by
  induction l generalizing i with
  | nil => simp at hi
  | cons b r ih =>
    have hb := b.isLt
    cases i with
    | zero => simp only [leNat, Nat.mul_zero, Nat.shiftRight_zero, List.getElem_cons_zero]; omega
    | succ i =>
      have hrest : leNat (b :: r) >>> 8 = leNat r := by rw [leNat, Nat.shiftRight_eq_div_pow]; omega
      rw [Nat.mul_succ, Nat.add_comm, Nat.shiftRight_add, hrest, List.getElem_cons_succ]
      exact ih i (Nat.lt_of_succ_lt_succ hi)

@[simp] theorem length_natLe (n v : Nat) : (natLe n v).length = n := by
  induction n generalizing v with
  | zero => rfl
  | succ n ih => rw [natLe, List.length_cons, ih]

/-- Byte `i` of the low bytes of a number. -/
theorem getElem_natLe (n v i : Nat) (hi : i < (natLe n v).length) : (natLe n v)[i] = BitVec.ofNat 8 (v >>> (8 * i)) := by
  induction n generalizing v i with
  | zero => simp [natLe] at hi
  | succ n ih =>
    cases i with
    | zero => rfl
    | succ i =>
      have hi' : i < (natLe n (v / 256)).length := Nat.lt_of_succ_lt_succ hi
      have hshift : v >>> (8 * (i + 1)) = (v / 256) >>> (8 * i) := by
        rw [Nat.mul_succ, Nat.add_comm, Nat.shiftRight_add, Nat.shiftRight_eq_div_pow v 8]
      rw [hshift]
      exact ih _ i hi'

/-- At most eight bytes fit a word. -/
theorem toNat_ofNat_leNat (l : List Byte) (hl : l.length ≤ 8) : (BitVec.ofNat 64 (leNat l)).toNat = leNat l := by
  have hlt : leNat l < 2 ^ 64 := Nat.lt_of_lt_of_le (leNat_lt l) (Nat.pow_le_pow_right (by decide) (by omega))
  rw [BitVec.toNat_ofNat, Nat.mod_eq_of_lt hlt]

/-- A word made of at most eight bytes holds them from bit 0 up. -/
theorem extractLsb'_ofNat_leNat (l : List Byte) (hl : l.length ≤ 8) (i : Nat) (hi : i < l.length) :
    (BitVec.ofNat 64 (leNat l)).extractLsb' (8 * i) 8 = l[i] := by
  apply BitVec.eq_of_toNat_eq
  rw [BitVec.extractLsb'_toNat, toNat_ofNat_leNat l hl, leNat_shiftRight_mod l i hi]

/-! ## The window (R102) -/

theorem length_readN (m : Mem) (a n : Nat) : (Mem.readN m a n).length = n := by
  rw [Mem.readN, List.length_map, List.length_range]

theorem length_readN_le (m : Mem) (q : Nat) (z : Sz) : (Mem.readN m q z.bytes).length ≤ 8 := by
  rw [length_readN]
  exact z.bytes_le

/-- An access leaves the window below it or above it. -/
theorem sdmOut_iff (x : Strand) (z : Sz) (a : BitVec 6) (off : BitVec 11) : sdmOut x z a off = true ↔
    ((x.s a).toNat : Int) + off.toInt < 0 ∨ (x.sdmSize : Int) < ((x.s a).toNat : Int) + off.toInt + z.bytes := by
  simp [sdmOut]

/-- The access of a signed sum within the window is inside. -/
theorem sdmOut_eq_false (x : Strand) (z : Sz) (a : BitVec 6) (off : BitVec 11) (h0 : 0 ≤ ((x.s a).toNat : Int) + off.toInt)
    (hend : ((x.s a).toNat : Int) + off.toInt + z.bytes ≤ x.sdmSize) : sdmOut x z a off = false := by
  rw [← Bool.not_eq_true, sdmOut_iff]
  omega

/-- The strand after its STS: the bytes of the window that the store writes, and the chunks it touches. -/
def Strand.sdmStored (x : Strand) (z : Sz) (d a : BitVec 6) (off : BitVec 11) : Strand :=
  { x with
    sdm := Mem.writeN x.sdm (sdmAddr x a off) (natLe z.bytes (x.s d).toNat)
    chunks := execSts.markChunk x.chunks (sdmAddr x a off) z.bytes }

section
variable (s : State) (z : Sz) (d a : BitVec 6) (off : BitVec 11)

/-- LDS traps BOUNDS with TVAL its address, or gives the number that the bytes of its access hold. -/
theorem exec_lds : exec (.lds z d a off) s =
    if sdmOut s.me z a off then .next (s.traps 0 .bounds (s.me.s a + off.signExtend 64))
    else .next (s.gives 2 d (BitVec.ofNat 64 (leNat (Mem.readN s.me.sdm (sdmAddr s.me a off) z.bytes)))) := by
  change execLds z d a off s = _
  rw [execLds, sdmAddr, BitVec.ofNat_toNat, BitVec.setWidth_eq]
  rfl

/-- STS traps BOUNDS with TVAL its address, or stores. -/
theorem exec_sts : exec (.sts z d a off) s =
    if sdmOut s.me z a off then .next (s.traps 0 .bounds (s.me.s a + off.signExtend 64))
    else .next (s.did 0 (s.me.sdmStored z d a off)) := by
  change execSts z d a off s = _
  rw [execSts, sdmAddr, BitVec.ofNat_toNat, BitVec.setWidth_eq]
  rfl

end

/-- Byte `i` of what LDS gives is byte `i` of its access. -/
theorem extractLsb'_sdm (m : Mem) (q i : Nat) (z : Sz) (hi : i < z.bytes) :
    (BitVec.ofNat 64 (leNat (Mem.readN m q z.bytes))).extractLsb' (8 * i) 8 = Mem.read m (q + i) := by
  have hlen := length_readN m q z.bytes
  rw [extractLsb'_ofNat_leNat _ (length_readN_le m q z) i (Nat.lt_of_lt_of_eq hi hlen.symm)]
  simp [Mem.readN]

/-- What LDS gives has no bit beyond its bytes. -/
theorem toNat_sdm_lt (m : Mem) (q : Nat) (z : Sz) :
    (BitVec.ofNat 64 (leNat (Mem.readN m q z.bytes))).toNat < 2 ^ (8 * z.bytes) := by
  rw [toNat_ofNat_leNat _ (length_readN_le m q z)]
  exact Nat.lt_of_lt_of_eq (leNat_lt _) (by rw [length_readN])

section
variable (x : Strand) (z : Sz) (d a : BitVec 6) (off : BitVec 11)

/-- The bytes stored read back: the low bytes of sd. -/
theorem Strand.read_sdmStored (i : Nat) (hi : i < z.bytes) :
    Mem.read (x.sdmStored z d a off).sdm (sdmAddr x a off + i) = (x.s d).extractLsb' (8 * i) 8 := by
  have hlen : i < (natLe z.bytes (x.s d).toNat).length := by rwa [length_natLe]
  exact (Mem.read_writeN_inside _ _ _ i hlen).trans (getElem_natLe _ _ i hlen)

/-- Every other byte reads as before. -/
theorem Strand.read_sdmStored_frame (j : Nat) (hj : j < sdmAddr x a off ∨ sdmAddr x a off + z.bytes ≤ j) :
    Mem.read (x.sdmStored z d a off).sdm j = Mem.read x.sdm j :=
  Mem.read_writeN_outside _ _ _ j (by rwa [length_natLe])

end

/-- The strand in issue once a slot has performed. -/
theorem State.me_did (s : State) (k : Nat) (x : Strand) : (s.did k x).me = x.performed k := State.me_setMe ..

/-- A slot that performs leaves every other strand. -/
theorem State.strand_did_ne (s : State) (k j : Nat) (x : Strand) (hj : j ≠ s.cur) : (s.did k x).strand j = s.strand j :=
  State.strand_setStrand_ne _ _ _ _ hj

/-! ## The statement -/

/-- Settles O4: LDS and STS by whether the access lies within the window, and their words. -/
theorem localData : Obligations.LocalData := by
  intro s z d a off q r n
  refine ⟨fun hout => ?_, fun h0 hend => ⟨⟨_, ?_, fun i => extractLsb'_sdm s.me.sdm q.toNat i z, toNat_sdm_lt s.me.sdm q.toNat z⟩,
    ⟨s.did 0 (s.me.sdmStored z d a off), ?_, fun i hi => ?_, fun j hj => ?_, ?_, ?_, ?_, ?_, fun j => s.strand_did_ne 0 j _⟩⟩,
    decodeA_lds .., decodeA_sts ..⟩
  · have h := (sdmOut_iff s.me z a off).2 hout
    rw [exec_lds, exec_sts, if_pos h, if_pos h]
    exact ⟨rfl, rfl⟩
  · rw [exec_lds, sdmOut_eq_false s.me z a off h0 hend]
    rfl
  · rw [exec_sts, sdmOut_eq_false s.me z a off h0 hend]
    rfl
  · rw [State.me_did]
    exact s.me.read_sdmStored z d a off i hi
  · rw [State.me_did]
    exact s.me.read_sdmStored_frame z d a off j hj
  all_goals rw [State.me_did]; rfl

end Sys2Proof.Machine
end

section
/-! SUPPORT. The end evaluation of hardware loops, the stage predicates of a pipelined loop, the end of a bundle's issue, and the statement
about them (O6). -/

namespace Sys2Proof.Machine

/-! ## The end evaluation (R108) -/

section
variable {b : Nat} {e : LoopEntry} {r : List LoopEntry} {q : BitVec 8}

/-- An entry that does not end at the bundle stops the evaluation. -/
theorem loopEnd_stops (h : e.last ≠ b) : loopEnd b (e :: r) q = (e :: r, q, b + 1) := if_neg h

/-- An entry with iterations left takes the strand to its start. -/
theorem loopEnd_repeats (h : e.last = b) (hcount : 1 < e.count) : loopEnd b (e :: r) q =
    ({ e with count := e.count - 1 } :: r, if e.rot then rotateQ q (e.count - 1) else q, e.start) := by
  have hleft : e.count - 1 ≠ 0 := by omega
  exact (if_pos h).trans (if_pos hleft)

/-- The last iteration pops its entry, and the next one is evaluated. -/
theorem loopEnd_pops (h : e.last = b) (hcount : e.count = 1) : loopEnd b (e :: r) q =
    loopEnd b r (if e.rot then rotateQ q 0 else q) := by
  simp [loopEnd, h, hcount]

end

section
variable {x : Strand} {b : Nat} {e : LoopEntry} {r : List LoopEntry}

/-- Without a taken transfer a bundle completes by the end evaluation. -/
theorem Strand.complete_none {l : List LoopEntry} {q : BitVec 8} {pc : Nat} (h : loopEnd b x.loops x.q = (l, q, pc)) :
    x.complete b none = { x with loops := l, q := q, pc := pc } := by
  simp [Strand.complete, h]

theorem Strand.complete_empty (hl : x.loops = []) : x.complete b none = { x with pc := b + 1 } :=
  Strand.complete_none (hl ▸ rfl)

theorem Strand.complete_stops (hl : x.loops = e :: r) (h : e.last ≠ b) : x.complete b none = { x with pc := b + 1 } :=
  Strand.complete_none (hl ▸ loopEnd_stops h)

theorem Strand.complete_repeats (hl : x.loops = e :: r) (h : e.last = b) (hcount : 1 < e.count) :
    x.complete b none = { x with
      loops := { e with count := e.count - 1 } :: r
      q := if e.rot then rotateQ x.q (e.count - 1) else x.q
      pc := e.start } :=
  Strand.complete_none (hl ▸ loopEnd_repeats h hcount)

theorem Strand.complete_pops (hl : x.loops = e :: r) (h : e.last = b) (hcount : e.count = 1) :
    x.complete b none = { x with loops := r, q := if e.rot then rotateQ x.q 0 else x.q }.complete b none :=
  Strand.complete_none (hl ▸ loopEnd_pops h hcount)

end

/-! ## The stage predicates (R109) -/

/-- q0 is set where eight or more iterations are left. -/
theorem getLsbD_rotateQ_zero (q : BitVec 8) (c : Nat) : (rotateQ q c).getLsbD 0 = true ↔ 8 ≤ c := by
  by_cases hc : 8 ≤ c <;> simp [rotateQ, hc]

/-- Every other stage predicate takes the one below it. -/
theorem getLsbD_rotateQ_succ (q : BitVec 8) (c : Nat) {i : Nat} (hi : i < 7) :
    (rotateQ q c).getLsbD (i + 1) = q.getLsbD i := by
  have hshift : (q <<< 1).getLsbD (i + 1) = q.getLsbD i := by
    have hin : i + 1 < 8 := Nat.succ_lt_succ hi
    simp only [BitVec.getLsbD_shiftLeft, decide_eq_true hin, Nat.not_lt.2 (Nat.le_add_left 1 i), decide_false, Nat.add_sub_cancel,
      Bool.not_false, Bool.true_and]
  have hset : (if 8 ≤ c then 1#8 else 0#8).getLsbD (i + 1) = false := by
    split
    · rw [BitVec.getLsbD_one, decide_eq_false (Nat.succ_ne_zero i), Bool.and_false]
    · exact BitVec.getLsbD_zero
  change (q <<< 1 ||| if 8 ≤ c then 1#8 else 0#8).getLsbD (i + 1) = _
  rw [BitVec.getLsbD_or, hshift, hset, Bool.or_false]

/-- The stage predicates of a loop of count `N + 7` in iteration `i`: LOOPS sets them, and each end evaluation rotates them (R106, R109). -/
def stagePredicates (N i : Nat) : BitVec 8 :=
  (List.range i).foldl (fun q j => rotateQ q (N + 6 - j)) (if 8 ≤ N + 7 then 1 else 0)

theorem stagePredicates_succ (N i : Nat) : stagePredicates N (i + 1) = rotateQ (stagePredicates N i) (N + 6 - i) := by
  rw [stagePredicates, List.range_succ, List.foldl_append]
  rfl

/-- Stage `s` is on in the iterations from `s` up to `N + s`: each iteration moves the stages up by one, and the first is on in the first `N`. -/
theorem getLsbD_stagePredicates (N i s : Nat) (hs : s < 8) :
    (stagePredicates N i).getLsbD s = true ↔ s ≤ i ∧ i < N + s := by
  induction i generalizing s with
  | zero =>
    by_cases hN : 8 ≤ N + 7
    · have hset : stagePredicates N 0 = 1#8 := if_pos hN
      rw [hset, BitVec.getLsbD_one, Bool.and_eq_true, decide_eq_true_iff, decide_eq_true_iff]
      omega
    · have hclear : stagePredicates N 0 = 0#8 := if_neg hN
      rw [hclear, BitVec.getLsbD_zero, Bool.false_eq_true, false_iff]
      omega
  | succ i ih =>
    rw [stagePredicates_succ]
    cases s with
    | zero => rw [getLsbD_rotateQ_zero]; omega
    | succ s => rw [getLsbD_rotateQ_succ _ _ (by omega), ih s (by omega)]; omega

/-! ## The end of a bundle's issue (R108, R112, R283, R37) -/

section
variable {s : State} {k : Nat}

/-- A bundle that ends neither the strand nor a handler completes, and then its REGION or ENDREG acts. -/
theorem State.closeBundle_completes (hdone : s.me.iss.done = false) (hmode : s.me.iss.handler = s.me.handler)
    (heret : s.me.iss.eret = false) :
    s.closeBundle = (s.setMe (s.me.complete s.me.iss.idx s.me.iss.next).counted).regionOp s.me.iss.idx s.me.iss.n s.me.iss.regOp := by
  have hstays : ¬(s.me.iss.handler = true ∧ s.me.handler = false) := by rw [hmode]; simp
  simp only [State.closeBundle, hdone, if_neg hstays, heret, Bool.false_eq_true, if_false]

/-- What follows the issue of a bundle that did not trap and is no drain point is its end alone. -/
theorem State.closeIssue_untrapped (htrap : (s.strand k).iss.trapped = none) (hdp : (s.strand k).iss.dp = false) :
    s.closeIssue k = State.closeBundle { s with cur := k } := by
  simp [State.closeIssue, htrap, hdp]

/-- What follows the issue of a bundle that trapped: the request of the cycle is void, and the trap is entered unless slot D is still to be
accepted. -/
theorem State.closeIssue_trapped (htrap : (s.strand k).iss.trapped ≠ none) :
    s.closeIssue k = if (s.strand k).iss.await = [] then (s.setStrand k (s.strand k).voidAsk).trapEntry k
      else s.setStrand k (s.strand k).voidAsk := by
  simp [State.closeIssue, Option.isSome_iff_ne_none.2 htrap]

end

/-! ## The statement -/

/-- Settles O6: the end evaluation by the top entry, the stage predicates by induction on the iteration, and the end of a bundle's issue
by whether it trapped. -/
theorem loopEnds : Obligations.LoopEnds := by
  refine ⟨fun x b t e r => ?_, fun q c i => ?_, fun N i s _ hs => getLsbD_stagePredicates N i s hs, fun s k => ⟨?_, ?_⟩⟩
  · exact ⟨rfl, Strand.complete_empty, Strand.complete_stops, Strand.complete_repeats, Strand.complete_pops⟩
  · exact ⟨getLsbD_rotateQ_zero q c, getLsbD_rotateQ_succ q c⟩
  · exact fun htrap hdone hmode heret => ⟨State.closeBundle_completes (s := { s with cur := k }) hdone hmode heret,
      State.closeIssue_untrapped htrap⟩
  · exact fun htrap => ⟨fun h => (State.closeIssue_trapped htrap).trans (if_neg h),
      fun h => (State.closeIssue_trapped htrap).trans (if_pos h)⟩

end Sys2Proof.Machine
end
